-- ==== Sys2Proof/Word.lean ====
section
/-!
DEFINITION. The word types of the module and their plainest arithmetic: bytes, 32-bit register words, 64-bit scalar
values, 2,048-bit vector registers, and the little-endian order of R8.
-/
namespace Sys2Proof

/-- One byte of memory (R8, R199). -/
abbrev Byte := BitVec 8
/-- One register-page word (R500). -/
abbrev Word32 := BitVec 32
/-- One scalar register (R194), and every 64-bit quantity of the queue entries. -/
abbrev Word64 := BitVec 64
/-- One vector register (R194). -/
abbrev VWord := BitVec 2048
/-- One mask register (R194). -/
abbrev MWord := BitVec 256

namespace Word

/-- The little-endian value of a byte list (R8): the first byte is the least significant. -/
def leValue : List Byte → Nat
  | [] => 0
  | b :: r => b.toNat + 256 * leValue r

/-- The `n` bytes of a number, least significant first (R8). -/
def leBytes : Nat → Nat → List Byte
  | 0, _ => []
  | n + 1, v => BitVec.ofNat 8 v :: leBytes n (v / 256)

/-- The big-endian value of a byte list: the first byte is the most significant. -/
def beValue (bs : List Byte) : Nat := leValue bs.reverse

/-- The `n` bytes of a number, most significant first. -/
def beBytes (n v : Nat) : List Byte := (leBytes n v).reverse

/-- Bits `hi..lo` of a number. -/
def bits (hi lo v : Nat) : Nat := v / 2 ^ lo % 2 ^ (hi + 1 - lo)

/-- One bit of a number. -/
def bit (i v : Nat) : Bool := Nat.testBit v i

/-- `v` with its bits `hi..lo` replaced by the low bits of `x`. -/
def putBits (hi lo x v : Nat) : Nat :=
  v - bits hi lo v * 2 ^ lo + (x % 2 ^ (hi + 1 - lo)) * 2 ^ lo

/-- The two's complement reading of the low `w` bits of `v`. -/
def signed (w v : Nat) : Int :=
  let u := v % 2 ^ w
  if 2 * u < 2 ^ w then (u : Int) else (u : Int) - (2 ^ w : Nat)

/-- A number reduced to `w` bits, negative numbers in two's complement. -/
def wrap (w : Nat) (x : Int) : Nat := (x % ((2 ^ w : Nat) : Int)).toNat

/-- A count that stops at its largest value instead of wrapping. -/
def saturate (top v : Nat) : Nat := if v ≤ top then v else top

/-- `a / b` rounded up; 0 when `b` is 0. -/
def ceilDiv (a b : Nat) : Nat := if b = 0 then 0 else (a + b - 1) / b

end Word
end Sys2Proof
end

