-- ==== Sys2Proof/Syntax.lean ====
section
/-!
DEFINITION. The commands of the module: one constructor of Instr for each row of the opcode table, with the row's operands,
and the types of those operands. A command names the unit it acts on and carries what comes from outside the module:
the fields of a fetched instruction word, the value of a register write, the contents of a queue entry or a frame, and the
outcome of anything the module measures (a sensor, a link, a training run).
-/
namespace Sys2Proof

/-- A core: core `k` of cluster `c` (R194). For an instruction, `parity` says that its fetch met a parity error in the core's L1 instruction
cache (R195); no other command reads it. -/
structure CoreRef where
  c : Fin 12
  k : Fin 16
  parity : Bool := false
  deriving DecidableEq, Repr

/-- Who writes a register: the driver through BAR0, the stage manager or the management path, or a core. -/
inductive Writer where
  | driver
  | manager
  | core (w : CoreRef)
  deriving DecidableEq, Repr

/-- The operand fields of format A (R202). -/
structure FmtA where
  rd : BitVec 5
  ra : BitVec 5
  rb : BitVec 5
  deriving DecidableEq, Repr

/-- The operand fields of format I (R202). -/
structure FmtI where
  rd : BitVec 5
  ra : BitVec 5
  imm : BitVec 16
  deriving DecidableEq, Repr

/-- The operand fields of the shift immediates: IMM[7:6] is the operation, `hi` is IMM[15:8] and `amt` IMM[5:0] (R203). -/
structure FmtSh where
  rd : BitVec 5
  ra : BitVec 5
  hi : BitVec 8
  amt : BitVec 6
  deriving DecidableEq, Repr

/-- The operand fields of format M (R202). -/
structure FmtM where
  rt : BitVec 5
  ra : BitVec 5
  disp : BitVec 12
  deriving DecidableEq, Repr

/-- The operand fields of format B (R202). -/
structure FmtB where
  ra : BitVec 5
  rb : BitVec 5
  off : BitVec 16
  deriving DecidableEq, Repr

/-- The operand fields of format V (R202). -/
structure FmtV where
  vd : BitVec 5
  va : BitVec 5
  vb : BitVec 5
  msk : BitVec 3
  ew : BitVec 2
  deriving DecidableEq, Repr

/-- The operands of a vector or mask load: the fields of format V (R202), and whether a line that the L1 data cache holds for it meets a parity
error (R195). -/
structure FmtVL extends FmtV where
  l1Parity : Bool
  deriving DecidableEq, Repr

/-- The operand fields of format S (R202). -/
structure FmtS where
  rd : BitVec 5
  ra : BitVec 5
  sys : BitVec 12
  deriving DecidableEq, Repr

/-- A row that a staged write names: a committed row number, or the `k`-th row that the item at seal position `pos` of the
same cue inserted (R41, R123). -/
inductive RowRef where
  | committed (row : Nat)
  | inserted (pos k : Nat)
  deriving DecidableEq, Repr

/-- The merge operations (R50). -/
inductive MergeOp where
  | add | min | max | or | count | ringPush
  deriving DecidableEq, Repr

/-- The target of a merge contribution: row form or key form (R47). -/
inductive MergeTarget where
  | row (r : RowRef)
  | key (index : Nat) (key : List (List Byte))
  deriving DecidableEq, Repr

/-- One staged write of an item, in program order (R45, R47). -/
inductive StagedOp where
  | insert (table : Nat) (cols : List (Nat × List Byte))
  | update (table : Nat) (target : RowRef) (cols : List (Nat × List Byte))
  | endRow (table : Nat) (target : RowRef)
  | merge (table : Nat) (target : MergeTarget) (col : Nat) (op : MergeOp) (operand : Word64)
  deriving DecidableEq, Repr

/-- A Falcon-1024 signature within a result: where it lies, the signing slot and the message it signs (R66). -/
structure SigSpan where
  off : Nat
  len : Nat
  slot : Nat
  msg : List Byte
  deriving DecidableEq, Repr

/-- What an item has handed over when it ends: its staged writes, its result bytes and the signatures among them. The spec gives the
staging area no layout (Assumption 9). -/
structure ItemOutput where
  ops : List StagedOp
  result : List Byte
  sigs : List SigSpan
  deriving DecidableEq, Repr

/-- A submission queue entry as the driver writes it, all of its 64 bytes but OPC, and the data it places at DATA_ADDR (R409).
Reserved fields are carried raw, so that a malformed entry can be expressed. -/
structure Sqe where
  flags : Byte
  rsv3 : Byte
  seq : Word32
  orderKey : Word64
  declLen : Word32
  pipe : BitVec 16
  rsv22 : BitVec 16
  dataAddr : Word64
  args : List Byte
  data : List Byte
  deriving DecidableEq, Repr

/-- A column of an analytic result, as its 8-byte descriptor gives it (R190). -/
structure ResCol where
  typ : Nat
  width : Nat
  signed : Bool
  bytesLen : Nat
  deriving DecidableEq, Repr

/-- The word operations of an expression; arithmetic wraps modulo 2^64 with the results of R204, and a comparison gives 1 or 0 (R122). -/
inductive WordOp where
  | add | sub | mul | divS | divU | remU | and | or | xor | shl | shrU | shrS | eq | ltS | ltU
  deriving DecidableEq, Repr

/-- What a stage program computes, as a word, from the data of its item or job: constants, the row in hand, the message or the
argument block, ORDER_KEY, the cue, item values, a decoded field, a column of the row that a PROBE found, the pairs of a WINDOW, and
rows of earlier nodes. The spec gives stage programs as machine code and their parameters no layout (Assumption 9). -/
inductive Expr where
  | lit (v : Word64)
  | col (i : Nat)
  | msg (off len : Nat) (signed : Bool)
  | key
  | cue
  | val (i : Nat)
  | num (node k : Nat)
  | present (node k : Nat)
  | found
  | read (c : Nat)
  | pairs
  | pairSum
  | pairCue (i : Nat)
  | pairVal (i : Nat)
  | rows (node : Nat)
  | at_ (node i : Nat) (e : Expr)
  | op (o : WordOp) (a b : Expr)
  | ite (c a b : Expr)
  deriving DecidableEq, Repr

/-- A piece of a byte string: constants, message bytes, a word at a width, a column of the row in hand or of the row a PROBE found, a
column of a row of an earlier node, the data of a vector entry, what an ENCODE built, and what a SIGN signed. -/
inductive Piece where
  | lit (bs : List Byte)
  | msg (off len : Nat)
  | int (e : Expr) (len : Nat)
  | col (i : Nat)
  | read (c : Nat)
  | cell (node i c : Nat)
  | fld (node k : Nat)
  | built (node : Nat)
  | sig (node : Nat)
  deriving DecidableEq, Repr

/-- The joins (R122, R146). -/
inductive JoinKind where
  | inner | leftOuter | semi
  deriving DecidableEq, Repr

/-- The aggregate functions (R149). -/
inductive AggFn where
  | count | sum | min | max | avg
  deriving DecidableEq, Repr

/-- One aggregate: its function, its input column and its declared result type (R149). -/
structure Agg where
  fn : AggFn
  col : Nat
  res : ResCol
  deriving DecidableEq, Repr

/-- A lane term (R129): OP, A, B and the values of an IN. -/
structure LaneTerm where
  op : Nat
  a : Word64
  b : Word64
  set : List Word64
  deriving DecidableEq, Repr

/-- The lane terms of one INT column and the indices at which their truth table is 1 (R129, R130). -/
structure LaneTest where
  col : Nat
  terms : List LaneTerm
  combine : List Nat
  deriving DecidableEq, Repr

/-- A column that PROJECT gives: one of its input, or a computed word under a type (R122). -/
inductive ProjCol where
  | keep (i : Nat)
  | calc (c : ResCol) (e : Expr)
  deriving DecidableEq, Repr

/-- The row a WRITE or MERGE names: the one its input row's PROBE found, or a row of an earlier PROBE (R525). -/
inductive RowAsk where
  | here
  | probed (node i : Nat)
  deriving DecidableEq, Repr

/-- One plain write of a WRITE node, with the condition under which its program performs it (R45). -/
inductive WriteAsk where
  | insert (cond : Expr) (cols : List (Nat × List Piece))
  | update (cond : Expr) (row : RowAsk) (cols : List (Nat × List Piece))
  | endRow (cond : Expr) (row : RowAsk)
  deriving DecidableEq, Repr

/-- The target of a MERGE node: a row form or the key under its INDEX (R47). -/
inductive MergeAsk where
  | row (r : RowAsk)
  | key (vals : List (List Piece))
  deriving DecidableEq, Repr

/-- What a node of a pipeline does beyond its node entry (R166): its parameters and the effect of its stage program, which the spec gives no
layout (Assumption 9). A node whose plan is of another operator than its entry does nothing. `cascade` of a ROUTE are the result entries that
the members of a cascade gave (R303, R308). `fault` stands for one whose unit job ended
with a status that has no CQE code (R217, R510). -/
inductive NodePlan where
  | scan (cols : List Nat) (rowNo : Bool) (tests : List LaneTest)
  | filter (e : Expr)
  | project (cols : List ProjCol) (vals : List (Nat × Expr))
  | probe (all : Bool) (keys : List (List Piece))
  | join (kind : JoinKind) (left right : List Nat)
  | sort (keys : List (Nat × Bool))
  | aggregate (group : List Nat) (aggs : List Agg)
  | window (c : Nat)
  | route (handle : Nat) (keys : List (List Piece × List Piece)) (cascade : List (List Byte))
  | decode
  | encode (vec : Nat) (edits : List (Nat × Option (List Piece))) (outMax : Nat)
  | verify (msg sig : List Piece)
  | sign (msg : List Piece)
  | digest (msg : List Piece) (cust : List Byte) (len : Nat)
  | emit (cols : List ResCol) (bytes : List Piece)
  | write (ops : List WriteAsk)
  | merge (cond : Expr) (target : MergeAsk) (c : Nat) (e : Expr)
  | compress (kind : Fin 3) (level blockMax : Nat)
  | fault (status : Nat)
  deriving DecidableEq, Repr

/-- The plan of an analytic pipeline: its nodes' plans in node order, the nodes whose stream fills a scratch table that the image names as an
output, by index into TABLE_REFS. -/
structure JobPlan where
  nodes : List NodePlan
  outs : List (Nat × Nat)
  deriving DecidableEq, Repr

/-- How the item of an entry ends: the status it is given (R213), the details where its firmware supplies them (R217), and what its nodes do. -/
structure ItemFin where
  status : Nat
  info : List Byte
  plan : List NodePlan
  deriving DecidableEq, Repr

/-- Where an L2 error lies: a set and way (data or tag), or a green room byte; or a set and way with an error that SEC-DED corrects in place
(R237). -/
inductive EccSite where
  | line (set : Fin 4096) (way : Fin 16) (tag : Bool)
  | green (off : Nat)
  | corrected (set : Fin 4096) (way : Fin 16)
  deriving DecidableEq, Repr

/-- What a memory controller latches when it freezes (R265, R266). -/
structure FreezeReport where
  cause : BitVec 8
  addr : BitVec 48
  cmd : BitVec 32
  row : BitVec 18
  synd : List Word32
  beat : BitVec 5
  deriving DecidableEq, Repr


/-- What the remote windows give while a descriptor runs (R223, R374): the bytes a wing window answers for the source of a copy,
for the index table and for each element, and the byte of the destination at which a window was lost, if one was. -/
structure DmaRemote where
  data : List Byte
  index : List Byte
  elems : List (List Byte)
  lost : Option Nat
  deriving DecidableEq, Repr

/-- The parameters of the cue master that apply to every member of a company: PERIOD, STRETCH_MAX, ACT_CUES and COMMIT_RESERVE (R73). -/
structure MasterPar where
  period : BitVec 8
  stretch : BitVec 6
  act : BitVec 11
  reserve : BitVec 8
  deriving DecidableEq, Repr

/-- What a start or held instant takes from outside: the stretch of the cue that ends, in beats; which ranks each newly sealed job
reads, by seal position (R466); the (SQ, SEQ) of forwarded queries that the lost lead had completed (R187); the departed ranks
for which WING.DEAD_TIMEOUT has passed (R467); and, on a member that follows the cue master, the master's parameters (R73). -/
structure Instant where
  stretch : Nat
  reads : List (Nat × List (Fin 4))
  completed : List (Nat × Nat)
  dead : List (Fin 4)
  master : Option MasterPar
  deriving DecidableEq, Repr
/-- The widest passing window that a training sweep found on a lane of a controller, for a rank and kind (R259, R260). -/
structure LaneWindow where
  m : Fin 22
  rank : BitVec 4
  lane : BitVec 4
  kind : BitVec 3
  first : BitVec 7
  last : BitVec 7
  deriving DecidableEq, Repr

/-- What training finds at a boot: the windows swept, and the DDR5 channels whose cached values pass their check (R259–R261). -/
structure BootReport where
  windows : List LaneWindow
  cacheOk : List (Fin 16)
  deriving DecidableEq, Repr

/-- A sensor reading: a die sensor in °C, the 54 V input in mV, a rail's deviation from nominal in per mille, or a controller's DRAM in °C
(R493). -/
inductive SensorReading where
  | junction (sensor : BitVec 8) (degC : BitVec 8)
  | vin (mv : BitVec 16)
  | rail (r : Fin 8) (permille : Nat)
  | dram (m : Fin 22) (degC : BitVec 8)
  deriving DecidableEq, Repr

/-- The header fields of a wing frame that the link uses: MORE, ACK, and the credits it returns (R437). -/
structure FrameHead where
  more : Bool
  ack : Word32
  credVc : BitVec 3
  cred : BitVec 16
  deriving DecidableEq, Repr

/-- A section of a catch-up, in the order of R462: the cue of the snapshot, a pipeline image, a wrapped key, the parameter registers of the CUE
page by offset with the shard map, a table with its next row number, a row with its rings, a search array, an entry of the duplicate
window, and the end. The spec gives sections no layout (Assumption 27). -/
inductive CatchItem where
  | start (cue : Word64)
  | pipeline (image : List Byte)
  | key (wrapped : List Byte)
  | params (regs : List (Nat × Word32)) (shards : List Byte)
  | table (descriptor : List Byte) (nextRow : Nat)
  | row (table row : Nat) (cells : List (List Byte)) (rings : List (Nat × List (Nat × List Byte)))
  | cam (a : Fin 2) (mode : Nat) (entries : List (Nat × BitVec 160 × BitVec 160 × Word64))
  | dup (sq seq : Nat) (cqe result : List Byte)
  | done
  deriving DecidableEq, Repr


/-- The commands of the module, one constructor per row of the opcode table, in the table's order. -/
inductive Instr where
  /-- PERST_DEASSERT (R516): PERST# is deasserted with the 54 V input in range, which starts the boot from OFF. -/
  | perstDeassert
  /-- PERST_ASSERT (R473): PERST# is asserted, which takes the module to OFF and loses every state that R476 marks lost. -/
  | perstAssert
  /-- BOOT_COMPLETE (R474): Firmware has started, memory is trained and the blocks are initialised, so the module enters READY, or CURTAIN on a training failure. -/
  | bootComplete (r : BootReport)
  /-- SUPPLY_LOSS (R494): The 54 V input falls below 40 V or power is removed, which takes the module to OFF. -/
  | supplyLoss
  /-- THERMAL_TRIP (R493): The junction reaches 115 °C and the module removes power from every internal rail within 1 ms. -/
  | thermalTrip
  /-- SENSOR_WARNING (R493): A temperature, input or rail sensor enters or leaves its warning band, which sets or clears the warning flags and HOST_ALERT_N. -/
  | sensorWarning (x : SensorReading)
  /-- SENSOR_CURTAIN_LIMIT (R493): A junction, DRAM, input or rail limit holds for its stated time and the module drops the safety curtain with class 5 or 6. -/
  | sensorCurtainLimit (x : SensorReading)
  /-- WATCHDOG_EXPIRY (R485): The stage manager watchdog expires after 100 ms and the module drops the safety curtain with class 9. -/
  | watchdogExpiry
  /-- HOT_RESET (R475): An in-band hot reset or link disable resets the function and every block behind the HEP, and abandons the running cue. -/
  | hotReset
  /-- FLR (R430): A function-level reset destroys the queues, and the running cue commits with its completions discarded. -/
  | flr
  /-- MODULE_RESET (R475): A write of 0xA55E to MODCTL.MODULE_RESET.KEY resets every block behind the HEP except the stage manager, keys and flash; any other value sets BAD_KEY. -/
  | moduleReset (key : Word32)
  /-- PBOOK_VERIFY_DONE (R359): The prompt book verification that follows a hot or module reset ends with PASSED or FAILED. -/
  | pbookVerifyDone
  /-- D3HOT_ENTRY (R403): The function enters D3hot, so the queue engine fetches nothing and holds its completions while cues continue. -/
  | d3hotEntry
  /-- D0_RETURN (R403): The function returns to D0, which resumes fetching and releases the held completions in order. -/
  | d0Return
  /-- STANDBY_REQUEST (R482): A write of PWR.STANDBY.REQ = 1 starts standby entry if the module is quiet, and otherwise sets NOT_QUIET. -/
  | standbyRequest
  /-- STANDBY_ENTRY_DONE (R483): Entry completes: buffers have drained, the L2s are cleaned, the controllers are in self-refresh and the clocks are stopped. -/
  | standbyEntryDone
  /-- STANDBY_EXIT_REQUEST (R483): A write of STANDBY.REQ = 0, or a management wake, starts standby exit. -/
  | standbyExitRequest
  /-- STANDBY_EXIT_DONE (R483): Exit completes: the cores are reset and wait in TAKE, STANDBY reads 0 and MSTATE is restored. -/
  | standbyExitDone
  /-- SQ_DOORBELL (R406): A write to a queue's SQ doorbell makes the queue engine read SQ_PROD, fetch the new entries and write SQ_CONS. -/
  | sqDoorbell (q : Fin 1024)
  /-- CQ_DOORBELL (R406): A write to a queue's CQ doorbell makes the queue engine read CQ_CONS and write the held CQEs that now fit. -/
  | cqDoorbell (q : Fin 1024) (cons : Word32)
  /-- ENTRY_ARRIVAL (R30): The queue engine has fetched an SQE and its data and found it well formed, so the entry arrives into the admission buffer. -/
  | entryArrival (q : Fin 1024)
  /-- HEP_FREEZE (R425): An uncorrectable PCIe error or a link-down freezes the HEP in containment. -/
  | hepFreeze (linkDown : Bool) (aer : Word32)
  /-- CONTAIN_RELEASE (R427): A write of 1 to HEP.CONTAIN.RELEASE or to VSEC bit 31 releases the freeze, rereads the indices, writes the held CQEs and raises CONTAIN. -/
  | containRelease
  /-- CONTAIN_TIMEOUT (R428): A freeze outlasts CONTAIN_TIMEOUT, which raises TIMEOUT and makes a lead with a lockstep understudy yield. -/
  | containTimeout (us : Nat)
  /-- BAR0_BAD_SIZE_ACCESS (R395): A BAR0 access of a wrong size reads 0 or is discarded, and sets ACCESS_SIZE. -/
  | bar0BadSizeAccess (off : BitVec 25) (write : Bool)
  /-- INWIN_WRITE (R397): A host write to the inbound window reaches device memory, unless cues run, when it is discarded and counted. -/
  | inwinWrite (off : Nat) (data : List Byte)
  /-- INWIN_READ (R397): A host read of the inbound window is answered, or completes with Unsupported Request beyond the window. -/
  | inwinRead (off : Nat) (len : Nat)
  /-- AQ_ENABLE (R407): A write of QENG.AQ_CTL.EN = 1 enables the admin queue, taking SQ_PROD as SQ_CONS and writing CQ_PROD = 0. -/
  | aqEnable (log2Depth : BitVec 5)
  /-- JOURNAL_EXPORT_PART (R418): When the ring and buffer have room, the module writes the next part of an export block and its journal entry. -/
  | journalExportPart
  /-- CREATE_CQ (R408): Admin command that creates a completion queue and writes its CQ_PROD. -/
  | createCq (e : Sqe)
  /-- CREATE_SQ (R408): Admin command that creates a submission queue on an existing completion queue. -/
  | createSq (e : Sqe)
  /-- DELETE_SQ (R408): Admin command that deletes a submission queue at the next start instant, discarding its unsealed entries. -/
  | deleteSq (e : Sqe)
  /-- DELETE_CQ (R408): Admin command that deletes a completion queue or the journal queue. -/
  | deleteCq (e : Sqe)
  /-- CREATE_JOURNAL_Q (R418): Admin command that creates the journal queue and its export buffer. -/
  | createJournalQ (e : Sqe)
  /-- GET_FEATURE (R417): Admin command that returns a feature value. -/
  | getFeature (e : Sqe)
  /-- SET_FEATURE (R417): Admin command that sets ANALYTIC_POOL or JOURNAL_CODEC. -/
  | setFeature (e : Sqe)
  /-- LOAD_PIPELINE (R171): Admin command that checks a pipeline image, relocates it and runs the admission check before it takes effect. -/
  | loadPipeline (e : Sqe)
  /-- LOAD_PIPELINE_REPLACE (R173): LOAD_PIPELINE with REPLACE, which replaces a loaded pipeline at a single start instant. -/
  | loadPipelineReplace (e : Sqe)
  /-- UNLOAD_PIPELINE (R174): Admin command that removes a pipeline from the set under R36. -/
  | unloadPipeline (e : Sqe)
  /-- ATTACH_TABLE (R110): Admin command that attaches an empty table from a descriptor and reserves its memory. -/
  | attachTable (e : Sqe)
  /-- ATTACH_TABLE_REATTACH (R115): ATTACH_TABLE with REATTACH, which attaches a table that survived a hot reset once the chain is verified. -/
  | attachTableReattach (e : Sqe)
  /-- DETACH_TABLE (R114): Admin command that detaches a table under R36. -/
  | detachTable (e : Sqe)
  /-- TABLE_LOAD (R112): Admin command that checks a signed table image and loads it into an empty attached table. -/
  | tableLoad (e : Sqe)
  /-- SNAPSHOT_EXPORT (R416): Admin command that pins the last committed cue and writes a signed table image of it. -/
  | snapshotExport (e : Sqe)
  /-- CAM_LOAD (R315): Admin command that checks a search array image and applies a FULL or DELTA change. -/
  | camLoad (e : Sqe)
  /-- CAM_FULL_WRITE_DONE (R312): The array write of a FULL image completes, so the change is due at the next start instant. -/
  | camFullWriteDone (a : Fin 2)
  /-- START_CUES (R56): Admin command, or a write of CUE.CTL.EN = 1, that tests the parameters, repeats the admission check and starts cues. -/
  | startCues (e : Sqe)
  /-- HOLD_CUES (R63): Admin command, or a write of CUE.CTL.EN = 0, that begins a commanded hold at the next start instant. -/
  | holdCues (e : Sqe)
  /-- REHEARSE (R363): Admin command that checks and re-executes a stream of export blocks. -/
  | rehearse (e : Sqe) (runs : List (List ItemFin))
  /-- REHEARSE_RESUME (R363): REHEARSE with RESUME, which checks an ADMIN change against its record and continues. -/
  | rehearseResume (e : Sqe) (runs : List (List ItemFin))
  /-- REHEARSE_PREPARE (R362): REHEARSE with PREPARE, which sets the cue number to BASE_CUE. -/
  | rehearsePrepare (e : Sqe)
  /-- KEY_IMPORT (R335): Admin command that checks, unwraps and imports or erases a key slot. -/
  | keyImport (e : Sqe)
  /-- ATTEST (R347): Admin command that writes a signed attestation report. -/
  | attest (e : Sqe)
  /-- FW_DOWNLOAD (R342): Admin command that writes a firmware chunk into the inactive slot. -/
  | fwDownload (e : Sqe)
  /-- FW_ACTIVATE (R342): Admin command that verifies the inactive slot and makes it ACTIVE for the next reset. -/
  | fwActivate (e : Sqe)
  /-- FW_ACTIVATE_COMMIT_SVN (R342): FW_ACTIVATE with COMMIT_SVN, which raises the fused SVN to the running image's SVN. -/
  | fwActivateCommitSvn (e : Sqe)
  /-- TXN (R411): I/O entry that submits a transaction to a transaction pipeline. -/
  | txn (q : Fin 1024) (e : Sqe)
  /-- QUERY (R185): I/O entry that submits an analytic job. -/
  | query (q : Fin 1024) (e : Sqe)
  /-- QUERY_CANCEL (R188): I/O entry that cancels a WAITING or RUNNING analytic job when it is sealed. -/
  | queryCancel (q : Fin 1024) (e : Sqe)
  /-- SVC_SIGN (R348): I/O entry that asks for a Falcon-1024 signature. -/
  | svcSign (q : Fin 1024) (e : Sqe)
  /-- SVC_VERIFY (R348): I/O entry that asks for a signature verification. -/
  | svcVerify (q : Fin 1024) (e : Sqe)
  /-- SVC_DIGEST (R348): I/O entry that asks for a digest. -/
  | svcDigest (q : Fin 1024) (e : Sqe)
  /-- START_INSTANT (R57): The beat clock reaches a cue start instant: completions are released, queued changes applied, the stage set and the input set sealed. -/
  | startInstant (x : Instant)
  /-- HELD_INSTANT (R63): During a hold, every P beats, the beat-0 steps other than the seal are performed. -/
  | heldInstant (x : Instant)
  /-- COMMIT_POINT (R57): Beat P − Q of a cue is reached. -/
  | commitPoint
  /-- COMMIT_SWEEP (R65): At the later of the commit point and the end of foreground, the sweeper applies the writes, computes the digests and publishes the cue. -/
  | commitSweep (beats : Nat)
  /-- STRETCH_BOUND (R60): A cue reaches its maximum stretch with work or its digests incomplete. -/
  | stretchBound
  /-- ACT_SEAL_SIGNED (R354): The Larkspur unit completes an act seal and the export block is queued. -/
  | actSealSigned (u : Fin 8)
  /-- STRIKE_PASS_START (R102): A due strike pass starts once S_old has advanced. -/
  | strikePassStart
  /-- STRIKE_PASS_DONE (R102): A strike pass has reclaimed every dead version and raises PASS_DONE. -/
  | strikePassDone (beats : Word32)
  /-- ANALYTIC_JOB_START (R187): A WAITING job is granted workspace and a running slot, its scratch checks run, and its nodes start. -/
  | analyticJobStart (plan : JobPlan)
  /-- ANALYTIC_JOB_END (R187): A job's last node completes, or a node fails, and the job is ENDED awaiting release. -/
  | analyticJobEnd (id : Nat) (fault : Option Nat)
  /-- ADD (R204): Integer add, wrapping modulo 2^64. -/
  | add (w : CoreRef) (f : FmtA)
  /-- SUB (R204): Integer subtract. -/
  | sub (w : CoreRef) (f : FmtA)
  /-- AND (R203): Bitwise AND. -/
  | and (w : CoreRef) (f : FmtA)
  /-- OR (R203): Bitwise OR. -/
  | or (w : CoreRef) (f : FmtA)
  /-- XOR (R203): Bitwise XOR. -/
  | xor (w : CoreRef) (f : FmtA)
  /-- ANDN (R203): ra AND NOT rb. -/
  | andn (w : CoreRef) (f : FmtA)
  /-- SLL (R203): Shift left logical by register. -/
  | sll (w : CoreRef) (f : FmtA)
  /-- SRL (R203): Shift right logical by register. -/
  | srl (w : CoreRef) (f : FmtA)
  /-- SRA (R203): Shift right arithmetic by register. -/
  | sra (w : CoreRef) (f : FmtA)
  /-- ROTL (R203): Rotate left by register. -/
  | rotl (w : CoreRef) (f : FmtA)
  /-- SLT (R203): Set if less than, signed. -/
  | slt (w : CoreRef) (f : FmtA)
  /-- SLTU (R203): Set if less than, unsigned. -/
  | sltu (w : CoreRef) (f : FmtA)
  /-- MIN (R203): Signed minimum. -/
  | min (w : CoreRef) (f : FmtA)
  /-- MINU (R203): Unsigned minimum. -/
  | minu (w : CoreRef) (f : FmtA)
  /-- MAX (R203): Signed maximum. -/
  | max (w : CoreRef) (f : FmtA)
  /-- MAXU (R203): Unsigned maximum. -/
  | maxu (w : CoreRef) (f : FmtA)
  /-- CLZ (R203): Count leading zeros. -/
  | clz (w : CoreRef) (f : FmtA)
  /-- CTZ (R203): Count trailing zeros. -/
  | ctz (w : CoreRef) (f : FmtA)
  /-- POPC (R203): Population count. -/
  | popc (w : CoreRef) (f : FmtA)
  /-- BSWAP (R203): Byte swap. -/
  | bswap (w : CoreRef) (f : FmtA)
  /-- CRC32C_B (R204): CRC-32C remainder update with 1 byte. -/
  | crc32cB (w : CoreRef) (f : FmtA)
  /-- CRC32C_H (R204): CRC-32C remainder update with 2 bytes. -/
  | crc32cH (w : CoreRef) (f : FmtA)
  /-- CRC32C_W (R204): CRC-32C remainder update with 4 bytes. -/
  | crc32cW (w : CoreRef) (f : FmtA)
  /-- CRC32C_D (R204): CRC-32C remainder update with 8 bytes. -/
  | crc32cD (w : CoreRef) (f : FmtA)
  /-- MUL (R203): Low 64 bits of the product. -/
  | mul (w : CoreRef) (f : FmtA)
  /-- MULH (R203): High bits of the signed product. -/
  | mulh (w : CoreRef) (f : FmtA)
  /-- MULHU (R203): High bits of the unsigned product. -/
  | mulhu (w : CoreRef) (f : FmtA)
  /-- DIV (R204): Signed divide with defined results for 0 and overflow. -/
  | div (w : CoreRef) (f : FmtA)
  /-- DIVU (R204): Unsigned divide. -/
  | divu (w : CoreRef) (f : FmtA)
  /-- REM (R204): Signed remainder. -/
  | rem (w : CoreRef) (f : FmtA)
  /-- REMU (R204): Unsigned remainder. -/
  | remu (w : CoreRef) (f : FmtA)
  /-- JALR (R203): Indirect jump and link. -/
  | jalr (w : CoreRef) (f : FmtA)
  /-- ADDI (R203): Add sign-extended immediate. -/
  | addi (w : CoreRef) (f : FmtI)
  /-- ANDI (R203): AND zero-extended immediate. -/
  | andi (w : CoreRef) (f : FmtI)
  /-- ORI (R203): OR zero-extended immediate. -/
  | ori (w : CoreRef) (f : FmtI)
  /-- XORI (R203): XOR zero-extended immediate. -/
  | xori (w : CoreRef) (f : FmtI)
  /-- SLTI (R203): Set if less than immediate, signed. -/
  | slti (w : CoreRef) (f : FmtI)
  /-- SLTIU (R203): Set if less than immediate, unsigned. -/
  | sltiu (w : CoreRef) (f : FmtI)
  /-- SLL_IMM (R203): Shift left logical by immediate. -/
  | sllImm (w : CoreRef) (f : FmtSh)
  /-- SRL_IMM (R203): Shift right logical by immediate. -/
  | srlImm (w : CoreRef) (f : FmtSh)
  /-- SRA_IMM (R203): Shift right arithmetic by immediate. -/
  | sraImm (w : CoreRef) (f : FmtSh)
  /-- ROTL_IMM (R203): Rotate left by immediate. -/
  | rotlImm (w : CoreRef) (f : FmtSh)
  /-- MOVZ (R203): Load a shifted 16-bit constant, zeroing the rest. -/
  | movz (w : CoreRef) (f : FmtI)
  /-- MOVK (R203): Insert a 16-bit constant, keeping the rest. -/
  | movk (w : CoreRef) (f : FmtI)
  /-- LDB (R205): Load byte, sign-extended. -/
  | ldb (w : CoreRef) (f : FmtM) (l1Parity : Bool)
  /-- LDBU (R205): Load byte, zero-extended. -/
  | ldbu (w : CoreRef) (f : FmtM) (l1Parity : Bool)
  /-- LDH (R205): Load halfword, sign-extended. -/
  | ldh (w : CoreRef) (f : FmtM) (l1Parity : Bool)
  /-- LDHU (R205): Load halfword, zero-extended. -/
  | ldhu (w : CoreRef) (f : FmtM) (l1Parity : Bool)
  /-- LDW (R205): Load word, sign-extended. -/
  | ldw (w : CoreRef) (f : FmtM) (l1Parity : Bool)
  /-- LDWU (R205): Load word, zero-extended. -/
  | ldwu (w : CoreRef) (f : FmtM) (l1Parity : Bool)
  /-- LDD (R205): Load doubleword. -/
  | ldd (w : CoreRef) (f : FmtM) (l1Parity : Bool)
  /-- LDRES (R226): Load doubleword and open a reservation on its granule. -/
  | ldres (w : CoreRef) (f : FmtM) (l1Parity : Bool)
  /-- STB (R220): Store byte through the store buffer. -/
  | stb (w : CoreRef) (f : FmtM)
  /-- STH (R220): Store halfword. -/
  | sth (w : CoreRef) (f : FmtM)
  /-- STW (R220): Store word. -/
  | stw (w : CoreRef) (f : FmtM)
  /-- STD (R220): Store doubleword. -/
  | std (w : CoreRef) (f : FmtM)
  /-- STCOND (R226): Store only if the reservation is held, and report success. -/
  | stcond (w : CoreRef) (f : FmtM)
  /-- PF_L1 (R239): Prefetch hint into L1 and L2. -/
  | pfL1 (w : CoreRef) (f : FmtM)
  /-- PF_L2 (R239): Prefetch hint into L2 only. -/
  | pfL2 (w : CoreRef) (f : FmtM)
  /-- CLEAN (R240): Firmware instruction that writes back a dirty line. -/
  | clean (w : CoreRef) (f : FmtM)
  /-- INVAL (R240): Firmware instruction that invalidates a line, discarding dirty data. -/
  | inval (w : CoreRef) (f : FmtM)
  /-- CLEAN_INVAL (R240): Firmware instruction that writes back a line and invalidates it. -/
  | cleanInval (w : CoreRef) (f : FmtM)
  /-- BEQ (R203): Branch if equal. -/
  | beq (w : CoreRef) (f : FmtB)
  /-- BNE (R203): Branch if not equal. -/
  | bne (w : CoreRef) (f : FmtB)
  /-- BLT (R203): Branch if less than, signed. -/
  | blt (w : CoreRef) (f : FmtB)
  /-- BGE (R203): Branch if greater or equal, signed. -/
  | bge (w : CoreRef) (f : FmtB)
  /-- BLTU (R203): Branch if less than, unsigned. -/
  | bltu (w : CoreRef) (f : FmtB)
  /-- BGEU (R203): Branch if greater or equal, unsigned. -/
  | bgeu (w : CoreRef) (f : FmtB)
  /-- JAL (R203): Call with link register. -/
  | jal (w : CoreRef) (f : FmtB)
  /-- MFS (R198): Read a system register. -/
  | mfs (w : CoreRef) (f : FmtS)
  /-- MTS (R198): Write a system register. -/
  | mts (w : CoreRef) (f : FmtS)
  /-- TAKE (R212): Complete older accesses, then wait for the dispatcher to deliver a work item or task event. -/
  | take (w : CoreRef) (f : FmtS)
  /-- DONE (R213): Wait for the item's unit jobs, then end the item with a status. -/
  | done (w : CoreRef) (f : FmtS) (plan : List NodePlan)
  /-- BAR_S (R225): Store barrier. -/
  | barS (w : CoreRef) (f : FmtS)
  /-- BAR_A (R225): Full barrier over loads and stores. -/
  | barA (w : CoreRef) (f : FmtS)
  /-- BAR_IO (R225): Full barrier that also brackets register-page accesses. -/
  | barIo (w : CoreRef) (f : FmtS)
  /-- RET (R196): Return from handler or firmware mode to the EPC in the saved mode. -/
  | ret (w : CoreRef) (f : FmtS)
  /-- TRAP (R215): Raise a TRAP exception for a firmware library service. -/
  | trap (w : CoreRef) (f : FmtS)
  /-- VADD (R207): Vector add. -/
  | vadd (w : CoreRef) (f : FmtV) (sc : Bool)
  /-- VSUB (R207): Vector subtract. -/
  | vsub (w : CoreRef) (f : FmtV) (sc : Bool)
  /-- VMUL (R207): Vector multiply, low bits. -/
  | vmul (w : CoreRef) (f : FmtV) (sc : Bool)
  /-- VMULH (R207): Vector multiply, signed high bits. -/
  | vmulh (w : CoreRef) (f : FmtV) (sc : Bool)
  /-- VMULHU (R207): Vector multiply, unsigned high bits. -/
  | vmulhu (w : CoreRef) (f : FmtV) (sc : Bool)
  /-- VMIN (R207): Vector signed minimum. -/
  | vmin (w : CoreRef) (f : FmtV) (sc : Bool)
  /-- VMINU (R207): Vector unsigned minimum. -/
  | vminu (w : CoreRef) (f : FmtV) (sc : Bool)
  /-- VMAX (R207): Vector signed maximum. -/
  | vmax (w : CoreRef) (f : FmtV) (sc : Bool)
  /-- VMAXU (R207): Vector unsigned maximum. -/
  | vmaxu (w : CoreRef) (f : FmtV) (sc : Bool)
  /-- VAND (R207): Vector AND. -/
  | vand (w : CoreRef) (f : FmtV) (sc : Bool)
  /-- VOR (R207): Vector OR. -/
  | vor (w : CoreRef) (f : FmtV) (sc : Bool)
  /-- VXOR (R207): Vector XOR. -/
  | vxor (w : CoreRef) (f : FmtV) (sc : Bool)
  /-- VANDN (R207): Vector AND NOT. -/
  | vandn (w : CoreRef) (f : FmtV) (sc : Bool)
  /-- VSLL (R207): Vector shift left logical. -/
  | vsll (w : CoreRef) (f : FmtV) (sc : Bool)
  /-- VSRL (R207): Vector shift right logical. -/
  | vsrl (w : CoreRef) (f : FmtV) (sc : Bool)
  /-- VSRA (R207): Vector shift right arithmetic. -/
  | vsra (w : CoreRef) (f : FmtV) (sc : Bool)
  /-- VROTL (R207): Vector rotate left. -/
  | vrotl (w : CoreRef) (f : FmtV) (sc : Bool)
  /-- VADDSU (R207): Vector add, unsigned saturating. -/
  | vaddsu (w : CoreRef) (f : FmtV) (sc : Bool)
  /-- VSUBSU (R207): Vector subtract, unsigned saturating. -/
  | vsubsu (w : CoreRef) (f : FmtV) (sc : Bool)
  /-- VADDS (R207): Vector add, signed saturating. -/
  | vadds (w : CoreRef) (f : FmtV) (sc : Bool)
  /-- VSUBS (R207): Vector subtract, signed saturating. -/
  | vsubs (w : CoreRef) (f : FmtV) (sc : Bool)
  /-- VCMP_EQ (R207): Vector compare equal into a mask. -/
  | vcmpEq (w : CoreRef) (f : FmtV) (sc : Bool)
  /-- VCMP_NE (R207): Vector compare not equal. -/
  | vcmpNe (w : CoreRef) (f : FmtV) (sc : Bool)
  /-- VCMP_LT (R207): Vector compare less than, signed. -/
  | vcmpLt (w : CoreRef) (f : FmtV) (sc : Bool)
  /-- VCMP_LTU (R207): Vector compare less than, unsigned. -/
  | vcmpLtu (w : CoreRef) (f : FmtV) (sc : Bool)
  /-- VCMP_LE (R207): Vector compare less or equal, signed. -/
  | vcmpLe (w : CoreRef) (f : FmtV) (sc : Bool)
  /-- VCMP_LEU (R207): Vector compare less or equal, unsigned. -/
  | vcmpLeu (w : CoreRef) (f : FmtV) (sc : Bool)
  /-- VCMP_GT (R207): Vector compare greater than, signed. -/
  | vcmpGt (w : CoreRef) (f : FmtV) (sc : Bool)
  /-- VCMP_GTU (R207): Vector compare greater than, unsigned. -/
  | vcmpGtu (w : CoreRef) (f : FmtV) (sc : Bool)
  /-- VCMP_GE (R207): Vector compare greater or equal, signed. -/
  | vcmpGe (w : CoreRef) (f : FmtV) (sc : Bool)
  /-- VCMP_GEU (R207): Vector compare greater or equal, unsigned. -/
  | vcmpGeu (w : CoreRef) (f : FmtV) (sc : Bool)
  /-- VCMP_TEST (R207): Vector test of (va AND vb) ≠ 0. -/
  | vcmpTest (w : CoreRef) (f : FmtV) (sc : Bool)
  /-- MAND (R207): Mask AND. -/
  | mand (w : CoreRef) (f : FmtV)
  /-- MOR (R207): Mask OR. -/
  | mor (w : CoreRef) (f : FmtV)
  /-- MXOR (R207): Mask XOR. -/
  | mxor (w : CoreRef) (f : FmtV)
  /-- MANDN (R207): Mask AND NOT. -/
  | mandn (w : CoreRef) (f : FmtV)
  /-- MNOT (R207): Mask NOT. -/
  | mnot (w : CoreRef) (f : FmtV)
  /-- MSET (R207): Set mask bits below L. -/
  | mset (w : CoreRef) (f : FmtV)
  /-- MCLR (R207): Clear mask bits. -/
  | mclr (w : CoreRef) (f : FmtV)
  /-- MPOP (R207): Count the set mask bits below L. -/
  | mpop (w : CoreRef) (f : FmtV)
  /-- MFIRST (R207): Lowest set mask bit below L. -/
  | mfirst (w : CoreRef) (f : FmtV)
  /-- VSEL (R207): Select elements by a mask. -/
  | vsel (w : CoreRef) (f : FmtV)
  /-- VSETVL (R207): Set the active vector length. -/
  | vsetvl (w : CoreRef) (f : FmtV)
  /-- VSPLAT (R207): Broadcast a scalar to the elements. -/
  | vsplat (w : CoreRef) (f : FmtV)
  /-- VEXT (R207): Extract one element to a scalar. -/
  | vext (w : CoreRef) (f : FmtV)
  /-- VINS (R207): Insert a scalar into one element. -/
  | vins (w : CoreRef) (f : FmtV)
  /-- VMV (R207): Vector move. -/
  | vmv (w : CoreRef) (f : FmtV)
  /-- VIOTA (R207): Write each element's index. -/
  | viota (w : CoreRef) (f : FmtV)
  /-- VSLIDEUP (R207): Slide elements up. -/
  | vslideup (w : CoreRef) (f : FmtV)
  /-- VSLIDEDN (R207): Slide elements down. -/
  | vslidedn (w : CoreRef) (f : FmtV)
  /-- VTBL (R208): Table lookup in 1, 2 or 4 registers. -/
  | vtbl (w : CoreRef) (f : FmtV) (n : Fin 3) (iw16 : Bool)
  /-- VTBL2 (R209): Two-level table lookup. -/
  | vtbl2 (w : CoreRef) (f : FmtV) (t : Fin 3)
  /-- VLD (R207): Contiguous vector load. -/
  | vld (w : CoreRef) (f : FmtVL)
  /-- VST (R207): Contiguous vector store. -/
  | vst (w : CoreRef) (f : FmtV)
  /-- VLDS (R207): Strided vector load. -/
  | vlds (w : CoreRef) (f : FmtVL)
  /-- VSTS (R207): Strided vector store. -/
  | vsts (w : CoreRef) (f : FmtV)
  /-- VGATHER_W (R210): Gather with 32-bit offsets. -/
  | vgatherW (w : CoreRef) (f : FmtVL)
  /-- VGATHER_D (R210): Gather with 64-bit offsets. -/
  | vgatherD (w : CoreRef) (f : FmtVL)
  /-- VSCATTER_W (R210): Scatter with 32-bit offsets. -/
  | vscatterW (w : CoreRef) (f : FmtV)
  /-- VSCATTER_D (R210): Scatter with 64-bit offsets. -/
  | vscatterD (w : CoreRef) (f : FmtV)
  /-- VLDM (R207): Load a mask register from 32 bytes. -/
  | vldm (w : CoreRef) (f : FmtVL)
  /-- VSTM (R207): Store a mask register to 32 bytes. -/
  | vstm (w : CoreRef) (f : FmtV)
  /-- VCOMPRESS (R207): Pack the active elements to the front. -/
  | vcompress (w : CoreRef) (f : FmtV)
  /-- VEXPAND (R207): Spread consecutive elements to the active positions. -/
  | vexpand (w : CoreRef) (f : FmtV)
  /-- VREDADD (R211): Reduce by wrapping add. -/
  | vredadd (w : CoreRef) (f : FmtV)
  /-- VREDADDS (R211): Reduce by signed saturating add. -/
  | vredadds (w : CoreRef) (f : FmtV)
  /-- VREDADDSU (R211): Reduce by unsigned saturating add. -/
  | vredaddsu (w : CoreRef) (f : FmtV)
  /-- VREDMIN (R211): Reduce by signed minimum. -/
  | vredmin (w : CoreRef) (f : FmtV)
  /-- VREDMINU (R211): Reduce by unsigned minimum. -/
  | vredminu (w : CoreRef) (f : FmtV)
  /-- VREDMAX (R211): Reduce by signed maximum. -/
  | vredmax (w : CoreRef) (f : FmtV)
  /-- VREDMAXU (R211): Reduce by unsigned maximum. -/
  | vredmaxu (w : CoreRef) (f : FmtV)
  /-- VREDAND (R211): Reduce by AND. -/
  | vredand (w : CoreRef) (f : FmtV)
  /-- VREDOR (R211): Reduce by OR. -/
  | vredor (w : CoreRef) (f : FmtV)
  /-- VREDXOR (R211): Reduce by XOR. -/
  | vredxor (w : CoreRef) (f : FmtV)
  /-- INTERRUPT_ACCEPT (R290): A core accepts a CIC offer at an instruction boundary or in TAKE and enters its vector or the spurious vector. -/
  | interruptAccept (c : Fin 12) (source : Fin 63) (cores : List (Fin 16))
  /-- STORE_ACCEPTED (R220): The cluster fabric accepts the oldest store buffer entry, which becomes visible. -/
  | storeAccepted (w : CoreRef)
  /-- REMOTE_STORE_LOST (R223): A remote store receives an error acknowledgment, is dropped, and sets REMOTE_LOST. -/
  | remoteStoreLost (w : CoreRef)
  /-- CLU_SOFT_RESET (R232): CLU SOFT_RESET resets all 16 cores of the cluster. -/
  | cluSoftReset (c : Fin 12)
  /-- CLU_CORE_RESET (R232): A write to CLU.CORE_RESET resets the named cores. -/
  | cluCoreReset (c : Fin 12) (cores : BitVec 16)
  /-- CORE_SOFT_RESET (R234): CORE SOFT_RESET resets that core. -/
  | coreSoftReset (w : CoreRef)
  /-- CLU_ENABLE (R232): A write of CLU.CTL.EN releases or holds the cluster's cores in reset. -/
  | cluEnable (c : Fin 12) (en : Bool)
  /-- CLU_MODE_WRITE (R249): A change of CLU.MODE, where SERVICE clears LOCK.WAYS. -/
  | cluModeWrite (c : Fin 12) (mode : BitVec 4)
  /-- DISP_POST (R276): An 8-byte store to DISP.POST copies a background item and writes POST_STATUS. -/
  | dispPost (c : Fin 12) (addr : BitVec 64)
  /-- DISP_SIGNAL (R277): An 8-byte store to DISP.SIGNAL ORs flag bits into a task. -/
  | dispSignal (c : Fin 12) (bits : BitVec 32) (task : BitVec 32)
  /-- DISP_DELAY (R281): An 8-byte store to DISP.DELAY creates a beat or cue delay entry. -/
  | dispDelay (c : Fin 12) (bits : BitVec 32) (hi : BitVec 32)
  /-- DELAY_EXPIRY (R281): A delay entry expires and sets its task's flags. -/
  | delayExpiry (c : Fin 12) (cueList : Bool)
  /-- TASK_ENABLE (R280): A write of TASKt_CTL.EN enables or disables a task. -/
  | taskEnable (c : Fin 12) (t : Fin 64) (ctl : BitVec 32)
  /-- TASK_MASK_WRITE (R280): A write of TASKt_MASK reruns the match test. -/
  | taskMaskWrite (c : Fin 12) (t : Fin 64) (bits : BitVec 32)
  /-- TASK_FLAGS_CLEAR (R280): A W1C write to TASKt_FLAGS clears flag bits. -/
  | taskFlagsClear (c : Fin 12) (t : Fin 64) (bits : BitVec 32)
  /-- DISPATCH_DELIVER (R283): The dispatcher delivers the first permitted record to a core waiting in TAKE. -/
  | dispatchDeliver (c : Fin 12)
  /-- CIC_SOURCE_EVENT (R288): An edge or level source becomes pending and is offered to eligible cores. -/
  | cicSourceEvent (c : Fin 12) (source : Fin 63)
  /-- SWI_RAISE (R288): A write to CIC.SWI.RAISE raises software sources. -/
  | swiRaise (c : Fin 12) (bits : BitVec 32)
  /-- MODERATION_EXPIRY (R291): A source's moderation interval ends and it may be offered again. -/
  | moderationExpiry (c : Fin 12) (source : Fin 63)
  /-- CIC_SOFT_RESET (R291): CIC SOFT_RESET clears edge-pending bits, moderation and counters. -/
  | cicSoftReset (c : Fin 12)
  /-- SIDEBAND_EDGE (R294): A filtered ALERT_N or PRESENT_N change latches a router input. -/
  | sidebandEdge (port : Fin 4) (present : Bool) (level : Bool) (cycles : Nat)
  /-- IRTR_SOFT_RESET (R294): IRTR SOFT_RESET clears the latched external inputs. -/
  | irtrSoftReset
  /-- SCAN_SUBMIT (R134): An 8-byte store to SCAN.SUBMIT copies a descriptor into the FIFO, or writes SUBMIT_FULL. -/
  | scanSubmit (m : Fin 22) (wr : Writer) (addr : BitVec 64)
  /-- SCAN_JOB_START (R127): A scan lane starts its next queued job and captures the page list. -/
  | scanJobStart (m : Fin 22)
  /-- SCAN_JOB_DONE (R132): A scan job finishes its pages and writes its done block. -/
  | scanJobDone (m : Fin 22)
  /-- SCAN_ABORT (R133): SCAN ABORT ends the running job with ABORTED. -/
  | scanAbort (m : Fin 22) (pages : Nat)
  /-- SCAN_SOFT_RESET (R133): SCAN SOFT_RESET ends every job with ABORTED and clears counters. -/
  | scanSoftReset (m : Fin 22) (pages : Nat)
  /-- PROBE_SUBMIT_FG (R143): A store to SUBMIT_FG queues a foreground probe job. -/
  | probeSubmitFg (l : Fin 6) (wr : Writer) (addr : BitVec 64)
  /-- PROBE_SUBMIT_BG (R143): A store to SUBMIT_BG queues a background probe job. -/
  | probeSubmitBg (l : Fin 6) (wr : Writer) (addr : BitVec 64)
  /-- PROBE_JOB_START (R140): A probe lane starts a job, foreground before background. -/
  | probeJobStart (l : Fin 6)
  /-- PROBE_JOB_DONE (R142): A probe job writes its results and done block. -/
  | probeJobDone (l : Fin 6)
  /-- PROBE_ABORT (R133): PROBE ABORT ends the running job. -/
  | probeAbort (l : Fin 6) (keys : Nat)
  /-- PROBE_SOFT_RESET (R133): PROBE SOFT_RESET ends the jobs of both FIFOs with ABORTED. -/
  | probeSoftReset (l : Fin 6) (keys : Nat)
  /-- FCODEC_SUBMIT (R134): A store to FCODEC.SUBMIT queues a codec job. -/
  | fcodecSubmit (c : Fin 12) (wr : Writer) (addr : BitVec 64)
  /-- FCODEC_WALK (R150): The codec walks a message to find where it ends. -/
  | fcodecWalk (c : Fin 12)
  /-- FCODEC_PARSE (R156): The codec parses a message into a field vector. -/
  | fcodecParse (c : Fin 12)
  /-- FCODEC_BUILD (R159): The codec builds a message from a field vector. -/
  | fcodecBuild (c : Fin 12)
  /-- FCODEC_JOB_DONE (R158): A codec job writes its done block. -/
  | fcodecJobDone (c : Fin 12)
  /-- FCODEC_ABORT (R133): FCODEC ABORT ends the running job. -/
  | fcodecAbort (c : Fin 12)
  /-- FCODEC_SOFT_RESET (R133): FCODEC SOFT_RESET ends jobs with ABORTED and clears counters. -/
  | fcodecSoftReset (c : Fin 12)
  /-- CAM_SUBMIT (R302): A store to CAM.SUBMIT queues a search job. -/
  | camSubmit (a : Fin 2) (wr : Writer) (addr : BitVec 64)
  /-- CAM_SEARCH (R300): An array runs one search and returns the lowest matching index. -/
  | camSearch (a : Fin 2)
  /-- CAM_JOB_DONE (R305): A search job writes its done block. -/
  | camJobDone (a : Fin 2)
  /-- CAM_DIAG_SEARCH (R316): A write of DIAG_CTL.GO runs one local diagnostic search. -/
  | camDiagSearch (a : Fin 2) (window : BitVec 17)
  /-- CAM_ABORT (R305): CAM ABORT ends the running job. -/
  | camAbort (a : Fin 2)
  /-- CAM_SOFT_RESET (R305): CAM SOFT_RESET ends jobs with ABORTED and leaves the contents. -/
  | camSoftReset (a : Fin 2)
  /-- CASCADE_SEARCH_LOST (R310): Rank 0 lacks a MATCH bit or result frame after DEAD_TIMEOUT, so the job ends with CASCADE_LOST. -/
  | cascadeSearchLost (issuer : Fin 4) (num : Fin 2048)
  /-- DIG_SUBMIT (R322): A store to DIG.SUBMIT places a digest job in a slot, preempts a context, or queues the job. -/
  | digSubmit (u : Fin 24) (wr : Writer) (addr : BitVec 64)
  /-- DIGEST_ONESHOT (R320): The unit digests a whole message. -/
  | digestOneshot (u : Fin 24) (slot : Fin 4)
  /-- DIGEST_START (R321): The unit absorbs the first part of a message and saves the context. -/
  | digestStart (u : Fin 24) (slot : Fin 4)
  /-- DIGEST_CONTINUE (R321): The unit restores a context and absorbs more input. -/
  | digestContinue (u : Fin 24) (slot : Fin 4)
  /-- DIGEST_FINISH (R321): The unit restores a context and finalizes the digest. -/
  | digestFinish (u : Fin 24) (slot : Fin 4)
  /-- DIG_JOB_DONE (R325): A digest job writes its done block and its slot is reassigned. -/
  | digJobDone (u : Fin 24) (slot : Fin 4)
  /-- DIG_RESULT_READ (R323): A read of RESULT before finalization returns 0 and sets EARLY_READ. -/
  | digResultRead (u : Fin 24) (n : Fin 16)
  /-- DIG_ABORT (R325): DIG ABORT ends the jobs in the slots. -/
  | digAbort (u : Fin 24)
  /-- DIG_SOFT_RESET (R325): DIG SOFT_RESET ends every queued, running and suspended job. -/
  | digSoftReset (u : Fin 24)
  /-- LSU_SUBMIT (R328): A store to an LSU SUBMIT places a request in the module sign or verify queue. -/
  | lsuSubmit (u : Fin 8) (wr : Writer) (addr : BitVec 64)
  /-- LARKSPUR_SIGN (R327): A unit signs a message with Falcon-1024 and checks its own signature. -/
  | larkspurSign (u : Fin 8)
  /-- LARKSPUR_VERIFY (R327): A verify lane checks a Falcon-1024 signature. -/
  | larkspurVerify (u : Fin 8)
  /-- LSU_JOB_DONE (R329): A Larkspur request writes its done block. -/
  | lsuJobDone (u : Fin 8) (verify : Bool)
  /-- LSU_SOFT_RESET (R329): LSU SOFT_RESET ends this unit's running requests. -/
  | lsuSoftReset (u : Fin 8)
  /-- DMA_KICK (R367): A write of CHn_CTL.KICK makes an IDLE or STOPPED channel READY. -/
  | dmaKick (e : Fin 8) (n : Fin 32)
  /-- DMA_CH_ENABLE (R367): A write of CHn_CTL.EN = 1 makes an OFF channel READY. -/
  | dmaChEnable (e : Fin 8) (n : Fin 32) (ctl : BitVec 32)
  /-- DMA_CH_DISABLE (R377): A write of CHn_CTL.EN = 0 stops the channel at once. -/
  | dmaChDisable (e : Fin 8) (n : Fin 32) (ctl : BitVec 32)
  /-- DMA_BASE_WRITE (R366): A write of CHn_BASE_LO sets HEAD to 0. -/
  | dmaBaseWrite (e : Fin 8) (n : Fin 32) (val : BitVec 32)
  /-- DMA_COPY (R372): The engine runs a copy descriptor. -/
  | dmaCopy (e : Fin 8) (rem : DmaRemote)
  /-- DMA_INDEXED_COPY (R373): The engine runs an indexed gather descriptor. -/
  | dmaIndexedCopy (e : Fin 8) (rem : DmaRemote)
  /-- DMA_WRITE_BACK (R375): Once the data writes are accepted, the engine writes the status and clears OWN. -/
  | dmaWriteBack (e : Fin 8)
  /-- DMA_SOFT_RESET (R377): DMA SOFT_RESET stops every channel and clears counters. -/
  | dmaSoftReset (e : Fin 8)
  /-- CMP_SUBMIT (R380): A store to CMP.SUBMIT queues a compression job. -/
  | cmpSubmit (k : Fin 4) (wr : Writer) (addr : BitVec 64)
  /-- CMP_SUBMIT_SM (R380): A stage manager store to SUBMIT_SM queues a priority job; other agents get SM_ONLY. -/
  | cmpSubmitSm (k : Fin 4) (wr : Writer) (addr : BitVec 64)
  /-- CMP_COMPRESS (R385): The engine compresses input into blocks. -/
  | cmpCompress (k : Fin 4) (taken : Nat) (rem : DmaRemote)
  /-- CMP_DECOMPRESS (R387): The engine checks and decodes blocks. -/
  | cmpDecompress (k : Fin 4) (rem : DmaRemote)
  /-- CMP_JOB_DONE (R387): A compression job writes its done block. -/
  | cmpJobDone (k : Fin 4)
  /-- CMP_FLUSH (R389): A write of CMP.CTL.FLUSH closes the current block of the running job. -/
  | cmpFlush (k : Fin 4) (wing : List Byte)
  /-- CMP_ABORT (R387): CMP ABORT ends the running job. -/
  | cmpAbort (k : Fin 4)
  /-- CMP_SOFT_RESET (R387): CMP SOFT_RESET ends the jobs of both FIFOs. -/
  | cmpSoftReset (k : Fin 4)
  /-- GREEN_WAYS_WRITE (R246): A write of L2.GREEN.WAYS starts a green room conversion, or is refused. -/
  | greenWaysWrite (c : Fin 12) (val : BitVec 32)
  /-- CONVERT_DONE (R247): The conversion completes and clears BUSY. -/
  | convertDone (c : Fin 12)
  /-- L2_MAINT_CLEAN (R240): L2.MAINT with OP CLEAN and GO cleans a set and way, an address, or all cache ways. -/
  | l2MaintClean (c : Fin 12) (scope : BitVec 2) (way : BitVec 4) (set : BitVec 12)
  /-- L2_MAINT_INVAL (R240): L2.MAINT with OP INVAL invalidates lines. -/
  | l2MaintInval (c : Fin 12) (scope : BitVec 2) (way : BitVec 4) (set : BitVec 12)
  /-- L2_MAINT_CLEAN_INVAL (R240): L2.MAINT with OP CLEAN_INVAL writes back and invalidates lines. -/
  | l2MaintCleanInval (c : Fin 12) (scope : BitVec 2) (way : BitVec 4) (set : BitVec 12)
  /-- MAINT_DONE (R241): A maintenance operation completes and raises MAINT_DONE. -/
  | maintDone (c : Fin 12)
  /-- L2_PRELOAD (R248): A write of PRELOAD.GO fetches lines into a named way. -/
  | l2Preload (c : Fin 12) (way : BitVec 4) (lines : BitVec 13)
  /-- PRELOAD_DONE (R248): A preload completes. -/
  | preloadDone (c : Fin 12)
  /-- LOCK_WAYS_WRITE (R248): A write of L2.LOCK.WAYS locks ways in MAINTENANCE. -/
  | lockWaysWrite (c : Fin 12) (val : BitVec 32)
  /-- LFSR_SEED_WRITE (R238): A write of L2.LFSR.SEED loads the replacement state. -/
  | lfsrSeedWrite (c : Fin 12) (val : BitVec 32)
  /-- L2_DISABLE (R242): A write of L2.CTL.EN = 0 starts the clean that leads to bypass. -/
  | l2Disable (c : Fin 12)
  /-- BYPASS (R242): The clean completes and bypass begins. -/
  | bypass (c : Fin 12)
  /-- L2_ENABLE (R243): A write of CTL.EN = 1 leaves bypass with empty cache ways. -/
  | l2Enable (c : Fin 12)
  /-- L2_SOFT_RESET (R242): L2 SOFT_RESET cleans and invalidates every cache way and clears counters. -/
  | l2SoftReset (c : Fin 12)
  /-- L2_ECC_UE (R237): An uncorrectable L2 error refetches a clean line, or faults the cluster for dirty or green room data. -/
  | l2EccUe (c : Fin 12) (site : EccSite)
  /-- MEMC_ENABLE (R267): A write of MEMC.CTL.EN = 1 to an OFF controller exits self-refresh. -/
  | memcEnable (m : Fin 22)
  /-- MEMC_DISABLE (R256): A write of MEMC.CTL.EN = 0 takes the controller offline into self-refresh, or is refused. -/
  | memcDisable (m : Fin 22)
  /-- MEMC_TRAIN_MODE (R260): A write of MODE = TRAIN resets the DIMMs and programs them from SPD. -/
  | memcTrainMode (m : Fin 22)
  /-- MEMC_SERVICE_MODE (R260): A write of MODE = SERVICE sets TRAINED and RUN. -/
  | memcServiceMode (m : Fin 22)
  /-- MEMC_SOFT_RESET (R263): MEMC SOFT_RESET clears CE.COUNT and SCRUB_PASSES. -/
  | memcSoftReset (m : Fin 22)
  /-- MEMC_FREEZE (R265): An uncorrectable data error or a command parity error freezes the controller and reports a unit fault. -/
  | memcFreeze (m : Fin 22) (f : FreezeReport)
  /-- MEMC_CORRECTABLE_ERROR (R263): A correctable error is corrected, written back and counted. -/
  | memcCorrectableError (m : Fin 22) (addr : BitVec 48)
  /-- PATROL_SCRUB (R264): Patrol scrub reads the next local unit at its scheduled rate. -/
  | patrolScrub (m : Fin 22)
  /-- REFRESH (R258): A controller issues refresh at its due interval. -/
  | refresh (m : Fin 22)
  /-- DRAM_HOT (R258): A DRAM device reports above 85 °C, so refresh doubles and HOT is set. -/
  | dramHot (m : Fin 22) (degC : BitVec 8)
  /-- SELF_REFRESH_DONE (R267): A self-refresh entry or exit sequence completes. -/
  | selfRefreshDone (m : Fin 22)
  /-- TRAIN_WRITE_PATTERN (R269): MEMT.TRAIN_CTL.GO with OP WRITE_PATTERN. -/
  | trainWritePattern (m : Fin 22) (rank : BitVec 4)
  /-- TRAIN_READ_COMPARE (R269): MEMT.TRAIN_CTL.GO with OP READ_COMPARE. -/
  | trainReadCompare (m : Fin 22) (rank : BitVec 4)
  /-- TRAIN_WRITE_READ_COMPARE (R269): MEMT.TRAIN_CTL.GO with OP WRITE_READ_COMPARE. -/
  | trainWriteReadCompare (m : Fin 22) (rank : BitVec 4)
  /-- TRAIN_CA_CHECK (R269): MEMT.TRAIN_CTL.GO with OP CA_CHECK. -/
  | trainCaCheck (m : Fin 22) (rank : BitVec 4)
  /-- TRAIN_LEVEL_CHECK (R269): MEMT.TRAIN_CTL.GO with OP LEVEL_CHECK. -/
  | trainLevelCheck (m : Fin 22) (rank : BitVec 4)
  /-- TRAIN_DRAM_PATTERN (R269): MEMT.TRAIN_CTL.GO with OP DRAM_PATTERN. -/
  | trainDramPattern (m : Fin 22) (rank : BitVec 4)
  /-- TRAIN_DONE (R270): A training run completes and sets TRAIN_STAT.DONE. -/
  | trainDone (m : Fin 22) (laneErr : List Nat)
  /-- WING_ENABLE (R436): A write of WING.CTL.EN with MODE ≠ 0, with PRESENT_N low, starts DETECT. -/
  | wingEnable (p : Fin 4) (mode : BitVec 4)
  /-- RECEIVER_DETECT (R436): Receivers are detected on all 8 lanes. -/
  | receiverDetect (p : Fin 4)
  /-- EQUALIZE_DONE (R436): Every lane's pre-FEC error rate falls below 10^-6. -/
  | equalizeDone (p : Fin 4)
  /-- ALIGN_DONE (R436): FEC lock and deskew complete, credits are granted, and HELLO and AUTH are sent, or a retrain resumes. -/
  | alignDone (p : Fin 4) (delayNs : BitVec 16)
  /-- LINK_TRAIN_TIMEOUT (R436): DETECT or EQUALIZE lasts 50 ms and the port goes DOWN. -/
  | linkTrainTimeout (p : Fin 4)
  /-- LINK_RETRAIN (R436): RETRY_LIMIT replays without progress, or loss of FEC lock, sends the port to RETRAIN. -/
  | linkRetrain (p : Fin 4)
  /-- RETRAIN_TIMEOUT (R436): RETRAIN lasts 5 ms and the port departs. -/
  | retrainTimeout (p : Fin 4)
  /-- PRESENT_N_HIGH (R436): A filtered PRESENT_N high takes the port DOWN. -/
  | presentNHigh (p : Fin 4)
  /-- WING_SOFT_RESET (R436): WING SOFT_RESET forces the port DOWN and clears counters. -/
  | wingSoftReset (p : Fin 4)
  /-- HELLO (R445): A HELLO frame from the partner is received. -/
  | hello (p : Fin 4) (h : FrameHead) (payload : List Byte)
  /-- AUTH (R446): An AUTH frame is received and the stage manager accepts or refuses the partner. -/
  | auth (p : Fin 4) (h : FrameHead) (payload : List Byte)
  /-- BYE (R436): A BYE frame takes the port DOWN. -/
  | bye (p : Fin 4) (h : FrameHead) (reason : BitVec 16)
  /-- HEARTBEAT (R455): A HEARTBEAT frame is received from the lead. -/
  | heartbeat (p : Fin 4) (h : FrameHead) (cue : Word64) (flags : Word64)
  /-- HEARTBEAT_SEND (R455): The lead sends a HEARTBEAT every 10 beats while stretching. -/
  | heartbeatSend (stretching : Bool)
  /-- NAK (R441): A NAK frame makes the sender replay from the named FSEQ. -/
  | nak (p : Fin 4) (h : FrameHead) (fseq : Word32)
  /-- CREDIT (R440): A CREDIT frame returns credits. -/
  | credit (p : Fin 4) (h : FrameHead)
  /-- REPLAY_TIMEOUT (R441): ACK has not advanced for REPLAY_TIMEOUT, so the sender replays from the oldest unacknowledged frame. -/
  | replayTimeout (p : Fin 4)
  /-- YIELD (R457): A YIELD frame makes the understudy complete its cue and promote. -/
  | yield (p : Fin 4) (h : FrameHead) (cue : Word64) (cause : BitVec 16)
  /-- ROLE (R454): A ROLE frame changes the receiver's role, for example to DESYNC or ORPHANED. -/
  | role (p : Fin 4) (h : FrameHead) (role : Byte) (rank : Byte) (cue : Word64)
  /-- ARRIVAL (R451): An ARRIVAL frame delivers a forwarded entry to the understudy. -/
  | arrival (p : Fin 4) (h : FrameHead) (payload : List Byte)
  /-- SEAL (R451): A SEAL frame gives the understudy the sealed list of cue n to execute. -/
  | seal (p : Fin 4) (h : FrameHead) (payload : List Byte)
  /-- DIGEST (R453): A DIGEST frame is received and compared with the local digests. -/
  | digest (p : Fin 4) (h : FrameHead) (cue : Word64) (flags : Word32) (inp : List Byte) (out : List Byte) (delta : List Byte)
  /-- CHANGE_OK (R452): A CHANGE_OK frame reports the understudy's check of an admin change. -/
  | changeOk (p : Fin 4) (h : FrameHead) (id : Word64) (result : BitVec 16)
  /-- PIN (R466): A PIN frame pins or unpins a snapshot for another cascade member. -/
  | pin (p : Fin 4) (h : FrameHead) (job : Word32) (op : Byte) (cue : Word64)
  /-- READ_REQ (R470): An inbound remote read is served within the grant, or refused. -/
  | readReq (p : Fin 4) (h : FrameHead) (tag : Word32) (len : Word32) (addr : Word64)
  /-- WRITE_REQ (R470): An inbound remote write is served within the grant, or refused. -/
  | writeReq (p : Fin 4) (h : FrameHead) (tag : Word32) (addr : Word64) (en : BitVec 256) (data : List Byte)
  /-- READ_RSP (R469): A READ_RSP frame completes a remote-window load. -/
  | readRsp (p : Fin 4) (h : FrameHead) (tag : Word32) (status : Word32) (data : List Byte)
  /-- WRITE_ACK (R252): A WRITE_ACK frame accepts a remote-window store. -/
  | writeAck (p : Fin 4) (h : FrameHead) (tag : Word32) (status : Word32)
  /-- CHANGE (R452): A CHANGE frame delivers admin change data to the understudy, which checks it. -/
  | change (p : Fin 4) (h : FrameHead) (id : Word64) (opcode : BitVec 16) (off : Word32) (total : Word32) (data : List Byte)
  /-- CATCHUP (R462): A CATCHUP frame delivers a snapshot section to the catching-up understudy. -/
  | catchup (p : Fin 4) (h : FrameHead) (x : CatchItem)
  /-- DELTA (R462): A DELTA frame delivers one cue's delta for the catching-up understudy to apply. -/
  | delta (p : Fin 4) (h : FrameHead) (payload : List Byte)
  /-- READY (R462): A READY frame tells the lead that the understudy has caught up. -/
  | ready (p : Fin 4) (h : FrameHead) (cue : Word64)
  /-- LOCK (R462): A LOCK frame names the cue at which lockstep begins. -/
  | lock (p : Fin 4) (h : FrameHead) (cue : Word64)
  /-- SEARCH_KEY (R308): A cascade member receives a key and searches its chained pair. -/
  | searchKey (p : Fin 4) (h : FrameHead) (num : BitVec 16) (issuer : Byte) (key : BitVec 160) (mask : BitVec 160)
  /-- SEARCH_RESULT (R308): Rank 0 receives a member's hit result. -/
  | searchResult (p : Fin 4) (h : FrameHead) (num : BitVec 16) (issuer : Byte) (index : Word32) (count : Word32) (data : Word64)
  /-- SEARCH_RESOLVED (R308): The issuer receives and writes the resolved result. -/
  | searchResolved (p : Fin 4) (h : FrameHead) (num : BitVec 16) (issuer : Byte) (res : List Byte)
  /-- MATCH_REPORT (R444): A MATCH_IN report block arrives at rank 0. -/
  | matchReport (p : Fin 4) (report : BitVec 16)
  /-- CUE_SYNC_EDGE (R443): A CUE_SYNC rising edge sets the follower's next start instant and is relayed. -/
  | cueSyncEdge (beatsSince : Nat)
  /-- LEAD_LOST (R455): The understudy sees no edge or frame for the set time, or loses all pair links. -/
  | leadLost
  /-- SET_STATE_EFFECTER (R495): A PLDM SetStateEffecterStates request is queued for its page. -/
  | setStateEffecter (page : Fin 8192) (run : Bool)
  /-- STATE_SKEW (R496): A sensor has differed from UNIT_STATE for 1 ms, so MODCTL latches a STATE_SKEW. -/
  | stateSkew (page : Fin 8192) (reported : BitVec 4)
  /-- KEY_COMPONENT (R333): An MCTP KEY_COMPONENT message delivers a transport key component. -/
  | keyComponent (idx : Byte) (count : Byte) (epoch : Word32) (val : List Byte)
  /-- REQUEST_UPDATE (R342): PLDM RequestUpdate begins a firmware update. -/
  | requestUpdate
  /-- PASS_COMPONENT_TABLE (R342): PLDM PassComponentTable message. -/
  | passComponentTable
  /-- UPDATE_COMPONENT (R342): PLDM UpdateComponent message. -/
  | updateComponent (size : Nat)
  /-- REQUEST_FIRMWARE_DATA (R342): PLDM RequestFirmwareData exchange that writes image data to the inactive slot. -/
  | requestFirmwareData (off : Nat) (data : List Byte)
  /-- TRANSFER_COMPLETE (R342): PLDM TransferComplete message. -/
  | transferComplete
  /-- VERIFY_COMPLETE (R342): PLDM VerifyComplete message. -/
  | verifyComplete
  /-- APPLY_COMPLETE (R342): PLDM ApplyComplete message. -/
  | applyComplete
  /-- ACTIVATE_FIRMWARE (R342): PLDM ActivateFirmware makes the updated slot ACTIVE. -/
  | activateFirmware
  /-- GET_VERSION (R344): SPDM GET_VERSION request. -/
  | getVersion (req : List Byte)
  /-- GET_CAPABILITIES (R344): SPDM GET_CAPABILITIES request. -/
  | getCapabilities (req : List Byte)
  /-- NEGOTIATE_ALGORITHMS (R345): SPDM NEGOTIATE_ALGORITHMS request that selects SHA3-512 and Falcon-1024. -/
  | negotiateAlgorithms (req : List Byte) (offers : Bool)
  /-- GET_MEASUREMENTS (R346): SPDM GET_MEASUREMENTS request answered with signed measurements. -/
  | getMeasurements (req : List Byte)
  /-- CHALLENGE (R344): SPDM CHALLENGE request answered with an identity-key signature. -/
  | challenge (req : List Byte)
  /-- SPDM_UNSUPPORTED_REQUEST (R344): Any other SPDM request is answered with ERROR UnsupportedRequest. -/
  | spdmUnsupportedRequest (req : List Byte)
  /-- CUE_SOFT_RESET (R72): CUE SOFT_RESET returns the parameters to reset and clears counters. -/
  | cueSoftReset
  /-- COMMIT_SOFT_RESET (R77): COMMIT SOFT_RESET clears the counters. -/
  | commitSoftReset
  /-- STRIKE_SOFT_RESET (R116): STRIKE SOFT_RESET resets STAGE_PCT and INTERVAL and clears counters. -/
  | strikeSoftReset
  /-- DISP_SOFT_RESET (R295): DISP SOFT_RESET clears counters. -/
  | dispSoftReset (c : Fin 12)
  /-- KEYS_SOFT_RESET (R337): KEYS SOFT_RESET clears counters. -/
  | keysSoftReset
  /-- PBOOK_SOFT_RESET (R360): PBOOK SOFT_RESET clears counters. -/
  | pbookSoftReset
  /-- HEP_SOFT_RESET (R432): HEP SOFT_RESET clears counters. -/
  | hepSoftReset
  /-- QENG_SOFT_RESET (R433): QENG SOFT_RESET clears counters. -/
  | qengSoftReset
  /-- COMPANY_SOFT_RESET (R472): COMPANY SOFT_RESET clears counters. -/
  | companySoftReset
  /-- MODCTL_SOFT_RESET (R497): MODCTL SOFT_RESET clears SKEW_COUNT and RESETS. -/
  | modctlSoftReset
  /-- PWR_SOFT_RESET (R498): PWR SOFT_RESET clears TJ_PEAK, RAILS and WARNINGS. -/
  | pwrSoftReset
  /-- MGMT_SOFT_RESET (R499): MGMT SOFT_RESET clears counters. -/
  | mgmtSoftReset
  /-- EXPERT_KEY_WRITE (R504): A write to EXPERT_KEY locks or unlocks the expert range, or records EXPERT_KEY_BAD. -/
  | expertKeyWrite (wr : Writer) (page : Fin 8192) (val : BitVec 32)
  /-- ERR_CLEAR (R503): A write of ERR_CLEAR.GO clears ERR_CODE and ERR_INFO0–2. -/
  | errClear (wr : Writer) (page : Fin 8192)
  /-- EVT_FORCE_WRITE (R502): A write to EVT_FORCE sets EVT_RAW bits. -/
  | evtForceWrite (wr : Writer) (page : Fin 8192) (val : BitVec 32)
  /-- EVT_RAW_CLEAR (R502): A W1C write to EVT_RAW clears event bits. -/
  | evtRawClear (wr : Writer) (page : Fin 8192) (val : BitVec 32)
  /-- REGISTER_WRITE (R11): A write to a register field that has no row of its own stores or is refused under the field's rules. -/
  | registerWrite (wr : Writer) (page : Fin 8192) (word : Fin 1024) (val : BitVec 32)
  /-- SUPPLY_RESTORED (R516): The 54 V input returns and holds at or above 44 V for 20 ms, which starts the boot when PERST# is already deasserted. -/
  | supplyRestored (absentMs : Nat)
  /-- PCIE_LINK_UP (R426): The PCI Express link trains back to L0 after a link-down, so the host can enumerate again and a containment release becomes acceptable. -/
  | pcieLinkUp (speed : BitVec 4) (width : BitVec 5)
  /-- BUS_MASTER_ENABLE_WRITE (R398): A configuration write sets or clears Bus Master Enable, releasing or holding the queue engine's requests. -/
  | busMasterEnableWrite (en : Bool)
  /-- MSIX_UNMASK (R401): The host clears a vector or function mask in the MSI-X table, and a pending vector is then sent. -/
  | msixUnmask (vector : Option (Fin 2048))
  /-- REFCLK_STOP (R513): The 100 MHz reference clock stops while the module runs, so the link goes down and the sideband glitch filters hold their last level. -/
  | refclkStop
  /-- REFCLK_RESTORE (R513): The reference clock returns and the sideband glitch filters resume passing PRESENT_N and ALERT_N changes. -/
  | refclkRestore
  /-- WING_LINK_ERROR (R441): A wing receiver gets a frame with a bad CRC, length or FSEQ, discards it and its successors, and sends a NAK. -/
  | wingLinkError (p : Fin 4) (nakDue : Bool)
  /-- DRAM_TEMP_NORMAL (R258): A DRAM device temperature falls back to 85 °C or below, so doubled refresh ends and DRAM_TEMP.HOT clears. -/
  | dramTempNormal (m : Fin 22)
  /-- FLASH_WRITE_DONE (R343): A flash erase or program completes, clearing FLASH.STAT.BUSY and raising WRITE_DONE. -/
  | flashWriteDone (fail : Option Word32)
  /-- MCTP_CONTROL_MESSAGE (R479): An MCTP control message, or another management request, arrives on the management path and is answered or refused. -/
  | mctpControlMessage (control : Bool) (msg : List Byte)
  /-- SNAPSHOT_EXPORT_DONE (R416): The writing of a snapshot image finishes, the pin is released and the command's CQE is written. -/
  | snapshotExportDone
  deriving DecidableEq, Repr

end Sys2Proof
end

