-- ==== Sys2Proof/Config.lean ====
section
/-!
DEFINITION. What the spec leaves open. Each constant here has no body, so nothing can evaluate it and no proof can learn a
value of it: a statement about one of them holds whatever the value is. The free values are applied to a counter of the
state that each use advances, so that two uses are unrelated.
-/
namespace Sys2Proof.Config

/-- A scalar value the spec leaves undefined: general registers, counters and scratch after a core reset (R201), the
cycle count (R198), timing figures. Assumption 3. -/
opaque freeWord : Nat → Word64
/-- A vector register the spec leaves undefined after a core reset (R201). Assumption 3. -/
opaque freeVec : Nat → VWord
/-- A mask register the spec leaves undefined after a core reset (R201). Assumption 3. -/
opaque freeMask : Nat → MWord
/-- A byte the spec leaves undefined: green room after a conversion (R247), output of a job that was ended early. Assumption 3. -/
opaque freeByte : Nat → Byte

/-- A byte of green room that nothing has written since it was lent, by address: the bytes are undefined after a conversion (R247).
Assumption 3. -/
opaque greenByte : Nat → Byte
/-- The delay or reference voltage a memory controller shows for a setting that nothing has set, by controller and setting (the MEMT
page). Assumption 3. -/
opaque untrainedDelay : Nat → BitVec 7
/-- Where in HBM the staging area lies, in 64 KiB units, by its size in MiB (the COMMIT page). Assumption 13. -/
opaque stageAt : Nat → Nat
/-- Where in HBM the image store holds an image, in 128-byte units, by its load (R171). Assumption 138. -/
opaque imageAt : Nat → Nat
/-- The table handle that a relocation writes, an opaque value, by load and reference (R169). Assumption 138. -/
opaque tableHandle : Nat → Nat → Word64
/-- The entry address of a firmware library routine (R169). Assumption 138. -/
opaque libEntry : Nat → Word64

/-- The signature bytes of the Larkspur units, which differ from run to run (R70, R327). Assumption 3. -/
opaque freeSig : Nat → List Byte
/-- The module's identity public key, made at manufacture (R332). Assumption 11. -/
opaque identityPub : List Byte
/-- The digest unit that takes a hash of the commit sweeper or the prompt book: R322 does not say which (Assumption 148). -/
opaque hashUnit : Nat → Nat
/-- The three certificates of R336, in flash. Assumption 11. -/
opaque certChain : List Byte
/-- The 64-byte SHAKE256 of the boot ROM (R346). Assumption 11. -/
opaque romDigest : List Byte
/-- LIB_DIGEST of the firmware the module was made with (R340). Assumption 11. -/
opaque libDigest : List Byte
/-- DIGEST of the firmware the module was made with (R340). Assumption 11. -/
opaque fwDigest : List Byte

/-- The public keys of the four firmware roots whose hashes are fused (R339). Assumption 11. -/
opaque rootKey : Nat → List Byte
/-- VERSION of the firmware the module was made with (R340). Assumption 11. -/
opaque fwVersion : Nat
/-- The DMTF value type of a measurement block, bits 6–0 (R346). Assumption 11. -/
opaque dmtfType : Nat → Nat

/-- The role a partner desires, 0 to 2 as COMPANY.DESIRED codes it, by its HELLO: R447 compares it, and no frame carries it. Assumption 133. -/
opaque partnerWish : List Byte → Nat

/-- The bytes the DEFLATE compressor writes for a level and an input (R382, R383): its match search is not given. Assumption 12. -/
opaque deflate : Nat → List Byte → List Byte

/-- The message bytes a DECODE or a codec ENCODE node may walk or build, which its parameters declare in a layout the spec does not
give (R120, R180). Assumption 17. -/
opaque msgMax : List Byte → Nat
/-- Staging area bytes, in MiB, for a number of staged writes (R76): the spec does not say what one write takes. Assumption 13. -/
opaque stagingBuild : Nat → Nat
/-- The staging area's size in MiB: none for no writes (R76). -/
def stagingMib (writes : Nat) : Nat := if writes = 0 then 0 else stagingBuild writes

end Sys2Proof.Config
end

