-- ==== Sys2Proof/Machine/Flags.lean ====
section
/-!
DEFINITION. The arithmetic of the cores on elements of `w` bits, with `w` = 64 for the scalar registers (R203, R204, R206,
R207, R211). The cores have no condition flags: a comparison gives a bit of a mask or a value, and only the instructions
named saturating saturate.
-/
namespace Sys2Proof.Machine
open Sys2Proof

/-- Sum modulo 2^w. -/
def opAdd (w x y : Nat) : Nat := (x + y) % 2 ^ w
/-- Difference modulo 2^w. -/
def opSub (w x y : Nat) : Nat := (x + 2 ^ w - y % 2 ^ w) % 2 ^ w
/-- Low w bits of the product. -/
def opMul (w x y : Nat) : Nat := x * y % 2 ^ w
/-- High w bits of the signed product. -/
def opMulh (w x y : Nat) : Nat := Word.wrap w (Int.fdiv (Word.signed w x * Word.signed w y) ((2 ^ w : Nat) : Int))
/-- High w bits of the unsigned product. -/
def opMulhu (w x y : Nat) : Nat := x * y / 2 ^ w % 2 ^ w
/-- Signed minimum. -/
def opMin (w x y : Nat) : Nat := if Word.signed w x ≤ Word.signed w y then x else y
/-- Unsigned minimum. -/
def opMinu (_w x y : Nat) : Nat := if x ≤ y then x else y
/-- Signed maximum. -/
def opMax (w x y : Nat) : Nat := if Word.signed w y ≤ Word.signed w x then x else y
/-- Unsigned maximum. -/
def opMaxu (_w x y : Nat) : Nat := if y ≤ x then x else y
/-- Bitwise AND. -/
def opAnd (_w x y : Nat) : Nat := Nat.land x y
/-- Bitwise OR. -/
def opOr (_w x y : Nat) : Nat := Nat.lor x y
/-- Bitwise exclusive OR. -/
def opXor (_w x y : Nat) : Nat := Nat.xor x y
/-- AND with the complement of the second operand. -/
def opAndn (w x y : Nat) : Nat := Nat.land x (2 ^ w - 1 - y % 2 ^ w)
/-- Shift left; the amount is the low log2(w) bits of the second operand. -/
def opSll (w x y : Nat) : Nat := x * 2 ^ (y % w) % 2 ^ w
/-- Logical shift right. -/
def opSrl (w x y : Nat) : Nat := x / 2 ^ (y % w)
/-- Arithmetic shift right. -/
def opSra (w x y : Nat) : Nat := Word.wrap w (Int.fdiv (Word.signed w x) ((2 ^ (y % w) : Nat) : Int))
/-- Rotate left. -/
def opRotl (w x y : Nat) : Nat := (x * 2 ^ (y % w) % 2 ^ w + x / 2 ^ (w - y % w)) % 2 ^ w
/-- Sum saturated at 2^w − 1. -/
def opAddsu (w x y : Nat) : Nat := if x + y < 2 ^ w then x + y else 2 ^ w - 1
/-- Difference saturated at 0. -/
def opSubsu (_w x y : Nat) : Nat := x - y
/-- A value saturated to the signed range of w bits, as w bits. -/
def satSigned (w : Nat) (v : Int) : Nat :=
  if v < -((2 ^ (w - 1) : Nat) : Int) then 2 ^ (w - 1)
  else if ((2 ^ (w - 1) : Nat) : Int) ≤ v then 2 ^ (w - 1) - 1
  else Word.wrap w v
/-- Signed saturating sum. -/
def opAdds (w x y : Nat) : Nat := satSigned w (Word.signed w x + Word.signed w y)
/-- Signed saturating difference. -/
def opSubs (w x y : Nat) : Nat := satSigned w (Word.signed w x - Word.signed w y)
/-- Signed less-than as a value. -/
def opSlt (w x y : Nat) : Nat := if Word.signed w x < Word.signed w y then 1 else 0
/-- Unsigned less-than as a value. -/
def opSltu (_w x y : Nat) : Nat := if x < y then 1 else 0

/-- Signed division truncating toward zero; by 0 it gives all ones, and −2^63 by −1 wraps (R204). -/
def opDiv (w x y : Nat) : Nat := if y = 0 then 2 ^ w - 1 else Word.wrap w (Int.tdiv (Word.signed w x) (Word.signed w y))
/-- Unsigned division; by 0 it gives all ones (R204). -/
def opDivu (w x y : Nat) : Nat := if y = 0 then 2 ^ w - 1 else x / y
/-- Signed remainder; by 0 it gives the dividend (R204). -/
def opRem (w x y : Nat) : Nat := if y = 0 then x else Word.wrap w (Int.tmod (Word.signed w x) (Word.signed w y))
/-- Unsigned remainder; by 0 it gives the dividend (R204). -/
def opRemu (_w x y : Nat) : Nat := if y = 0 then x else x % y

/-- Leading zeros of a w-bit value. -/
def opClz (w x : Nat) : Nat := ((List.range w).reverse.takeWhile (fun i => !Nat.testBit x i)).length
/-- Trailing zeros of a w-bit value. -/
def opCtz (w x : Nat) : Nat := ((List.range w).takeWhile (fun i => !Nat.testBit x i)).length
/-- Set bits of a w-bit value. -/
def opPopc (w x : Nat) : Nat := ((List.range w).filter (fun i => Nat.testBit x i)).length
/-- The bytes of a 64-bit value in the opposite order. -/
def opBswap (x : Nat) : Nat := Word.leValue (Word.leBytes 8 x).reverse

/-- One bit of the reflected CRC-32C register (polynomial 0x1EDC_6F41, R204). -/
def crcBit (x : Nat) : Nat := if x % 2 = 1 then Nat.xor (x / 2) 0x82F63B78 else x / 2
/-- One byte absorbed into the CRC-32C remainder (R204). -/
def crcByte (rem : Nat) (b : Byte) : Nat :=
  crcBit (crcBit (crcBit (crcBit (crcBit (crcBit (crcBit (crcBit (Nat.xor rem b.toNat))))))))
/-- The remainder of `n` low bytes of a value, least significant first, with no inversion (R204). -/
def crcStep (n rem v : Nat) : Nat := (Word.leBytes n v).foldl crcByte rem
/-- The CRC-32C of R88: all ones at the start, inverted at the end. -/
def crc32c (bs : List Byte) : Nat := 0xFFFFFFFF - bs.foldl crcByte 0xFFFFFFFF

/-! ## Comparisons into masks (R207) -/

/-- Equal. -/
def cmpEq (_w x y : Nat) : Bool := x == y
/-- Not equal. -/
def cmpNe (_w x y : Nat) : Bool := x != y
/-- Signed less than. -/
def cmpLt (w x y : Nat) : Bool := decide (Word.signed w x < Word.signed w y)
/-- Unsigned less than. -/
def cmpLtu (_w x y : Nat) : Bool := decide (x < y)
/-- Signed at most. -/
def cmpLe (w x y : Nat) : Bool := decide (Word.signed w x ≤ Word.signed w y)
/-- Unsigned at most. -/
def cmpLeu (_w x y : Nat) : Bool := decide (x ≤ y)
/-- Signed greater than. -/
def cmpGt (w x y : Nat) : Bool := decide (Word.signed w y < Word.signed w x)
/-- Unsigned greater than. -/
def cmpGtu (_w x y : Nat) : Bool := decide (y < x)
/-- Signed at least. -/
def cmpGe (w x y : Nat) : Bool := decide (Word.signed w y ≤ Word.signed w x)
/-- Unsigned at least. -/
def cmpGeu (_w x y : Nat) : Bool := decide (y ≤ x)
/-- Some common bit. -/
def cmpTest (_w x y : Nat) : Bool := Nat.land x y != 0

end Sys2Proof.Machine
end

