-- ==== Sys2Proof/Machine/Crypto.lean ====
section
/-!
DEFINITION. The published functions the units compute: Keccak and the SHA-3 functions (FIPS 202), SHA-256 and SHA-512 (FIPS
180-4), HMAC (FIPS 198-1), KMAC (SP 800-185) as R318 lists them, and Falcon-1024 verification and key checks as R327 fixes them.
-/
namespace Sys2Proof.Machine
open Sys2Proof

/-! ## Keccak -/

/-- A 64-bit left rotation. -/
def rotl64 (x n : Nat) : Nat := (x * 2 ^ (n % 64)) % 2 ^ 64 + x / 2 ^ (64 - n % 64) % 2 ^ (n % 64)

/-- Lane `i` of a lane list. -/
def lane (a : List Nat) (i : Nat) : Nat := a.getD i 0

/-- The byte of the round constant generator after `t` steps: a shift, with x^8 = x^6 + x^5 + x^4 + 1. -/
def keccakGen : Nat → Nat
  | 0 => 1
  | t + 1 =>
    let v := 2 * keccakGen t
    if v < 256 then v else Nat.xor v 0x171

/-- The constant of a round: the generator's lowest bits, at the bit places 2^j − 1. -/
def keccakConst (round : Nat) : Nat :=
  ([0, 1, 2, 3, 4, 5, 6].map (fun j => keccakGen (7 * round + j) % 2 * 2 ^ (2 ^ j - 1))).sum

/-- The rotation amounts, by x + 5y: on the way (x, y) → (y, 2x + 3y) from (1, 0) the amounts are the triangular numbers. -/
def keccakTurns : List Nat :=
  ((List.range 24).foldl (fun (q : List Nat × Nat × Nat) t =>
    (q.1.set (q.2.1 + 5 * q.2.2) ((t + 1) * (t + 2) / 2 % 64), q.2.2, (2 * q.2.1 + 3 * q.2.2) % 5)) (List.replicate 25 0, 1, 0)).1

/-- The parity of a column of lanes. -/
def columnParity (a : List Nat) (x : Nat) : Nat := ([0, 5, 10, 15, 20].map (fun k => lane a (k + x % 5))).foldr Nat.xor 0

/-- Every lane with the parities of its two neighbour columns. -/
def keccakSpread (a : List Nat) : List Nat :=
  let par := [0, 1, 2, 3, 4].map (columnParity a)
  a.zipIdx.map (fun p => Nat.xor p.1 (Nat.xor (lane par ((p.2 + 4) % 5)) (rotl64 (lane par ((p.2 + 1) % 5)) 1)))

/-- Every lane turned and moved to its new place: place (X, Y) takes the lane of (X + 3Y, X). -/
def keccakMove (a : List Nat) : List Nat :=
  (List.range 25).map (fun i =>
    let from_ := (i % 5 + 3 * (i / 5)) % 5 + 5 * (i % 5)
    rotl64 (lane a from_) (lane keccakTurns from_))

/-- Every lane mixed with the next two of its row. -/
def keccakMix (a : List Nat) : List Nat :=
  a.zipIdx.map (fun p =>
    let row := p.2 / 5 * 5
    let next := lane a (row + (p.2 + 1) % 5)
    Nat.xor p.1 (Nat.xor (lane a (row + (p.2 + 2) % 5)) (Nat.land next (lane a (row + (p.2 + 2) % 5)))))

/-- One round on 25 lanes, lane (x, y) at x + 5y. -/
def keccakStep (a : List Nat) (round : Nat) : List Nat :=
  match keccakMix (keccakMove (keccakSpread a)) with
  | first :: rest => Nat.xor first (keccakConst round) :: rest
  | [] => []

/-- Keccak-f[1600]: 24 rounds. -/
def keccakF (a : List Nat) : List Nat := (List.range 24).foldl keccakStep a

/-- The lanes of a byte block. -/
def lanesOf (bs : List Byte) : List Nat := (List.range 25).map (fun i => Word.leValue ((bs.drop (8 * i)).take 8))

/-- The bytes of the lanes. -/
def laneBytes (a : List Nat) : List Byte := a.flatMap (fun x => Word.leBytes 8 x)

/-- One block absorbed. -/
def absorbBlock (a : List Nat) (block : List Byte) : List Nat :=
  keccakF ((List.range 25).map (fun i => Nat.xor (lane a i) (lane (lanesOf block) i)))

/-- `n` whole blocks of a message absorbed. -/
def absorbN (r : Nat) : Nat → List Nat → List Byte → List Nat
  | 0, a, _ => a
  | n + 1, a, m => absorbN r n (absorbBlock a (m.take r)) (m.drop r)

/-- The zero state. -/
def keccakZero : List Nat := List.replicate 25 0

/-- The last block of a message: its tail, the domain byte, zeros, and the final bit. -/
def spongePad (r dom : Nat) (tail : List Byte) : List Byte :=
  let p := tail ++ [BitVec.ofNat 8 dom] ++ List.replicate (r - 1 - tail.length) 0
  (p.take (r - 1)) ++ [(p.getD (r - 1) 0) ||| 0x80#8]

/-- Output bytes squeezed from a state, `n` blocks at most. -/
def squeezeN (r : Nat) : Nat → List Nat → List Byte
  | 0, _ => []
  | n + 1, a => (laneBytes a).take r ++ squeezeN r n (keccakF a)

/-- A message finished from a state: whole blocks, the padded last block, `d` bytes out. -/
def spongeFinish (r dom d : Nat) (a : List Nat) (m : List Byte) : List Byte :=
  let n := m.length / r
  let a1 := absorbBlock (absorbN r n a m) (spongePad r dom (m.drop (n * r)))
  (squeezeN r (d / r + 1) a1).take d

/-- SHAKE256 with a `d`-byte output. -/
def shake256 (d : Nat) (m : List Byte) : List Byte := spongeFinish 136 0x1F d keccakZero m

/-- SHA3-512. -/
def sha3_512 (m : List Byte) : List Byte := spongeFinish 72 0x06 64 keccakZero m

/-! ## SHA-2 -/

/-- The round constants of SHA-512; their high halves are those of SHA-256. -/
def sha512K : List Nat := [
  0x428A2F98D728AE22, 0x7137449123EF65CD, 0xB5C0FBCFEC4D3B2F, 0xE9B5DBA58189DBBC, 0x3956C25BF348B538, 0x59F111F1B605D019,
  0x923F82A4AF194F9B, 0xAB1C5ED5DA6D8118, 0xD807AA98A3030242, 0x12835B0145706FBE, 0x243185BE4EE4B28C, 0x550C7DC3D5FFB4E2,
  0x72BE5D74F27B896F, 0x80DEB1FE3B1696B1, 0x9BDC06A725C71235, 0xC19BF174CF692694, 0xE49B69C19EF14AD2, 0xEFBE4786384F25E3,
  0x0FC19DC68B8CD5B5, 0x240CA1CC77AC9C65, 0x2DE92C6F592B0275, 0x4A7484AA6EA6E483, 0x5CB0A9DCBD41FBD4, 0x76F988DA831153B5,
  0x983E5152EE66DFAB, 0xA831C66D2DB43210, 0xB00327C898FB213F, 0xBF597FC7BEEF0EE4, 0xC6E00BF33DA88FC2, 0xD5A79147930AA725,
  0x06CA6351E003826F, 0x142929670A0E6E70, 0x27B70A8546D22FFC, 0x2E1B21385C26C926, 0x4D2C6DFC5AC42AED, 0x53380D139D95B3DF,
  0x650A73548BAF63DE, 0x766A0ABB3C77B2A8, 0x81C2C92E47EDAEE6, 0x92722C851482353B, 0xA2BFE8A14CF10364, 0xA81A664BBC423001,
  0xC24B8B70D0F89791, 0xC76C51A30654BE30, 0xD192E819D6EF5218, 0xD69906245565A910, 0xF40E35855771202A, 0x106AA07032BBD1B8,
  0x19A4C116B8D2D0C8, 0x1E376C085141AB53, 0x2748774CDF8EEB99, 0x34B0BCB5E19B48A8, 0x391C0CB3C5C95A63, 0x4ED8AA4AE3418ACB,
  0x5B9CCA4F7763E373, 0x682E6FF3D6B2B8A3, 0x748F82EE5DEFB2FC, 0x78A5636F43172F60, 0x84C87814A1F0AB72, 0x8CC702081A6439EC,
  0x90BEFFFA23631E28, 0xA4506CEBDE82BDE9, 0xBEF9A3F7B2C67915, 0xC67178F2E372532B, 0xCA273ECEEA26619C, 0xD186B8C721C0C207,
  0xEADA7DD6CDE0EB1E, 0xF57D4F7FEE6ED178, 0x06F067AA72176FBA, 0x0A637DC5A2C898A6, 0x113F9804BEF90DAE, 0x1B710B35131C471B,
  0x28DB77F523047D84, 0x32CAAB7B40C72493, 0x3C9EBE0A15C9BEBC, 0x431D67C49C100D4C, 0x4CC5D4BECB3E42B6, 0x597F299CFC657E2A,
  0x5FCB6FAB3AD6FAEC, 0x6C44198C4A475817]

/-- The initial hash value of SHA-512; the high halves are that of SHA-256. -/
def sha512H : List Nat := [
  0x6A09E667F3BCC908, 0xBB67AE8584CAA73B, 0x3C6EF372FE94F82B, 0xA54FF53A5F1D36F1, 0x510E527FADE682D1, 0x9B05688C2B3E6C1F,
  0x1F83D9ABFB41BD6B, 0x5BE0CD19137E2179]

/-- The rotation and shift amounts of a SHA-2 function: Σ0, Σ1, σ0, σ1, each of the σ with its shift last. -/
structure Sha2 where
  w : Nat
  rounds : Nat
  s0 : List Nat
  s1 : List Nat
  g0 : List Nat
  g1 : List Nat
  deriving DecidableEq, Repr

/-- SHA-256. -/
def sha256P : Sha2 := { w := 32, rounds := 64, s0 := [2, 13, 22], s1 := [6, 11, 25], g0 := [7, 18, 3], g1 := [17, 19, 10] }
/-- SHA-512. -/
def sha512P : Sha2 := { w := 64, rounds := 80, s0 := [28, 34, 39], s1 := [14, 18, 41], g0 := [1, 8, 7], g1 := [19, 61, 6] }

/-- A right rotation of a `w`-bit word. -/
def rotr (w x n : Nat) : Nat := x / 2 ^ n + (x * 2 ^ (w - n)) % 2 ^ w

/-- Three rotations combined. -/
def sigBig (p : Sha2) (l : List Nat) (x : Nat) : Nat := l.foldl (fun v n => Nat.xor v (rotr p.w x n)) 0
/-- Two rotations and a shift combined. -/
def sigSmall (p : Sha2) (l : List Nat) (x : Nat) : Nat :=
  Nat.xor (Nat.xor (rotr p.w x (lane l 0)) (rotr p.w x (lane l 1))) (x / 2 ^ lane l 2)

/-- The message schedule, newest word first. -/
def sha2Schedule (p : Sha2) : Nat → List Nat → List Nat
  | 0, w => w
  | n + 1, w => sha2Schedule p n
      (((sigSmall p p.g1 (lane w 1) + lane w 6 + sigSmall p p.g0 (lane w 14) + lane w 15) % 2 ^ p.w) :: w)

/-- One round on the eight working variables. -/
def sha2Round (p : Sha2) (v : List Nat) (kw : Nat) : List Nat :=
  let m := 2 ^ p.w
  let e := lane v 4
  let a := lane v 0
  let ch := Nat.xor (Nat.land e (lane v 5)) (Nat.land (m - 1 - e) (lane v 6))
  let maj := Nat.xor (Nat.xor (Nat.land a (lane v 1)) (Nat.land a (lane v 2))) (Nat.land (lane v 1) (lane v 2))
  let t1 := lane v 7 + sigBig p p.s1 e + ch + kw
  let t2 := sigBig p p.s0 a + maj
  [(t1 + t2) % m, a, lane v 1, lane v 2, (lane v 3 + t1) % m, e, lane v 5, lane v 6]

/-- The initial value and round constants at the function's width. -/
def sha2Const (p : Sha2) (l : List Nat) : List Nat := l.map (fun x => x / 2 ^ (64 - p.w))

/-- Big-endian words of a block. -/
def beWords (n : Nat) (bs : List Byte) : List Nat := (List.range 16).map (fun i => Word.beValue ((bs.drop (n * i)).take n))

/-- One block compressed. -/
def sha2Block (p : Sha2) (h : List Nat) (block : List Byte) : List Nat :=
  let w := (sha2Schedule p (p.rounds - 16) (beWords (p.w / 8) block).reverse).reverse
  let kw := (w.zip (sha2Const p sha512K)).map (fun x => x.1 + x.2)
  let v := kw.foldl (sha2Round p) h
  (List.range 8).map (fun i => (lane h i + lane v i) % 2 ^ p.w)

/-- `n` whole blocks compressed. -/
def sha2N (p : Sha2) : Nat → List Nat → List Byte → List Nat
  | 0, h, _ => h
  | n + 1, h, m => sha2N p n (sha2Block p h (m.take (2 * p.w))) (m.drop (2 * p.w))

/-- The digest finished from a state: `done` bytes already compressed, then the rest of the message. -/
def sha2Finish (p : Sha2) (h : List Nat) (done : Nat) (m : List Byte) : List Byte :=
  let b := 2 * p.w
  let lenB := p.w / 4
  let zeros := (b - (m.length + 1 + lenB) % b) % b
  let padded := m ++ [0x80#8] ++ List.replicate zeros 0 ++ Word.beBytes lenB ((done + m.length) * 8)
  (sha2N p (padded.length / b) h padded).flatMap (fun x => Word.beBytes (p.w / 8) x)

/-- The initial hash value. -/
def sha2Init (p : Sha2) : List Nat := sha2Const p sha512H

/-- SHA-256 or SHA-512 of a message. -/
def sha2 (p : Sha2) (m : List Byte) : List Byte := sha2Finish p (sha2Init p) 0 m

/-! ## HMAC and KMAC -/

/-- The key of HMAC as one block, with every byte XORed with a pad byte. -/
def hmacPad (p : Sha2) (key : List Byte) (pad : Byte) : List Byte :=
  ((key ++ List.replicate (2 * p.w - key.length) 0).take (2 * p.w)).map (fun b => b ^^^ pad)

/-- The state of HMAC before the message. -/
def hmacInit (p : Sha2) (key : List Byte) : List Nat := sha2Block p (sha2Init p) (hmacPad p key 0x36#8)

/-- HMAC finished: `done` message bytes compressed, then the rest. -/
def hmacFinish (p : Sha2) (key : List Byte) (h : List Nat) (done : Nat) (m : List Byte) : List Byte :=
  sha2 p (hmacPad p key 0x5C#8 ++ sha2Finish p h (2 * p.w + done) m)

/-- The shortest big-endian form of a number, at least one byte. -/
def beMin (v : Nat) : List Byte :=
  let n := (Nat.log2 v) / 8 + 1
  Word.beBytes n v

/-- left_encode of SP 800-185. -/
def leftEncode (v : Nat) : List Byte := let b := beMin v; BitVec.ofNat 8 b.length :: b
/-- right_encode of SP 800-185. -/
def rightEncode (v : Nat) : List Byte := let b := beMin v; b ++ [BitVec.ofNat 8 b.length]
/-- encode_string of SP 800-185. -/
def encodeString (s : List Byte) : List Byte := leftEncode (8 * s.length) ++ s
/-- bytepad of SP 800-185. -/
def bytepad (x : List Byte) (w : Nat) : List Byte :=
  let z := leftEncode w ++ x
  z ++ List.replicate ((w - z.length % w) % w) 0

/-- ASCII bytes of a string. -/
def ascii (t : String) : List Byte := t.toList.map (fun c => BitVec.ofNat 8 c.toNat)

/-- The blocks KMAC absorbs before the message: name and customization, then the key. -/
def kmacPrefix (r : Nat) (key cust : List Byte) : List Byte :=
  bytepad (encodeString (ascii "KMAC") ++ encodeString cust) r ++ bytepad (encodeString key) r

/-- The state of KMAC before the message. -/
def kmacInit (r : Nat) (key cust : List Byte) : List Nat :=
  let p := kmacPrefix r key cust
  absorbN r (p.length / r) keccakZero p

/-- KMAC finished from a state, `d` bytes out. -/
def kmacFinish (r d : Nat) (a : List Nat) (m : List Byte) : List Byte := spongeFinish r 0x04 d a (m ++ rightEncode (8 * d))

/-- KMAC256 with a `d`-byte output. -/
def kmac256 (d : Nat) (key m cust : List Byte) : List Byte := kmacFinish 136 d (kmacInit 136 key cust) m

/-! ## Bit strings, most significant bit first -/

/-- The bits of a byte, most significant first. -/
def bitsMsb (b : Byte) : List Bool := (List.range 8).map (fun i => b.getLsbD (7 - i))

/-- The number a bit list spells, most significant first. -/
def bitsVal (l : List Bool) : Nat := l.foldl (fun v b => 2 * v + (if b then 1 else 0)) 0

/-- A bit list cut into `n` fields of `w` bits. -/
def fieldsOf (w : Nat) : Nat → List Bool → List Nat
  | 0, _ => []
  | n + 1, l => bitsVal (l.take w) :: fieldsOf w n (l.drop w)

/-! ## Falcon-1024 (R327) -/

/-- The modulus. -/
def falconQ : Nat := 12289

/-- A public key decoded: header 0x0A, then 1,024 coefficients of 14 bits below the modulus. -/
def falconPub (pk : List Byte) : Option (List Nat) :=
  if pk.length = 1793 ∧ pk.headD 0 = 0x0A#8 then
    let h := fieldsOf 14 1024 ((pk.drop 1).flatMap bitsMsb)
    if h.all (fun x => decide (x < falconQ)) then some h else none
  else none

/-- The coefficients of hash-to-point: 16-bit values, most significant byte first, below 5 × 12,289, reduced. -/
def hashPoint : Nat → List Byte → List Nat
  | 0, _ => []
  | n + 1, a :: b :: r =>
    let v := a.toNat * 256 + b.toNat
    if v < 5 * falconQ then (v % falconQ) :: hashPoint n r else hashPoint n r
  | _ + 1, _ => []

/-- A run of zero bits and the one that ends it. -/
def unary : List Bool → Option (Nat × List Bool)
  | [] => none
  | true :: r => some (0, r)
  | false :: r => (unary r).map (fun p => (p.1 + 1, p.2))

/-- The compressed s2: a sign, seven low bits and a unary high part per coefficient; nothing but zero bits may follow. -/
def falconS2 : Nat → List Bool → Option (List Int)
  | 0, l => if l.all (fun b => !b) then some [] else none
  | n + 1, l =>
    match l with
    | sgn :: r =>
      if r.length < 7 then none
      else match unary (r.drop 7) with
        | none => none
        | some (hi, rest) =>
          let m := bitsVal (r.take 7) + 128 * hi
          if 2048 ≤ m ∨ (m = 0 ∧ sgn = true) then none
          else (falconS2 n rest).map (fun t => (if sgn then -(m : Int) else (m : Int)) :: t)
    | [] => none

/-- A product modulo x^1024 + 1 and 12,289: coefficient `k` of `a` times `b`. -/
def polyMul (a b : List Nat) : List Nat :=
  let n := 1024
  let br := b.reverse
  -- Coefficient k is the sum of a_i b_(k-i) for i at most k, less the sum of a_i b_(n+k-i) for i above k.
  (List.range n).map (fun k =>
    let lo := ((a.take (k + 1)).zip (br.drop (n - 1 - k))).foldl (fun v p => v + p.1 * p.2) 0
    let hi := ((a.drop (k + 1)).zip br).foldl (fun v p => v + p.1 * p.2) 0
    (lo + (falconQ - hi % falconQ)) % falconQ)

/-- A coefficient as its representative nearest 0. -/
def centred (x : Nat) : Int := if x ≤ falconQ / 2 then (x : Int) else (x : Int) - falconQ

/-- Falcon-1024 verification (R327): the header and length of the signature, s1 = c − s2 h, and the norm bound 70,265,242. -/
def falconVerify (pk msg sig : List Byte) : Bool :=
  if sig.length < 42 ∨ 1462 < sig.length ∨ sig.headD 0 ≠ 0x3A#8 then false
  else match falconPub pk, falconS2 1024 ((sig.drop 41).flatMap bitsMsb) with
    | some h, some s2 =>
      let c := hashPoint 8192 (shake256 16384 ((sig.drop 1).take 40 ++ msg))
      let s2q := s2.map (fun x => (x % (falconQ : Int)).toNat)
      let s1 := ((c.take 1024).zip (polyMul s2q h)).map (fun p => centred ((p.1 + (falconQ - p.2)) % falconQ))
      let norm := fun (l : List Int) => l.foldl (fun (v : Int) x => v + x * x) (0 : Int)
      decide ((c.take 1024).length = 1024) && decide (norm s1 + norm s2 ≤ 70265242)
    | _, _ => false

/-- A private key's f, g and F: header 0x5A, 5-bit coefficients for f and g and 8-bit ones for F, the most negative unused. -/
def falconPriv (sk : List Byte) : Option (List Nat × List Nat) :=
  if sk.length = 2305 ∧ sk.headD 0 = 0x5A#8 then
    let f := fieldsOf 5 1024 (((sk.drop 1).take 640).flatMap bitsMsb)
    let g := fieldsOf 5 1024 (((sk.drop 641).take 640).flatMap bitsMsb)
    let q := fun (x : Nat) => (Word.signed 5 x % (falconQ : Int)).toNat
    if f.all (· ≠ 16) && g.all (· ≠ 16) && ((sk.drop 1281).all (· ≠ 0x80#8)) then some (f.map q, g.map q) else none
  else none

/-- Whether a private key matches its public key: f h = g modulo 12,289 (R335, reason 4). -/
def falconPair (sk pk : List Byte) : Bool :=
  match falconPriv sk, falconPub pk with
  | some (f, g), some h => polyMul f h == g
  | _, _ => false

/-- KEY_HASH of a public key: its 32-byte SHAKE256 (R336). -/
def keyHash (pk : List Byte) : List Byte := shake256 32 pk

end Sys2Proof.Machine
end

