-- ==== Sys2Proof/Machine/Compress.lean ====
section
/-!
DEFINITION. The two codecs of the compression engines and their blocks (R381–R390): raw DEFLATE decoding (RFC 1951), the column
page codec, and the block header and trailer. What the DEFLATE compressor writes at levels 1 and 2 is a free function of its
arguments that decodes back to its input (R382, R383, Assumption 12).
-/
namespace Sys2Proof.Machine
open Sys2Proof

/-! ## Bits in stream order -/

/-- The bits of a byte, least significant first. -/
def bitsLsb (b : Byte) : List Bool := (List.range 8).map (fun i => b.getLsbD i)

/-- The number a bit list spells, least significant first. -/
def bitsNum : List Bool → Nat
  | [] => 0
  | b :: r => (if b then 1 else 0) + 2 * bitsNum r

/-- `n` bits read as a number, least significant first, and the rest. -/
def readBits (n : Nat) (l : List Bool) : Option (Nat × List Bool) :=
  if l.length < n then none else some (bitsNum (l.take n), l.drop n)

/-- `n` low bits of a number, least significant first. -/
def numBits : Nat → Nat → List Bool
  | 0, _ => []
  | n + 1, v => (v % 2 == 1) :: numBits n (v / 2)

/-- Bits packed into bytes, least significant first, the last byte filled with zeros. -/
def packBits : Nat → List Bool → List Byte
  | 0, _ => []
  | n + 1, l => BitVec.ofNat 8 (bitsNum (l.take 8)) :: packBits n (l.drop 8)

/-- A bit list as bytes. -/
def bitsToBytes (l : List Bool) : List Byte := packBits (Word.ceilDiv l.length 8) l

/-! ## DEFLATE decoding (R383) -/

/-- A canonical Huffman code: (length, code, symbol), by length and then symbol. -/
def huffTable (lens : List Nat) : List (Nat × Nat × Nat) :=
  let syms := fun (l : Nat) => (lens.zipIdx.filter (fun p => p.1 == l)).map Prod.snd
  ((List.range 15).foldl (fun (t : Nat × List (Nat × Nat × Nat)) i =>
    let l := i + 1
    let ss := syms l
    let first := t.1 * 2
    (first + ss.length, t.2 ++ ss.zipIdx.map (fun p => (l, first + p.2, p.1)))) (0, [])).2

/-- Whether a set of code lengths is over-subscribed. -/
def huffOver (lens : List Nat) : Bool :=
  decide (2 ^ 15 < lens.foldl (fun v l => if l = 0 then v else v + 2 ^ (15 - l)) 0)

/-- One symbol decoded: bits join the code most significant first until a code matches. -/
def huffRead (t : List (Nat × Nat × Nat)) : Nat → Nat → Nat → List Bool → Option (Nat × List Bool)
  | 0, _, _, _ => none
  | _ + 1, _, _, [] => none
  | n + 1, len, code, b :: r =>
    let c := 2 * code + (if b then 1 else 0)
    match t.find? (fun e => e.1 == len + 1 && e.2.1 == c) with
    | some e => some (e.2.2, r)
    | none => huffRead t n (len + 1) c r

/-- The base and extra bits of the length codes 257–285. -/
def lenCodes : List (Nat × Nat) := [
  (3, 0), (4, 0), (5, 0), (6, 0), (7, 0), (8, 0), (9, 0), (10, 0), (11, 1), (13, 1), (15, 1), (17, 1), (19, 2), (23, 2),
  (27, 2), (31, 2), (35, 3), (43, 3), (51, 3), (59, 3), (67, 4), (83, 4), (99, 4), (115, 4), (131, 5), (163, 5), (195, 5),
  (227, 5), (258, 0)]

/-- The base and extra bits of the distance codes 0–29. -/
def distCodes : List (Nat × Nat) := [
  (1, 0), (2, 0), (3, 0), (4, 0), (5, 1), (7, 1), (9, 2), (13, 2), (17, 3), (25, 3), (33, 4), (49, 4), (65, 5), (97, 5),
  (129, 6), (193, 6), (257, 7), (385, 7), (513, 8), (769, 8), (1025, 9), (1537, 9), (2049, 10), (3073, 10), (4097, 11),
  (6145, 11), (8193, 12), (12289, 12), (16385, 13), (24577, 13)]

/-- A match copied `n` bytes from `d` back; the output is held newest first. -/
def copyBack (d : Nat) : Nat → List Byte → List Byte
  | 0, out => out
  | n + 1, out => copyBack d n (out.getD (d - 1) 0 :: out)

/-- The symbols of one compressed block, up to its end code. -/
def inflateSyms (lt dt : List (Nat × Nat × Nat)) : Nat → List Byte → List Bool → Option (List Byte × List Bool)
  | 0, _, _ => none
  | n + 1, out, bits =>
    match huffRead lt 15 0 0 bits with
    | none => none
    | some (sym, r) =>
      if sym < 256 then inflateSyms lt dt n (BitVec.ofNat 8 sym :: out) r
      else if sym = 256 then some (out, r)
      else match lenCodes[sym - 257]? with
        | none => none
        | some (lb, le) =>
          match readBits le r with
          | none => none
          | some (lx, r1) =>
            match huffRead dt 15 0 0 r1 with
            | none => none
            | some (ds, r2) =>
              match distCodes[ds]? with
              | none => none
              | some (db, de) =>
                match readBits de r2 with
                | none => none
                | some (dx, r3) =>
                  if out.length < db + dx then none
                  else inflateSyms lt dt n (copyBack (db + dx) (lb + lx) out) r3

/-- The code lengths of a dynamic block, read with the code length code. -/
def readLens (t : List (Nat × Nat × Nat)) : Nat → Nat → List Nat → List Bool → Option (List Nat × List Bool)
  | 0, _, _, _ => none
  | n + 1, want, acc, bits =>
    if want ≤ acc.length then (if acc.length = want then some (acc, bits) else none)
    else match huffRead t 15 0 0 bits with
      | none => none
      | some (s, r) =>
        if s < 16 then readLens t n want (acc ++ [s]) r
        else
          let (eb, base) := if s = 16 then (2, 3) else if s = 17 then (3, 3) else (7, 11)
          match readBits eb r with
          | none => none
          | some (x, r1) =>
            if s = 16 ∧ acc.isEmpty then none
            else
              let v := if s = 16 then acc.getLastD 0 else 0
              readLens t n want (acc ++ List.replicate (base + x) v) r1

/-- The order in which the code length code's lengths are sent. -/
def lenOrder : List Nat := [16, 17, 18, 0, 8, 7, 9, 6, 10, 5, 11, 4, 12, 3, 13, 2, 14, 1, 15]

/-- The length and distance codes of a dynamic block. -/
def dynCodes (bits : List Bool) : Option (List Nat × List Nat × List Bool) :=
  match readBits 14 bits with
  | none => none
  | some (h, r) =>
    let hlit := h % 32 + 257
    let hdist := h / 32 % 32 + 1
    let hclen := h / 1024 + 4
    if r.length < 3 * hclen then none
    else
      let cl := (List.range 19).map (fun s =>
        match lenOrder.idxOf? s with
        | some i => if i < hclen then bitsNum ((r.drop (3 * i)).take 3) else 0
        | none => 0)
      if huffOver cl then none
      else match readLens (huffTable cl) 400 (hlit + hdist) [] (r.drop (3 * hclen)) with
        | none => none
        | some (ls, r1) => some (ls.take hlit, ls.drop hlit, r1)

/-- The fixed code lengths. -/
def fixedLens : List Nat :=
  List.replicate 144 8 ++ List.replicate 112 9 ++ List.replicate 24 7 ++ List.replicate 8 8

/-- The blocks of a DEFLATE stream of `total` bits; the output newest first, and the bits left after the final block. -/
def inflateBlocks (total : Nat) : Nat → List Byte → List Bool → Option (List Byte × List Bool)
  | 0, _, _ => none
  | n + 1, out, bits =>
    match readBits 3 bits with
    | none => none
    | some (h, r) =>
      let last := h % 2 == 1
      let body : Option (List Byte × List Bool) :=
        if h / 2 = 0 then
          let r1 := r.drop (r.length % 8)
          match readBits 32 r1 with
          | none => none
          | some (v, r2) =>
            let len := v % 65536
            if v / 65536 ≠ 65535 - len ∨ r2.length < 8 * len then none
            else some ((packBits len r2).reverse ++ out, r2.drop (8 * len))
        else if h / 2 = 1 then inflateSyms (huffTable fixedLens) (huffTable (List.replicate 30 5)) (total + 1) out r
        else if h / 2 = 2 then
          match dynCodes r with
          | none => none
          | some (ll, dl, r1) =>
            if huffOver ll || huffOver dl then none
            else inflateSyms (huffTable ll) (huffTable dl) (total + 1) out r1
        else none
      match body with
      | none => none
      | some (o, r1) => if last then some (o, r1) else inflateBlocks total n o r1

/-- A raw DEFLATE stream decoded; none where it is invalid or bytes are left over (R383). -/
def inflate (bs : List Byte) : Option (List Byte) :=
  let bits := bs.flatMap bitsLsb
  match inflateBlocks bits.length (bits.length + 1) [] bits with
  | some (o, r) => if r.length < 8 then some o.reverse else none
  | none => none

/-- Stored blocks of at most 65,535 bytes (R383, level 0). -/
def deflateStored : Nat → List Byte → List Byte
  | 0, _ => []
  | n + 1, bs =>
    let part := bs.take 65535
    let last := bs.length ≤ 65535
    [if last then 1#8 else 0#8] ++ Word.leBytes 2 part.length ++ Word.leBytes 2 (65535 - part.length) ++ part ++
      (if last then [] else deflateStored n (bs.drop 65535))

/-- The compressor's stream for a level (R382, R383): any stream within the bound that decodes to the input, a function of
its arguments; stored blocks at level 0. -/
def deflate (level : Nat) (bs : List Byte) : List Byte :=
  let stored := deflateStored (bs.length / 65535 + 1) bs
  let c := Config.deflate level bs
  if level = 0 then stored
  else if c.length ≤ bs.length + 5 * Word.ceilDiv bs.length 65535 ∧ inflate c = some bs then c else stored

/-! ## The column page codec (R384, R385) -/

/-- Little-endian 64-bit words of an input whose length is a multiple of 8. -/
def words64 : Nat → List Byte → List Nat
  | 0, _ => []
  | n + 1, bs => Word.leValue (bs.take 8) :: words64 n (bs.drop 8)

/-- The zigzag value of a difference modulo 2^64. -/
def zigzag (d : Nat) : Nat := if d < 2 ^ 63 then 2 * d else 2 ^ 65 - 1 - 2 * d

/-- The difference a zigzag value stands for. -/
def unzigzag (z : Nat) : Nat := if z % 2 = 0 then z / 2 else 2 ^ 64 - 1 - z / 2

/-- The differences of a group, each from the word before it. -/
def diffs : Nat → List Nat → List Nat
  | _, [] => []
  | prev, w :: r => (w + 2 ^ 64 - prev) % 2 ^ 64 :: diffs w r

/-- One group encoded: the first mode that R385 admits. -/
def pageGroup (prev : Nat) (ws : List Nat) : List Byte :=
  let ds := diffs prev ws
  let zs := ds.map zigzag
  let b := zs.foldl (fun v z => max v (if z = 0 then 0 else Nat.log2 z + 1)) 0
  if ws.all (· == 0) then [0x00#8]
  else if ds.all (· == 0) then [0x40#8]
  else if b ≤ 63 then BitVec.ofNat 8 (0x80 + b) :: bitsToBytes (zs.flatMap (numBits b))
  else 0xC0#8 :: ws.flatMap (Word.leBytes 8)

/-- The page codec over whole groups of 16 words. -/
def pageEncGroups : Nat → Nat → List Nat → List Byte
  | 0, _, _ => []
  | n + 1, prev, ws =>
    if ws.isEmpty then []
    else pageGroup prev (ws.take 16) ++ pageEncGroups n ((ws.take 16).getLastD 0) (ws.drop 16)

/-- The column page codec's encoding of an input. -/
def pageEncode (bs : List Byte) : List Byte :=
  let n := bs.length / 8
  pageEncGroups (n / 16 + 1) 0 (words64 n bs)

/-- The words a DELTA group's zigzag values give, in turn. -/
def undelta : Nat → List Nat → List Nat
  | _, [] => []
  | prev, z :: r => let w := (prev + unzigzag z) % 2 ^ 64; w :: undelta w r

/-- One value of `b` bits after another. -/
def unpack (b : Nat) : Nat → List Bool → List Nat
  | 0, _ => []
  | n + 1, l => bitsNum (l.take b) :: unpack b n (l.drop b)

/-- The page codec decoded: `words` still to produce. None is STREAM_BAD. -/
def pageDecGroups : Nat → Nat → Nat → List Byte → Option (List Nat)
  | 0, _, _, _ => none
  | n + 1, words, prev, bs =>
    if words = 0 then (if bs.isEmpty then some [] else none)
    else match bs with
      | [] => none
      | c :: r =>
        let m := min 16 words
        let b := c.toNat % 64
        let len := if c.toNat / 64 = 2 then Word.ceilDiv (m * b) 8 else if c.toNat / 64 = 3 then 8 * m else 0
        let okB := if c.toNat / 64 = 2 then decide (1 ≤ b) else decide (b = 0)
        if !okB || decide (r.length < len) then none
        else
          let ws := match c.toNat / 64 with
            | 0 => List.replicate m 0
            | 1 => List.replicate m prev
            | 2 => undelta prev (unpack b m ((r.take len).flatMap bitsLsb))
            | _ => words64 m r
          (pageDecGroups n (words - m) (ws.getLastD 0) (r.drop len)).map (fun t => ws ++ t)

/-- The column page codec's decoding to `orig` bytes. -/
def pageDecode (orig : Nat) (bs : List Byte) : Option (List Byte) :=
  if orig % 8 ≠ 0 then none
  else (pageDecGroups (orig / 128 + 2) (orig / 8) 0 bs).map (fun ws => ws.flatMap (Word.leBytes 8))

/-! ## Blocks (R381) -/

/-- A codec's payload for an input: KIND 1 DEFLATE at a level, KIND 2 the page codec. -/
def codecEncode (kind level : Nat) (bs : List Byte) : List Byte := if kind = 2 then pageEncode bs else deflate level bs

/-- A block: header, payload padded to a multiple of 8, trailer (R381). -/
def cmpBlock (kind level flags : Nat) (bs : List Byte) : List Byte :=
  let p := codecEncode kind level bs
  let head := Word.leBytes 2 kind ++ Word.leBytes 2 flags ++ Word.leBytes 4 bs.length ++ Word.leBytes 4 p.length ++
    Word.leBytes 4 0
  let body := head ++ p ++ List.replicate ((8 - p.length % 8) % 8) 0
  body ++ Word.leBytes 4 (crc32c bs) ++ Word.leBytes 4 (crc32c body)

/-- What decoding one block gives: its output, or the failure with CHECK_KIND, EXPECTED and FOUND (R387). -/
inductive BlockDec where
  | ok (out : List Byte) (used : Nat) (final : Bool)
  | short
  | bad
  | check (kind expected found : Nat)
  deriving DecidableEq, Repr

/-- A block decoded in the order of R387. The decoder stops at ORIG_LEN bytes. -/
def decodeBlock (kind : Nat) (bs : List Byte) : BlockDec :=
  if bs.length < 16 then .short
  else
    let f := fun o n => Word.leValue ((bs.drop o).take n)
    let comp := f 8 4
    let padded := comp + (8 - comp % 8) % 8
    let orig := f 4 4
    if bs.length < 16 + padded + 8 then .short
    else
      let bcrc := crc32c (bs.take (16 + padded))
      let held := f (16 + padded + 4) 4
      if bcrc ≠ held then .check 3 held bcrc
      else if !(f 0 2 == 1 || f 0 2 == 2) || (kind ≠ 0 && f 0 2 ≠ kind) || 3 < f 2 2 || orig = 0 || f 12 4 ≠ 0 ||
          (f 0 2 == 2 && orig % 8 ≠ 0) then .bad
      else
        let payload := (bs.drop 16).take comp
        match (if f 0 2 = 1 then inflate payload else pageDecode orig payload) with
        | none => .bad
        | some out0 =>
          let out := out0.take orig
          if out.length ≠ orig then .check 1 orig out.length
          else
            let crc := crc32c out
            let heldO := f (16 + padded) 4
            if crc ≠ heldO then .check 2 heldO crc
            else .ok out (16 + padded + 8) (Word.bit 0 (f 2 2))

end Sys2Proof.Machine
end

