-- ==== Sys2Proof/Machine/RegTable.lean ====
section
/-!
DEFINITION. The register page directory (R505), the page table of every block (R500 and the page tables of each chapter) and
the access masks and reset values of every register word, as the tables of the spec give them.
-/
namespace Sys2Proof.Machine

/-- The blocks that have register pages (R505), in the order of the directory. -/
inductive Blk where
  | moddir
  | modid
  | modctl
  | pwr
  | hep
  | qeng
  | cue
  | commit
  | pbook
  | rehearse
  | strike
  | wing
  | wpeer
  | wwin
  | company
  | irtr
  | clu
  | l2
  | disp
  | cic
  | dig
  | fcodec
  | core
  | memc
  | memt
  | scan
  | probe
  | lsu
  | cam
  | cmp
  | dma
  | keys
  | mgmt
  | flash
  | qctx
  deriving DecidableEq, Repr

/-- One row of the directory (R505): the block, its type code and where its instances lie. -/
structure DirRow where
  blk : Blk
  typ : Nat
  first : Nat
  run : Nat
  step : Nat
  groups : Nat
  gstride : Nat
  deriving DecidableEq, Repr

/-- The 35 rows of the directory, in ascending FIRST (R505, R506). -/
def directory : List DirRow := [
  ⟨.moddir, 0x0001, 0x000, 1, 0, 1, 0x0⟩,
  ⟨.modid, 0x0002, 0x001, 1, 0, 1, 0x0⟩,
  ⟨.modctl, 0x0003, 0x002, 1, 0, 1, 0x0⟩,
  ⟨.pwr, 0x0004, 0x003, 1, 0, 1, 0x0⟩,
  ⟨.hep, 0x0010, 0x008, 1, 0, 1, 0x0⟩,
  ⟨.qeng, 0x0011, 0x010, 1, 0, 1, 0x0⟩,
  ⟨.cue, 0x0020, 0x020, 1, 0, 1, 0x0⟩,
  ⟨.commit, 0x0021, 0x021, 1, 0, 1, 0x0⟩,
  ⟨.pbook, 0x0022, 0x022, 1, 0, 1, 0x0⟩,
  ⟨.rehearse, 0x0023, 0x023, 1, 0, 1, 0x0⟩,
  ⟨.strike, 0x0024, 0x024, 1, 0, 1, 0x0⟩,
  ⟨.wing, 0x0030, 0x030, 4, 4, 1, 0x0⟩,
  ⟨.wpeer, 0x0031, 0x031, 4, 4, 1, 0x0⟩,
  ⟨.wwin, 0x0032, 0x032, 4, 4, 1, 0x0⟩,
  ⟨.company, 0x0033, 0x033, 1, 0, 1, 0x0⟩,
  ⟨.irtr, 0x0040, 0x040, 1, 0, 1, 0x0⟩,
  ⟨.clu, 0x0100, 0x100, 1, 0, 12, 0x20⟩,
  ⟨.l2, 0x0101, 0x101, 1, 0, 12, 0x20⟩,
  ⟨.disp, 0x0102, 0x102, 1, 0, 12, 0x20⟩,
  ⟨.cic, 0x0103, 0x103, 1, 0, 12, 0x20⟩,
  ⟨.dig, 0x0104, 0x104, 2, 1, 12, 0x20⟩,
  ⟨.fcodec, 0x0105, 0x106, 1, 0, 12, 0x20⟩,
  ⟨.core, 0x0106, 0x110, 16, 1, 12, 0x20⟩,
  ⟨.memc, 0x0200, 0x280, 22, 4, 1, 0x0⟩,
  ⟨.memt, 0x0201, 0x281, 22, 4, 1, 0x0⟩,
  ⟨.scan, 0x0202, 0x282, 22, 4, 1, 0x0⟩,
  ⟨.probe, 0x0203, 0x283, 22, 4, 1, 0x0⟩,
  ⟨.lsu, 0x0210, 0x2E0, 8, 1, 1, 0x0⟩,
  ⟨.cam, 0x0211, 0x2E8, 2, 1, 1, 0x0⟩,
  ⟨.cmp, 0x0212, 0x2EA, 4, 1, 1, 0x0⟩,
  ⟨.dma, 0x0213, 0x2F0, 8, 1, 1, 0x0⟩,
  ⟨.keys, 0x0220, 0x2F8, 1, 0, 1, 0x0⟩,
  ⟨.mgmt, 0x0221, 0x2F9, 1, 0, 1, 0x0⟩,
  ⟨.flash, 0x0222, 0x2FA, 1, 0, 1, 0x0⟩,
  ⟨.qctx, 0x0012, 0x400, 1, 0, 1024, 0x1⟩]

/-- One word of a block's page, or a run of equal words `stride` bytes apart: the bits software writes (`rw`), clears by
writing one (`w1c`) or writes without reading back (`wo`), and the Reset column. A bit in none of the masks is read-only. -/
structure RegRow where
  off : Nat
  count : Nat
  stride : Nat
  rw : Nat
  w1c : Nat
  wo : Nat
  reset : Nat
  deriving DecidableEq, Repr

/-- The words every populated page begins with (R500). -/
def commonRows : List RegRow := [
  ⟨0x000, 1, 4, 0x0, 0x0, 0x0, 0x1⟩,
  ⟨0x004, 1, 4, 0x0, 0x0, 0x0, 0x0⟩,
  ⟨0x010, 1, 4, 0x0, 0xFFFFFFFF, 0x0, 0x0⟩,
  ⟨0x014, 1, 4, 0xFFFFFFFF, 0x0, 0x0, 0x0⟩,
  ⟨0x018, 1, 4, 0x0, 0x0, 0x0, 0x0⟩,
  ⟨0x01C, 1, 4, 0x0, 0x0, 0xFFFFFFFF, 0x0⟩,
  ⟨0x020, 1, 4, 0x0, 0x0, 0x0, 0x0⟩,
  ⟨0x024, 3, 4, 0x0, 0x0, 0x0, 0x0⟩,
  ⟨0x030, 1, 4, 0x0, 0x0, 0xFFFFFFFF, 0x0⟩,
  ⟨0x034, 1, 4, 0x0, 0x0, 0x0, 0x0⟩,
  ⟨0x038, 1, 4, 0x0, 0x0, 0x1, 0x0⟩,
  ⟨0x03C, 1, 4, 0x0, 0x0, 0x0, 0x0⟩]

/-- The page table of the MODDIR block, and its CTL and STAT words where its chapter gives them. -/
def rowsModdir : List RegRow := []

/-- The page table of the MODID block, and its CTL and STAT words where its chapter gives them. -/
def rowsModid : List RegRow := [
  ⟨0x040, 1, 4, 0x0, 0x0, 0x0, 0x9192B002⟩,
  ⟨0x044, 1, 4, 0x0, 0x0, 0x0, 0x0⟩,
  ⟨0x048, 1, 4, 0x0, 0x0, 0x0, 0x0⟩,
  ⟨0x04C, 1, 4, 0x0, 0x0, 0x0, 0x0⟩]

/-- The page table of the MODCTL block, and its CTL and STAT words where its chapter gives them. -/
def rowsModctl : List RegRow := [
  ⟨0x008, 1, 4, 0x0, 0x0, 0x2, 0x1⟩,
  ⟨0x00C, 1, 4, 0x0, 0x0, 0x0, 0x1⟩,
  ⟨0x040, 1, 4, 0x0, 0x0, 0xFFFF, 0x0⟩,
  ⟨0x044, 1, 4, 0x0, 0x0, 0x0, 0x0⟩,
  ⟨0x048, 1, 4, 0x0, 0x0, 0x0, 0x0⟩,
  ⟨0x04C, 1, 4, 0x0, 0x0, 0x0, 0x0⟩,
  ⟨0x050, 1, 4, 0x0, 0x0, 0x0, 0x0⟩,
  ⟨0x054, 1, 4, 0x0, 0x0, 0x0, 0x0⟩,
  ⟨0x058, 1, 4, 0x0, 0x0, 0x0, 0x0⟩,
  ⟨0x05C, 1, 4, 0x0, 0x0, 0x0, 0x0⟩,
  ⟨0x060, 1, 4, 0x0, 0x0, 0x0, 0x0⟩,
  ⟨0x064, 1, 4, 0x0, 0x0, 0x0, 0x0⟩,
  ⟨0x068, 1, 4, 0x0, 0x0, 0x0, 0x0⟩]

/-- The page table of the PWR block, and its CTL and STAT words where its chapter gives them. -/
def rowsPwr : List RegRow := [
  ⟨0x008, 1, 4, 0x0, 0x0, 0x2, 0x1⟩,
  ⟨0x00C, 1, 4, 0x0, 0x0, 0x0, 0x2⟩,
  ⟨0x040, 1, 4, 0x1, 0x0, 0x0, 0x0⟩,
  ⟨0x044, 1, 4, 0x0, 0x0, 0x0, 0x0⟩,
  ⟨0x048, 1, 4, 0x0, 0x0, 0x0, 0x0⟩,
  ⟨0x04C, 1, 4, 0x0, 0x0, 0x0, 0x0⟩,
  ⟨0x050, 1, 4, 0x0, 0x0, 0x0, 0x0⟩,
  ⟨0x054, 1, 4, 0x0, 0x0, 0x0, 0x0⟩,
  ⟨0x058, 1, 4, 0x0, 0x0, 0x0, 0x0⟩]

/-- The page table of the HEP block, and its CTL and STAT words where its chapter gives them. -/
def rowsHep : List RegRow := [
  ⟨0x008, 1, 4, 0x0, 0x0, 0x2, 0x1⟩,
  ⟨0x00C, 1, 4, 0x0, 0x0, 0x0, 0x1⟩,
  ⟨0x040, 1, 4, 0x0, 0x0, 0x0, 0x0⟩,
  ⟨0x044, 1, 4, 0x0, 0x0, 0x80000000, 0x0⟩,
  ⟨0x048, 1, 4, 0x1FFFF, 0x0, 0x0, 0x1F4⟩,
  ⟨0x04C, 1, 4, 0x0, 0x0, 0x0, 0x0⟩,
  ⟨0x050, 1, 4, 0x0, 0x0, 0x0, 0x0⟩,
  ⟨0x054, 1, 4, 0x0, 0x0, 0x0, 0x200000⟩,
  ⟨0x058, 1, 4, 0xFFFFFFFF, 0x0, 0x0, 0x0⟩,
  ⟨0x05C, 1, 4, 0xFFFF, 0x0, 0x0, 0x0⟩,
  ⟨0x060, 1, 4, 0xFF, 0x0, 0x0, 0x0⟩,
  ⟨0x064, 1, 4, 0x0, 0x0, 0x0, 0x0⟩,
  ⟨0x400, 1, 4, 0x7FF, 0x0, 0x0, 0x400⟩]

/-- The page table of the QENG block, and its CTL and STAT words where its chapter gives them. -/
def rowsQeng : List RegRow := [
  ⟨0x008, 1, 4, 0x0, 0x0, 0x2, 0x1⟩,
  ⟨0x00C, 1, 4, 0x0, 0x0, 0x0, 0x1⟩,
  ⟨0x040, 1, 4, 0x8000001F, 0x0, 0x0, 0x4⟩,
  ⟨0x044, 6, 4, 0xFFFFFFFF, 0x0, 0x0, 0x0⟩,
  ⟨0x05C, 1, 4, 0xFFFFFFFF, 0x0, 0x0, 0x0⟩,
  ⟨0x060, 1, 4, 0xFFFF, 0x0, 0x0, 0x0⟩,
  ⟨0x064, 1, 4, 0x3F, 0x0, 0x0, 0xC⟩,
  ⟨0x068, 1, 4, 0x0, 0x0, 0x0, 0x0⟩,
  ⟨0x06C, 1, 4, 0x0, 0x0, 0x0, 0x0⟩,
  ⟨0x070, 1, 4, 0x0, 0x0, 0x0, 0x0⟩,
  ⟨0x074, 1, 4, 0x0, 0x0, 0x0, 0x0⟩,
  ⟨0x078, 1, 4, 0x0, 0x0, 0x0, 0x0⟩]

/-- The page table of the CUE block, and its CTL and STAT words where its chapter gives them. -/
def rowsCue : List RegRow := [
  ⟨0x00C, 1, 4, 0x0, 0x0, 0x0, 0x1⟩,
  ⟨0x040, 1, 4, 0xFF, 0x0, 0x0, 0x32⟩,
  ⟨0x044, 1, 4, 0x3FF, 0x0, 0x0, 0xC8⟩,
  ⟨0x048, 1, 4, 0x3FF, 0x0, 0x0, 0x28⟩,
  ⟨0x04C, 1, 4, 0x7F, 0x0, 0x0, 0x4⟩,
  ⟨0x050, 1, 4, 0x3F, 0x0, 0x0, 0x19⟩,
  ⟨0x054, 1, 4, 0x7FF, 0x0, 0x0, 0x10⟩,
  ⟨0x058, 1, 4, 0x0, 0x0, 0x0, 0x0⟩,
  ⟨0x05C, 1, 4, 0x0, 0x0, 0x0, 0x0⟩,
  ⟨0x060, 1, 4, 0x0, 0x0, 0x0, 0x0⟩,
  ⟨0x064, 1, 4, 0x0, 0x0, 0x0, 0x0⟩,
  ⟨0x068, 1, 4, 0x0, 0x0, 0x0, 0x0⟩,
  ⟨0x06C, 1, 4, 0x0, 0x0, 0x0, 0x0⟩,
  ⟨0x070, 1, 4, 0x0, 0x0, 0x0, 0x0⟩,
  ⟨0x400, 1, 4, 0xFF, 0x0, 0x0, 0xA⟩,
  ⟨0x404, 1, 4, 0x0, 0x0, 0x0, 0x0⟩]

/-- The page table of the COMMIT block, and its CTL and STAT words where its chapter gives them. -/
def rowsCommit : List RegRow := [
  ⟨0x040, 1, 4, 0x0, 0x0, 0x0, 0x0⟩,
  ⟨0x044, 1, 4, 0x0, 0x0, 0x0, 0x0⟩,
  ⟨0x048, 1, 4, 0x0, 0x0, 0x0, 0x0⟩,
  ⟨0x04C, 1, 4, 0x0, 0x0, 0x0, 0x0⟩,
  ⟨0x050, 1, 4, 0x0, 0x0, 0x0, 0x0⟩,
  ⟨0x054, 1, 4, 0x0, 0x0, 0x0, 0x0⟩,
  ⟨0x058, 1, 4, 0x0, 0x0, 0x0, 0x0⟩,
  ⟨0x05C, 1, 4, 0x0, 0x0, 0x0, 0x0⟩,
  ⟨0x060, 1, 4, 0x0, 0x0, 0x0, 0x0⟩,
  ⟨0x080, 16, 4, 0x0, 0x0, 0x0, 0x0⟩,
  ⟨0x0C0, 16, 4, 0x0, 0x0, 0x0, 0x0⟩,
  ⟨0x100, 16, 4, 0x0, 0x0, 0x0, 0x0⟩,
  ⟨0x400, 1, 4, 0x0, 0x0, 0x0, 0x0⟩,
  ⟨0x404, 1, 4, 0x0, 0x0, 0x0, 0x0⟩,
  ⟨0x408, 1, 4, 0x0, 0x0, 0x0, 0x0⟩,
  ⟨0x40C, 1, 4, 0x0, 0x0, 0x0, 0x0⟩]

/-- The page table of the PBOOK block, and its CTL and STAT words where its chapter gives them. -/
def rowsPbook : List RegRow := [
  ⟨0x008, 1, 4, 0x0, 0x0, 0x2, 0x1⟩,
  ⟨0x00C, 1, 4, 0x0, 0x0, 0x0, 0x1⟩,
  ⟨0x040, 1, 4, 0x7F, 0x0, 0x0, 0x4⟩,
  ⟨0x044, 1, 4, 0x1FFFF, 0x0, 0x0, 0x0⟩,
  ⟨0x048, 1, 4, 0x0, 0x0, 0x0, 0x0⟩,
  ⟨0x04C, 1, 4, 0x0, 0x0, 0x0, 0x0⟩,
  ⟨0x050, 1, 4, 0x0, 0x0, 0x0, 0x0⟩,
  ⟨0x054, 1, 4, 0x0, 0x0, 0x0, 0x0⟩,
  ⟨0x058, 1, 4, 0x0, 0x0, 0x0, 0x0⟩,
  ⟨0x05C, 1, 4, 0x0, 0x0, 0x0, 0x0⟩,
  ⟨0x060, 1, 4, 0x0, 0x0, 0x0, 0x0⟩,
  ⟨0x064, 1, 4, 0x0, 0x0, 0x0, 0x0⟩,
  ⟨0x068, 1, 4, 0x0, 0x0, 0x0, 0x0⟩,
  ⟨0x06C, 1, 4, 0x0, 0x0, 0x0, 0x0⟩,
  ⟨0x070, 1, 4, 0x0, 0x0, 0x0, 0x0⟩,
  ⟨0x074, 1, 4, 0x0, 0x0, 0x0, 0x0⟩,
  ⟨0x078, 1, 4, 0x0, 0x0, 0x0, 0x0⟩]

/-- The page table of the REHEARSE block, and its CTL and STAT words where its chapter gives them. -/
def rowsRehearse : List RegRow := [
  ⟨0x00C, 1, 4, 0x0, 0x0, 0x0, 0x1⟩,
  ⟨0x040, 1, 4, 0x0, 0x0, 0x0, 0x0⟩,
  ⟨0x044, 1, 4, 0x0, 0x0, 0x0, 0x0⟩,
  ⟨0x048, 1, 4, 0x0, 0x0, 0x0, 0x0⟩,
  ⟨0x04C, 1, 4, 0x0, 0x0, 0x0, 0x0⟩,
  ⟨0x050, 1, 4, 0x0, 0x0, 0x0, 0x0⟩,
  ⟨0x054, 1, 4, 0x0, 0x0, 0x0, 0x0⟩]

/-- The page table of the STRIKE block, and its CTL and STAT words where its chapter gives them. -/
def rowsStrike : List RegRow := [
  ⟨0x00C, 1, 4, 0x0, 0x0, 0x0, 0x1⟩,
  ⟨0x040, 1, 4, 0xFFFFFF, 0x0, 0x0, 0x5A5046⟩,
  ⟨0x044, 1, 4, 0xFF, 0x0, 0x0, 0x10⟩,
  ⟨0x048, 1, 4, 0x0, 0x0, 0x0, 0xC8⟩,
  ⟨0x04C, 1, 4, 0x0, 0x0, 0x0, 0x0⟩,
  ⟨0x050, 1, 4, 0x0, 0x0, 0x0, 0xFFFFFFFF⟩,
  ⟨0x054, 1, 4, 0x0, 0x0, 0x0, 0xFFFFFFFF⟩,
  ⟨0x058, 1, 4, 0x0, 0x0, 0x0, 0x0⟩,
  ⟨0x05C, 1, 4, 0x0, 0x0, 0x0, 0x0⟩,
  ⟨0x060, 1, 4, 0x0, 0x0, 0x0, 0x0⟩,
  ⟨0x064, 1, 4, 0x0, 0x0, 0x0, 0x0⟩,
  ⟨0x068, 1, 4, 0x0, 0x0, 0x0, 0x0⟩,
  ⟨0x400, 1, 4, 0x0, 0x0, 0x0, 0x0⟩,
  ⟨0x404, 1, 4, 0x0, 0x0, 0x0, 0x0⟩,
  ⟨0x408, 1, 4, 0x0, 0x0, 0x0, 0x0⟩]

/-- The page table of the WING block, and its CTL and STAT words where its chapter gives them. -/
def rowsWing : List RegRow := [
  ⟨0x008, 1, 4, 0xF1, 0x0, 0x2, 0x0⟩,
  ⟨0x00C, 1, 4, 0x0, 0x0, 0x0, 0x0⟩,
  ⟨0x040, 1, 4, 0x3FF, 0x0, 0x0, 0xA⟩,
  ⟨0x044, 1, 4, 0x0, 0x0, 0x0, 0x0⟩,
  ⟨0x048, 1, 4, 0x0, 0x0, 0x0, 0x0⟩,
  ⟨0x04C, 1, 4, 0x0, 0x0, 0x0, 0x0⟩,
  ⟨0x050, 1, 4, 0x0, 0x0, 0x0, 0x0⟩,
  ⟨0x054, 1, 4, 0x0, 0x0, 0x0, 0x0⟩,
  ⟨0x058, 1, 4, 0x0, 0x0, 0x0, 0x0⟩,
  ⟨0x05C, 1, 4, 0x0, 0x0, 0x0, 0x0⟩,
  ⟨0x400, 1, 4, 0xF, 0x0, 0x0, 0x4⟩,
  ⟨0x404, 1, 4, 0xF, 0x0, 0x0, 0x8⟩,
  ⟨0x408, 8, 4, 0xFFFFFFFF, 0x0, 0x0, 0x0⟩]

/-- The page table of the WPEER block, and its CTL and STAT words where its chapter gives them. -/
def rowsWpeer : List RegRow := []

/-- The page table of the WWIN block, and its CTL and STAT words where its chapter gives them. -/
def rowsWwin : List RegRow := [
  ⟨0x040, 1, 4, 0xC0000000, 0x0, 0x0, 0x0⟩,
  ⟨0x044, 1, 4, 0xFFFF, 0x0, 0x0, 0x0⟩,
  ⟨0x048, 1, 4, 0x3F, 0x0, 0x0, 0x1E⟩,
  ⟨0x04C, 1, 4, 0xC0000000, 0x0, 0x0, 0x0⟩,
  ⟨0x050, 1, 4, 0xFFFF, 0x0, 0x0, 0x0⟩,
  ⟨0x054, 1, 4, 0x3F, 0x0, 0x0, 0x0⟩]

/-- The page table of the COMPANY block, and its CTL and STAT words where its chapter gives them. -/
def rowsCompany : List RegRow := [
  ⟨0x008, 1, 4, 0xF0, 0x0, 0x2, 0x1⟩,
  ⟨0x00C, 1, 4, 0x0, 0x0, 0x0, 0x1⟩,
  ⟨0x040, 1, 4, 0xFFFFFFFF, 0x0, 0x0, 0x0⟩,
  ⟨0x044, 1, 4, 0xFFFFFFFF, 0x0, 0x0, 0x0⟩,
  ⟨0x048, 1, 4, 0x303, 0x0, 0x0, 0x0⟩,
  ⟨0x04C, 1, 4, 0x3, 0x0, 0x0, 0x0⟩,
  ⟨0x050, 1, 4, 0x0, 0x0, 0x0, 0x0⟩,
  ⟨0x054, 1, 4, 0x0, 0x0, 0x0, 0x0⟩,
  ⟨0x058, 1, 4, 0x0, 0x0, 0x0, 0x0⟩,
  ⟨0x05C, 1, 4, 0x0, 0x0, 0x0, 0x0⟩,
  ⟨0x060, 1, 4, 0x0, 0x0, 0x0, 0x0⟩,
  ⟨0x064, 1, 4, 0x0, 0x0, 0x0, 0x0⟩,
  ⟨0x400, 64, 4, 0xFFFFFFFF, 0x0, 0x0, 0x0⟩]

/-- The page table of the IRTR block, and its CTL and STAT words where its chapter gives them. -/
def rowsIrtr : List RegRow := [
  ⟨0x00C, 1, 4, 0x0, 0x0, 0x0, 0x2⟩,
  ⟨0x040, 4, 4, 0x0, 0xFFFFFFFF, 0x0, 0x0⟩,
  ⟨0x060, 12, 4, 0x0, 0x0, 0x0, 0x0⟩,
  ⟨0x0C0, 1, 4, 0xFFFFFFFF, 0x0, 0x0, 0xA0A0A0A⟩,
  ⟨0x0C4, 1, 4, 0xFFFFFFFF, 0x0, 0x0, 0xA0A0A0A⟩,
  ⟨0x100, 128, 4, 0x8F000FFF, 0x0, 0x0, 0x0⟩]

/-- The page table of the CLU block, and its CTL and STAT words where its chapter gives them. -/
def rowsClu : List RegRow := [
  ⟨0x008, 1, 4, 0xF1, 0x0, 0x2, 0x0⟩,
  ⟨0x00C, 1, 4, 0x0, 0x0, 0x0, 0x0⟩,
  ⟨0x040, 1, 4, 0x0, 0x0, 0x0, 0x0⟩,
  ⟨0x044, 1, 4, 0x0, 0x0, 0x0, 0x0⟩,
  ⟨0x048, 1, 4, 0x0, 0x0, 0x0, 0x0⟩,
  ⟨0x04C, 1, 4, 0x0, 0x0, 0x0, 0x0⟩,
  ⟨0x400, 1, 4, 0xFFFFF000, 0x0, 0x0, 0x0⟩,
  ⟨0x404, 1, 4, 0xFFFF, 0x0, 0x0, 0x0⟩,
  ⟨0x408, 1, 4, 0xFFFFFFFC, 0x0, 0x0, 0x0⟩,
  ⟨0x40C, 1, 4, 0xFFFF, 0x0, 0x0, 0x0⟩,
  ⟨0x410, 1, 4, 0x0, 0x0, 0xFFFF, 0x0⟩,
  ⟨0x414, 1, 4, 0x3, 0x0, 0x0, 0x0⟩]

/-- The page table of the L2 block, and its CTL and STAT words where its chapter gives them. -/
def rowsL2 : List RegRow := [
  ⟨0x008, 1, 4, 0x1, 0x0, 0x2, 0x1⟩,
  ⟨0x00C, 1, 4, 0x0, 0x0, 0x0, 0x2⟩,
  ⟨0x040, 1, 4, 0xF, 0x0, 0x0, 0x0⟩,
  ⟨0x044, 1, 4, 0x3C0F0FFF, 0x0, 0x80000000, 0x0⟩,
  ⟨0x048, 1, 4, 0xFFFFFF80, 0x0, 0x0, 0x0⟩,
  ⟨0x04C, 1, 4, 0xFFFF, 0x0, 0x0, 0x0⟩,
  ⟨0x050, 1, 4, 0xFFFF, 0x0, 0x0, 0xACE1ACE1⟩,
  ⟨0x054, 1, 4, 0x0, 0x0, 0x0, 0x0⟩,
  ⟨0x058, 1, 4, 0x0, 0x0, 0x0, 0x0⟩,
  ⟨0x05C, 1, 4, 0x0, 0x0, 0x0, 0x0⟩,
  ⟨0x060, 1, 4, 0x0, 0x0, 0x0, 0x0⟩,
  ⟨0x064, 1, 4, 0x0, 0x0, 0x0, 0x0⟩,
  ⟨0x400, 1, 4, 0xFFF, 0x0, 0x0, 0x0⟩,
  ⟨0x404, 1, 4, 0xFFFFFF80, 0x0, 0x0, 0x0⟩,
  ⟨0x408, 1, 4, 0xFFFF, 0x0, 0x0, 0x0⟩,
  ⟨0x40C, 1, 4, 0xF1FFF, 0x0, 0x80000000, 0x1000⟩]

/-- The page table of the DISP block, and its CTL and STAT words where its chapter gives them. -/
def rowsDisp : List RegRow := [
  ⟨0x008, 1, 4, 0x0, 0x0, 0x2, 0x1⟩,
  ⟨0x00C, 1, 4, 0x0, 0x0, 0x0, 0x201⟩,
  ⟨0x040, 1, 4, 0x1F, 0x0, 0x0, 0xC0C⟩,
  ⟨0x044, 1, 4, 0x7, 0x0, 0x0, 0x1⟩,
  ⟨0x048, 1, 4, 0x0, 0x0, 0xFFFFFFFF, 0x0⟩,
  ⟨0x04C, 1, 4, 0x0, 0x0, 0xFFFF, 0x0⟩,
  ⟨0x050, 1, 4, 0x0, 0x0, 0xFFFFFFFF, 0x0⟩,
  ⟨0x054, 1, 4, 0x0, 0x0, 0x3F, 0x0⟩,
  ⟨0x058, 1, 4, 0x0, 0x0, 0xFFFFFFFF, 0x0⟩,
  ⟨0x05C, 1, 4, 0x0, 0x0, 0xFFFFFFBF, 0x0⟩,
  ⟨0x060, 1, 4, 0x0, 0x0, 0x0, 0x0⟩,
  ⟨0x064, 1, 4, 0x0, 0x0, 0x0, 0x0⟩,
  ⟨0x068, 1, 4, 0x0, 0x0, 0x0, 0x0⟩,
  ⟨0x06C, 1, 4, 0x0, 0x0, 0x0, 0x0⟩,
  ⟨0x070, 1, 4, 0x0, 0x0, 0x0, 0x0⟩,
  ⟨0x074, 1, 4, 0x0, 0x0, 0x0, 0x0⟩,
  ⟨0x400, 64, 32, 0xE7000000, 0x0, 0x0, 0x4000000⟩,
  ⟨0x404, 64, 32, 0xFFFFFFFF, 0x0, 0x0, 0x0⟩,
  ⟨0x408, 64, 32, 0x0, 0xFFFFFFFF, 0x0, 0x0⟩,
  ⟨0x40C, 64, 32, 0xFFFFFFFF, 0x0, 0x0, 0x0⟩,
  ⟨0x410, 64, 32, 0xFFFF, 0x0, 0x0, 0x0⟩,
  ⟨0x414, 64, 32, 0x0, 0x0, 0x0, 0x0⟩]

/-- The page table of the CIC block, and its CTL and STAT words where its chapter gives them. -/
def rowsCic : List RegRow := [
  ⟨0x008, 1, 4, 0x1, 0x0, 0x2, 0x0⟩,
  ⟨0x00C, 1, 4, 0x0, 0x0, 0x0, 0x0⟩,
  ⟨0x040, 1, 4, 0xFFFFF000, 0x0, 0x0, 0x0⟩,
  ⟨0x044, 1, 4, 0xFFFF, 0x0, 0x0, 0x0⟩,
  ⟨0x048, 1, 4, 0x0, 0x0, 0x0, 0x0⟩,
  ⟨0x04C, 1, 4, 0x0, 0x0, 0x0, 0x0⟩,
  ⟨0x050, 1, 4, 0xFFFFFFFF, 0x0, 0x0, 0x0⟩,
  ⟨0x054, 1, 4, 0x7FFFFFFF, 0x0, 0x0, 0x0⟩,
  ⟨0x058, 1, 4, 0x0, 0x0, 0x7FFFFFFF, 0x0⟩,
  ⟨0x05C, 1, 4, 0x0, 0x0, 0x0, 0x0⟩,
  ⟨0x060, 1, 4, 0x0, 0x0, 0x0, 0x0⟩,
  ⟨0x064, 1, 4, 0x0, 0x0, 0x0, 0x0⟩,
  ⟨0x100, 63, 4, 0xFF00FFFF, 0x0, 0x0, 0xFFFF⟩]

/-- The page table of the DIG block, and its CTL and STAT words where its chapter gives them. -/
def rowsDig : List RegRow := [
  ⟨0x008, 1, 4, 0x1, 0x0, 0x102, 0x1⟩,
  ⟨0x00C, 1, 4, 0x0, 0x0, 0x0, 0x1⟩,
  ⟨0x040, 1, 4, 0x0, 0x0, 0xFFFFFFFF, 0x0⟩,
  ⟨0x044, 1, 4, 0x0, 0x0, 0xFFFFFFFF, 0x0⟩,
  ⟨0x048, 1, 4, 0x3, 0x0, 0x0, 0x0⟩,
  ⟨0x04C, 1, 4, 0x0, 0x0, 0x0, 0x0⟩,
  ⟨0x050, 1, 4, 0x0, 0x0, 0x0, 0x0⟩,
  ⟨0x054, 1, 4, 0x0, 0x0, 0x0, 0x0⟩,
  ⟨0x058, 1, 4, 0x0, 0x0, 0x0, 0x0⟩,
  ⟨0x080, 16, 4, 0x0, 0x0, 0x0, 0x0⟩]

/-- The page table of the FCODEC block, and its CTL and STAT words where its chapter gives them. -/
def rowsFcodec : List RegRow := [
  ⟨0x00C, 1, 4, 0x0, 0x0, 0x0, 0x1⟩,
  ⟨0x040, 1, 4, 0x0, 0x0, 0xFFFFFFFF, 0x0⟩,
  ⟨0x044, 1, 4, 0x0, 0x0, 0xFFFFFFFF, 0x0⟩,
  ⟨0x048, 1, 4, 0x0, 0x0, 0x0, 0x0⟩,
  ⟨0x04C, 1, 4, 0x0, 0x0, 0x0, 0x0⟩,
  ⟨0x050, 1, 4, 0x0, 0x0, 0x0, 0x0⟩,
  ⟨0x054, 1, 4, 0x0, 0x0, 0x0, 0x0⟩,
  ⟨0x400, 1, 4, 0x0, 0x0, 0x0, 0x0⟩]

/-- The page table of the CORE block, and its CTL and STAT words where its chapter gives them. -/
def rowsCore : List RegRow := [
  ⟨0x008, 1, 4, 0x0, 0x0, 0x2, 0x1⟩,
  ⟨0x00C, 1, 4, 0x0, 0x0, 0x0, 0x200⟩,
  ⟨0x040, 1, 4, 0x0, 0xB, 0x0, 0x0⟩,
  ⟨0x044, 1, 4, 0x0, 0x0, 0x0, 0x0⟩,
  ⟨0x048, 1, 4, 0x0, 0x0, 0x0, 0x0⟩,
  ⟨0x04C, 1, 4, 0x0, 0x0, 0x0, 0x0⟩,
  ⟨0x050, 1, 4, 0x0, 0x0, 0x0, 0x0⟩,
  ⟨0x054, 1, 4, 0x0, 0x0, 0x0, 0x0⟩,
  ⟨0x058, 1, 4, 0x0, 0x0, 0x0, 0x0⟩,
  ⟨0x05C, 1, 4, 0x0, 0x0, 0x0, 0x0⟩,
  ⟨0x060, 1, 4, 0x0, 0x0, 0x0, 0x0⟩,
  ⟨0x064, 1, 4, 0x0, 0x0, 0x0, 0x0⟩,
  ⟨0x068, 1, 4, 0x0, 0x0, 0x0, 0x0⟩,
  ⟨0x06C, 1, 4, 0x0, 0x0, 0x0, 0x0⟩,
  ⟨0x070, 1, 4, 0x0, 0x0, 0x0, 0x3⟩,
  ⟨0x074, 1, 4, 0x0, 0x0, 0x0, 0x0⟩,
  ⟨0x078, 1, 4, 0x0, 0x0, 0x0, 0x0⟩,
  ⟨0x07C, 1, 4, 0x0, 0x0, 0x0, 0x0⟩,
  ⟨0x400, 16, 16, 0xFFFFF00F, 0x0, 0x0, 0x0⟩,
  ⟨0x404, 16, 16, 0xFFFF, 0x0, 0x0, 0x0⟩,
  ⟨0x408, 16, 16, 0xFFFFF000, 0x0, 0x0, 0x0⟩,
  ⟨0x40C, 16, 16, 0xFFFF, 0x0, 0x0, 0x0⟩]

/-- The page table of the MEMC block, and its CTL and STAT words where its chapter gives them. -/
def rowsMemc : List RegRow := [
  ⟨0x008, 1, 4, 0xF1, 0x0, 0x2, 0x1⟩,
  ⟨0x00C, 1, 4, 0x0, 0x0, 0x0, 0x0⟩,
  ⟨0x040, 1, 4, 0x0, 0x0, 0x0, 0x0⟩,
  ⟨0x044, 1, 4, 0x0, 0x0, 0x0, 0x0⟩,
  ⟨0x048, 1, 4, 0x0, 0x0, 0x0, 0x0⟩,
  ⟨0x04C, 1, 4, 0x0, 0x0, 0x0, 0x0⟩,
  ⟨0x050, 1, 4, 0x0, 0x0, 0x0, 0x0⟩,
  ⟨0x054, 1, 4, 0xFFFFFFFF, 0x0, 0x0, 0x100⟩,
  ⟨0x058, 1, 4, 0x800000FF, 0x0, 0x0, 0x80000018⟩,
  ⟨0x05C, 1, 4, 0x0, 0x0, 0x0, 0x0⟩,
  ⟨0x060, 1, 4, 0x0, 0x0, 0x0, 0x0⟩,
  ⟨0x080, 1, 4, 0x0, 0x0, 0x0, 0x0⟩,
  ⟨0x084, 1, 4, 0x0, 0x0, 0x0, 0x0⟩,
  ⟨0x088, 1, 4, 0x0, 0x0, 0x0, 0x0⟩,
  ⟨0x08C, 1, 4, 0x0, 0x0, 0x0, 0x0⟩,
  ⟨0x090, 1, 4, 0x0, 0x0, 0x0, 0x0⟩,
  ⟨0x094, 4, 4, 0x0, 0x0, 0x0, 0x0⟩,
  ⟨0x0A4, 1, 4, 0x0, 0x0, 0x0, 0x0⟩,
  ⟨0x0A8, 1, 4, 0x0, 0x0, 0x0, 0x0⟩,
  ⟨0x0AC, 1, 4, 0x0, 0x0, 0x0, 0x0⟩]

/-- The page table of the MEMT block, and its CTL and STAT words where its chapter gives them. -/
def rowsMemt : List RegRow := [
  ⟨0x040, 1, 4, 0x0, 0x0, 0x0, 0x0⟩,
  ⟨0x400, 1, 4, 0xF0F0000, 0x0, 0x80000000, 0x0⟩,
  ⟨0x404, 1, 4, 0x0, 0x0, 0x0, 0x0⟩,
  ⟨0x408, 1, 4, 0xC07FFFFF, 0x0, 0x0, 0x1⟩,
  ⟨0x40C, 1, 4, 0xFFFFFF, 0x0, 0x0, 0x1000⟩,
  ⟨0x410, 1, 4, 0xFFFFFFC0, 0x0, 0x0, 0x0⟩,
  ⟨0x414, 1, 4, 0xFFFF, 0x0, 0x0, 0x0⟩,
  ⟨0x418, 1, 4, 0xFFFFFFFF, 0x0, 0x0, 0xFFFFFFFF⟩,
  ⟨0x41C, 1, 4, 0xFFFFFFFF, 0x0, 0x0, 0xFFFFFFFF⟩,
  ⟨0x420, 1, 4, 0xFFFF, 0x0, 0x0, 0xFFFF⟩,
  ⟨0x424, 10, 4, 0x0, 0x0, 0x0, 0x0⟩,
  ⟨0x450, 1, 4, 0xF0F07, 0x0, 0x0, 0x0⟩,
  ⟨0x454, 1, 4, 0x7F, 0x0, 0x0, 0x0⟩,
  ⟨0x458, 1, 4, 0x3, 0x0, 0x0, 0x0⟩,
  ⟨0x45C, 1, 4, 0x0, 0x0, 0x0, 0x0⟩,
  ⟨0x460, 1, 4, 0x0, 0x0, 0x0, 0x0⟩,
  ⟨0x480, 1, 4, 0x1, 0x0, 0x0, 0x0⟩]

/-- The page table of the SCAN block, and its CTL and STAT words where its chapter gives them. -/
def rowsScan : List RegRow := [
  ⟨0x008, 1, 4, 0x1, 0x0, 0x102, 0x1⟩,
  ⟨0x00C, 1, 4, 0x0, 0x0, 0x0, 0x1⟩,
  ⟨0x040, 1, 4, 0x0, 0x0, 0xFFFFFFFF, 0x0⟩,
  ⟨0x044, 1, 4, 0x0, 0x0, 0xFFFFFFFF, 0x0⟩,
  ⟨0x048, 1, 4, 0x0, 0x0, 0x0, 0x0⟩,
  ⟨0x04C, 1, 4, 0x0, 0x0, 0x0, 0x0⟩,
  ⟨0x050, 1, 4, 0x0, 0x0, 0x0, 0x0⟩,
  ⟨0x054, 1, 4, 0x0, 0x0, 0x0, 0x0⟩,
  ⟨0x058, 1, 4, 0x0, 0x0, 0x0, 0x0⟩,
  ⟨0x05C, 1, 4, 0x0, 0x0, 0x0, 0x0⟩,
  ⟨0x060, 1, 4, 0x0, 0x0, 0x0, 0x0⟩,
  ⟨0x064, 1, 4, 0x0, 0x0, 0x0, 0x0⟩,
  ⟨0x400, 1, 4, 0xF, 0x0, 0x0, 0x4⟩,
  ⟨0x404, 1, 4, 0x1, 0x0, 0x0, 0x0⟩,
  ⟨0x408, 1, 4, 0xF, 0x0, 0x0, 0x0⟩]

/-- The page table of the PROBE block, and its CTL and STAT words where its chapter gives them. -/
def rowsProbe : List RegRow := [
  ⟨0x00C, 1, 4, 0x0, 0x0, 0x0, 0x1⟩,
  ⟨0x040, 1, 4, 0x0, 0x0, 0xFFFFFFFF, 0x0⟩,
  ⟨0x044, 1, 4, 0x0, 0x0, 0xFFFFFFFF, 0x0⟩,
  ⟨0x048, 1, 4, 0x0, 0x0, 0xFFFFFFFF, 0x0⟩,
  ⟨0x04C, 1, 4, 0x0, 0x0, 0xFFFFFFFF, 0x0⟩,
  ⟨0x050, 1, 4, 0x0, 0x0, 0x0, 0x0⟩,
  ⟨0x054, 1, 4, 0x0, 0x0, 0x0, 0x0⟩,
  ⟨0x058, 1, 4, 0x0, 0x0, 0x0, 0x0⟩,
  ⟨0x05C, 1, 4, 0x0, 0x0, 0x0, 0x0⟩,
  ⟨0x060, 1, 4, 0x0, 0x0, 0x0, 0x0⟩,
  ⟨0x400, 1, 4, 0x1FF, 0x0, 0x0, 0x80⟩]

/-- The page table of the LSU block, and its CTL and STAT words where its chapter gives them. -/
def rowsLsu : List RegRow := [
  ⟨0x008, 1, 4, 0x1, 0x0, 0x2, 0x1⟩,
  ⟨0x00C, 1, 4, 0x0, 0x0, 0x0, 0x1⟩,
  ⟨0x040, 1, 4, 0x0, 0x0, 0xFFFFFFFF, 0x0⟩,
  ⟨0x044, 1, 4, 0x0, 0x0, 0xFFFFFFFF, 0x0⟩,
  ⟨0x048, 1, 4, 0x0, 0x0, 0x0, 0x0⟩,
  ⟨0x04C, 1, 4, 0x0, 0x0, 0x0, 0x0⟩,
  ⟨0x050, 1, 4, 0x0, 0x0, 0x0, 0x0⟩,
  ⟨0x054, 1, 4, 0x0, 0x0, 0x0, 0x0⟩,
  ⟨0x058, 1, 4, 0x0, 0x0, 0x0, 0x0⟩]

/-- The page table of the CAM block, and its CTL and STAT words where its chapter gives them. -/
def rowsCam : List RegRow := [
  ⟨0x008, 1, 4, 0x200, 0x0, 0x102, 0x1⟩,
  ⟨0x00C, 1, 4, 0x0, 0x0, 0x0, 0x1⟩,
  ⟨0x040, 1, 4, 0x0, 0x0, 0xFFFFFFFF, 0x0⟩,
  ⟨0x044, 1, 4, 0x0, 0x0, 0xFFFFFFFF, 0x0⟩,
  ⟨0x048, 1, 4, 0x0, 0x0, 0x0, 0x0⟩,
  ⟨0x04C, 1, 4, 0x0, 0x0, 0x0, 0x0⟩,
  ⟨0x050, 1, 4, 0x0, 0x0, 0x0, 0x0⟩,
  ⟨0x054, 1, 4, 0x0, 0x0, 0x0, 0x0⟩,
  ⟨0x058, 1, 4, 0x0, 0x0, 0x0, 0x0⟩,
  ⟨0x05C, 1, 4, 0x0, 0x0, 0x0, 0x0⟩,
  ⟨0x060, 1, 4, 0x0, 0x0, 0x0, 0x0⟩,
  ⟨0x064, 1, 4, 0x0, 0x0, 0x0, 0x0⟩,
  ⟨0x068, 1, 4, 0x0, 0x0, 0x0, 0x0⟩,
  ⟨0x400, 5, 4, 0xFFFFFFFF, 0x0, 0x0, 0x0⟩,
  ⟨0x414, 5, 4, 0xFFFFFFFF, 0x0, 0x0, 0x0⟩,
  ⟨0x428, 1, 4, 0x1FFFF, 0x0, 0x80000000, 0x0⟩,
  ⟨0x42C, 1, 4, 0x0, 0x0, 0x0, 0x0⟩,
  ⟨0x430, 1, 4, 0x0, 0x0, 0x0, 0x0⟩,
  ⟨0x434, 1, 4, 0x0, 0x0, 0x0, 0x0⟩,
  ⟨0x438, 1, 4, 0x0, 0x0, 0x0, 0x0⟩,
  ⟨0x43C, 1, 4, 0x0, 0x0, 0x0, 0x0⟩,
  ⟨0x440, 1, 4, 0x0, 0x0, 0x0, 0x0⟩]

/-- The page table of the CMP block, and its CTL and STAT words where its chapter gives them. -/
def rowsCmp : List RegRow := [
  ⟨0x008, 1, 4, 0x1, 0x0, 0x302, 0x1⟩,
  ⟨0x00C, 1, 4, 0x0, 0x0, 0x0, 0x1⟩,
  ⟨0x040, 1, 4, 0x0, 0x0, 0xFFFFFFFF, 0x0⟩,
  ⟨0x044, 1, 4, 0x0, 0x0, 0xFFFFFFFF, 0x0⟩,
  ⟨0x048, 1, 4, 0x0, 0x0, 0xFFFFFFFF, 0x0⟩,
  ⟨0x04C, 1, 4, 0x0, 0x0, 0xFFFFFFFF, 0x0⟩,
  ⟨0x050, 1, 4, 0x0, 0x0, 0x0, 0x0⟩,
  ⟨0x054, 1, 4, 0x0, 0x0, 0x0, 0x0⟩,
  ⟨0x058, 1, 4, 0x0, 0x0, 0x0, 0x0⟩,
  ⟨0x05C, 1, 4, 0x0, 0x0, 0x0, 0x0⟩,
  ⟨0x060, 1, 4, 0x0, 0x0, 0x0, 0x0⟩,
  ⟨0x064, 1, 4, 0x0, 0x0, 0x0, 0x0⟩,
  ⟨0x068, 1, 4, 0x0, 0x0, 0x0, 0x0⟩,
  ⟨0x400, 1, 4, 0xFF, 0x0, 0x0, 0x40⟩]

/-- The page table of the DMA block, and its CTL and STAT words where its chapter gives them. -/
def rowsDma : List RegRow := [
  ⟨0x008, 1, 4, 0x0, 0x0, 0x2, 0x1⟩,
  ⟨0x00C, 1, 4, 0x0, 0x0, 0x0, 0x1⟩,
  ⟨0x040, 1, 4, 0x0, 0x0, 0x0, 0x0⟩,
  ⟨0x044, 1, 4, 0x0, 0x0, 0x0, 0x0⟩,
  ⟨0x048, 1, 4, 0x0, 0x0, 0x0, 0x0⟩,
  ⟨0x04C, 1, 4, 0x0, 0x0, 0x0, 0x0⟩,
  ⟨0x050, 1, 4, 0x0, 0x0, 0x0, 0x0⟩,
  ⟨0x054, 1, 4, 0x0, 0x0, 0x0, 0x0⟩,
  ⟨0x100, 32, 16, 0x31F01, 0x0, 0x80000000, 0x20400⟩,
  ⟨0x104, 32, 16, 0xFFFFFFC0, 0x0, 0x0, 0x0⟩,
  ⟨0x108, 32, 16, 0xFFFF, 0x0, 0x0, 0x0⟩,
  ⟨0x10C, 32, 16, 0x0, 0x0, 0x0, 0x0⟩,
  ⟨0x400, 1, 4, 0x7F, 0x0, 0x0, 0x20⟩]

/-- The page table of the KEYS block, and its CTL and STAT words where its chapter gives them. -/
def rowsKeys : List RegRow := [
  ⟨0x008, 1, 4, 0x0, 0x0, 0x2, 0x1⟩,
  ⟨0x00C, 1, 4, 0x0, 0x0, 0x0, 0x2⟩,
  ⟨0x040, 1, 4, 0x0, 0x0, 0x0, 0x0⟩,
  ⟨0x044, 1, 4, 0x0, 0x0, 0x0, 0x0⟩,
  ⟨0x048, 8, 4, 0x0, 0x0, 0x0, 0x0⟩,
  ⟨0x068, 1, 4, 0x0, 0x0, 0x0, 0x0⟩,
  ⟨0x06C, 1, 4, 0x0, 0x0, 0x0, 0x0⟩,
  ⟨0x070, 1, 4, 0x3FF, 0x0, 0x0, 0x0⟩,
  ⟨0x074, 1, 4, 0x3FF, 0x0, 0x0, 0x0⟩,
  ⟨0x078, 1, 4, 0x3FF, 0x0, 0x0, 0x0⟩,
  ⟨0x07C, 1, 4, 0x0, 0x0, 0x0, 0x0⟩,
  ⟨0x080, 1, 4, 0x0, 0x0, 0x0, 0x0⟩]

/-- The page table of the MGMT block, and its CTL and STAT words where its chapter gives them. -/
def rowsMgmt : List RegRow := [
  ⟨0x008, 1, 4, 0x0, 0x0, 0x2, 0x1⟩,
  ⟨0x00C, 1, 4, 0x0, 0x0, 0x0, 0x2⟩,
  ⟨0x040, 1, 4, 0x7F, 0x0, 0x0, 0x4C⟩,
  ⟨0x044, 1, 4, 0x0, 0x0, 0x0, 0x0⟩,
  ⟨0x048, 1, 4, 0x0, 0x0, 0x0, 0x0⟩,
  ⟨0x04C, 1, 4, 0x0, 0x0, 0x0, 0x0⟩,
  ⟨0x050, 1, 4, 0x0, 0x0, 0x0, 0x0⟩,
  ⟨0x054, 1, 4, 0x0, 0x0, 0x0, 0x0⟩]

/-- The page table of the FLASH block, and its CTL and STAT words where its chapter gives them. -/
def rowsFlash : List RegRow := [
  ⟨0x00C, 1, 4, 0x0, 0x0, 0x0, 0x1⟩,
  ⟨0x040, 1, 4, 0x0, 0x0, 0x0, 0x0⟩,
  ⟨0x044, 1, 4, 0x0, 0x0, 0x0, 0x0⟩,
  ⟨0x048, 1, 4, 0x0, 0x0, 0x0, 0x0⟩,
  ⟨0x04C, 1, 4, 0x0, 0x0, 0x0, 0x0⟩,
  ⟨0x050, 1, 4, 0x0, 0x0, 0x0, 0x0⟩,
  ⟨0x054, 1, 4, 0x0, 0x0, 0x0, 0x0⟩]

/-- The page table of the QCTX block, and its CTL and STAT words where its chapter gives them. -/
def rowsQctx : List RegRow := [
  ⟨0x008, 1, 4, 0x0, 0x0, 0x0, 0x0⟩,
  ⟨0x00C, 1, 4, 0x0, 0x0, 0x0, 0x0⟩,
  ⟨0x040, 1, 4, 0x0, 0x0, 0x0, 0x0⟩,
  ⟨0x044, 1, 4, 0x0, 0x0, 0x0, 0x0⟩,
  ⟨0x048, 1, 4, 0x0, 0x0, 0x0, 0x0⟩,
  ⟨0x04C, 1, 4, 0x0, 0x0, 0x0, 0x0⟩,
  ⟨0x050, 1, 4, 0x0, 0x0, 0x0, 0x0⟩,
  ⟨0x054, 1, 4, 0x0, 0x0, 0x0, 0x0⟩,
  ⟨0x058, 1, 4, 0x0, 0x0, 0x0, 0x0⟩,
  ⟨0x05C, 1, 4, 0x0, 0x0, 0x0, 0x0⟩,
  ⟨0x060, 1, 4, 0x0, 0x0, 0x0, 0x0⟩,
  ⟨0x064, 1, 4, 0x0, 0x0, 0x0, 0x0⟩,
  ⟨0x400, 10, 4, 0x0, 0x0, 0x0, 0x0⟩]

/-- Each block's own rows. -/
def blkRows : Blk → List RegRow
  | .moddir => rowsModdir
  | .modid => rowsModid
  | .modctl => rowsModctl
  | .pwr => rowsPwr
  | .hep => rowsHep
  | .qeng => rowsQeng
  | .cue => rowsCue
  | .commit => rowsCommit
  | .pbook => rowsPbook
  | .rehearse => rowsRehearse
  | .strike => rowsStrike
  | .wing => rowsWing
  | .wpeer => rowsWpeer
  | .wwin => rowsWwin
  | .company => rowsCompany
  | .irtr => rowsIrtr
  | .clu => rowsClu
  | .l2 => rowsL2
  | .disp => rowsDisp
  | .cic => rowsCic
  | .dig => rowsDig
  | .fcodec => rowsFcodec
  | .core => rowsCore
  | .memc => rowsMemc
  | .memt => rowsMemt
  | .scan => rowsScan
  | .probe => rowsProbe
  | .lsu => rowsLsu
  | .cam => rowsCam
  | .cmp => rowsCmp
  | .dma => rowsDma
  | .keys => rowsKeys
  | .mgmt => rowsMgmt
  | .flash => rowsFlash
  | .qctx => rowsQctx

/-- The 64-bit counters read in two halves: reading the low word latches the high word (block, low offset, high offset). -/
def latchPairs : List (Blk × Nat × Nat) := [
  (.cue, 0x058, 0x05C),
  (.commit, 0x040, 0x044),
  (.strike, 0x050, 0x054),
  (.strike, 0x400, 0x404),
  (.scan, 0x048, 0x04C),
  (.scan, 0x058, 0x05C),
  (.probe, 0x050, 0x054),
  (.fcodec, 0x04C, 0x050),
  (.cam, 0x04C, 0x050),
  (.cam, 0x060, 0x064),
  (.dig, 0x04C, 0x050),
  (.pbook, 0x050, 0x054),
  (.pbook, 0x058, 0x05C),
  (.pbook, 0x068, 0x06C),
  (.pbook, 0x074, 0x078),
  (.rehearse, 0x040, 0x044),
  (.rehearse, 0x04C, 0x050),
  (.dma, 0x044, 0x048),
  (.cmp, 0x054, 0x058),
  (.cmp, 0x05C, 0x060),
  (.company, 0x050, 0x054),
  (.modctl, 0x04C, 0x050)]

end Sys2Proof.Machine
end

