-- ==== Sys2Proof/Machine/Sparse.lean ====
section
/-!
DEFINITION. Sparse tables: a list of (key, value) pairs in one canonical form, for memories, register files and every
other store of the module that is indexed by a number. The keys rise strictly and no listed value equals what an
unlisted key reads as, so equal tables are equal data.
-/
namespace Sys2Proof.Sparse

variable {α : Type}

/-- The value at a key; an unlisted key reads as `d` gives. -/
def get (d : Nat → α) : List (Nat × α) → Nat → α
  | [], k => d k
  | (k', v) :: r, k => if k = k' then v else get d r k

/-- The table with the value at one key replaced, in canonical form again. -/
def set [DecidableEq α] (d : Nat → α) : List (Nat × α) → Nat → α → List (Nat × α)
  | [], k, v => if v = d k then [] else [(k, v)]
  | (k', v') :: r, k, v =>
    if k < k' then (if v = d k then (k', v') :: r else (k, v) :: (k', v') :: r)
    else if k = k' then (if v = d k then r else (k, v) :: r)
    else (k', v') :: set d r k v

/-- The table with every key of a half-open range put back to what unlisted keys read as. -/
def clear (t : List (Nat × α)) (lo hi : Nat) : List (Nat × α) :=
  t.filter (fun p => !(lo ≤ p.1 && p.1 < hi))

/-- The keys rise strictly above a bound and no value equals its default. -/
def wfFrom [DecidableEq α] (d : Nat → α) : Nat → List (Nat × α) → Bool
  | _, [] => true
  | b, (k, v) :: r => decide (b ≤ k) && decide (v ≠ d k) && wfFrom d (k + 1) r

/-- The canonical form. -/
def wf [DecidableEq α] (d : Nat → α) (t : List (Nat × α)) : Bool := wfFrom d 0 t

/-- The keys a table lists, in ascending order. -/
def keys (t : List (Nat × α)) : List Nat := t.map Prod.fst

/-- A run of values stored at consecutive keys. -/
def setRun [DecidableEq α] (d : Nat → α) : List (Nat × α) → Nat → List α → List (Nat × α)
  | t, _, [] => t
  | t, k, v :: r => setRun d (set d t k v) (k + 1) r

/-- The values at `n` consecutive keys. -/
def getRun (d : Nat → α) (t : List (Nat × α)) (k : Nat) : Nat → List α
  | 0 => []
  | n + 1 => get d t k :: getRun d t (k + 1) n

end Sys2Proof.Sparse
end

