-- ==== Sys2Proof/Machine/State.lean ====
section
/-!
DEFINITION. The state of the module as plain data: every register page, the device and host memories, the cores, the
clusters, the memory controllers, the fixed-function units, the queue engine, the cue logic, the table store, the prompt
book, the wing ports, the keys and the flash, and the queue of waiting commands; and the state right after reset.
-/
namespace Sys2Proof.Machine
open Sys2Proof

/-- The module stops with none of these: every misuse the spec describes has an effect of its own (an exception, a status,
an error code), and a command that finds its unit absent or not ready has none. The one constructor is raised by nothing.
Safe. -/
inductive Fault where
  | none
  deriving DecidableEq, Repr

/-- Why a command has no meaning. -/
inductive Refusal where
  /-- The command named is not modelled. Raised only by an arm of the dispatch. Safe. -/
  | notModelled (mnemonic : String)
  deriving DecidableEq, Repr

/-! ## Cores -/

/-- The three modes of a core (R196). -/
inductive Mode where
  | operator | firmware | handler
  deriving DecidableEq, Repr

/-- The class of an address, from the address map alone (R228). -/
inductive AccessClass where
  | memory | remote | register
  deriving DecidableEq, Repr

/-- One store buffer entry: the bytes of one aligned 256-byte block that stores have written (offset and byte, offsets
rising), and whether a barrier has retired since it was opened (R220, R225). `sent` marks a wing store on its way to the partner. -/
structure SbEntry where
  cls : AccessClass
  block : Nat
  bytes : List (Nat × Byte)
  barred : Bool
  sent : Bool
  deriving DecidableEq, Repr

/-- A work item record (R272). -/
structure ItemRec where
  pipe : Nat
  kind : Nat
  flags : Nat
  sealPos : Nat
  key : Word64
  ctx : Word64
  arg : Word64
  deriving DecidableEq, Repr

/-- What a core holds from TAKE to DONE: a work item, or an activation of a task (R212, R273, R274). -/
structure Held where
  item : ItemRec
  task : Option Nat
  fg : Bool
  checked : Bool
  deriving DecidableEq, Repr

/-- A wing load that a core has sent and the reply it has had (R469). -/
structure RemoteLoad where
  addr : Nat
  size : Nat
  reply : Option (List Byte)
  deriving DecidableEq, Repr

/-- One Dextar core (R194–R226). A register that nothing has written since the last core reset is unlisted; `undef` names
the core reset whose undefined values it then reads (R201), and none is the state after a fundamental reset. -/
structure Core where
  g : List (Nat × Option Word64)
  v : List (Nat × Option VWord)
  m : List (Nat × Option MWord)
  count : List (Nat × Option Word32)
  budget : List (Nat × Option Word32)
  fscr : List (Nat × Option Word64)
  undef : Option Nat
  vl : Nat
  pc : Word64
  mode : Mode
  stopped : Bool
  held : Option Held
  take : Option (Nat × Nat)
  sb : List SbEntry
  resv : Option (Nat × Nat)
  ioReady : Bool
  ioOpen : Bool
  budgetStop : Option Nat
  inCic : Bool
  remote : List RemoteLoad
  deriving DecidableEq, Repr

/-- A core as a fundamental reset leaves it: firmware mode, nothing held, empty store buffer (R196, R201). -/
def Core.reset : Core :=
  { g := [], v := [], m := [], count := [], budget := [], fscr := [], undef := none, vl := 0, pc := 0, mode := .firmware,
    stopped := false, held := none, take := none, sb := [], resv := none, ioReady := false, ioOpen := false,
    budgetStop := none, inCic := false, remote := [] }

/-! ## Clusters -/

/-- A work item held by a dispatcher, in arrival order: its record, its class, the stamp at which it became releasable, and
the budgets a foreground item brings (R274, R278, R282). -/
structure QItem where
  item : ItemRec
  fg : Bool
  stamp : Option Nat
  budgets : List Word32
  deriving DecidableEq, Repr

/-- A delay entry: when it expires (a beat or a cue), the task and the bits it sets (R281). -/
structure DelayEnt where
  due : Nat
  task : Nat
  bits : Word32
  deriving DecidableEq, Repr

/-- A cue dispatcher (R271): the item stores in arrival order, the background keys in the key table, the arrival stamps of
READY tasks, and the two delay lists, each sorted by expiry. -/
structure Disp where
  items : List QItem
  bgKeys : List Word64
  taskStamp : List (Nat × Nat)
  beatDelays : List DelayEnt
  cueDelays : List DelayEnt
  deriving DecidableEq, Repr

/-- One line of a cluster L2: the line number (address / 128), whether it is dirty, and what its memory still holds if so (R236, R240). -/
structure L2Line where
  lineNo : Nat
  dirty : Bool
  backing : List Byte
  deriving DecidableEq, Repr

/-- The page-initiated operation that keeps L2.STAT.BUSY set (R241). -/
inductive L2Op where
  | maint | preload | convert (ways : Nat) | disable
  deriving DecidableEq, Repr

/-- A cluster L2: its lines by set × 16 + way, and the operation in progress. -/
structure L2 where
  lines : List (Nat × Option L2Line)
  op : Option L2Op
  deriving DecidableEq, Repr

/-- A cluster interrupt controller: the edge sources that are pending and the sources held by moderation, one bit each (R288, R291). -/
structure Cic where
  edge : Word64
  moderated : Word64
  deriving DecidableEq, Repr

/-- One cluster, beside its cores and its unit queues. The L1 data and instruction caches of its cores are held as the lines they hold, each a
core and a line number (R194). -/
structure Cluster where
  disp : Disp
  l2 : L2
  cic : Cic
  l1d : List (Nat × Nat)
  l1i : List (Nat × Nat)
  deriving DecidableEq, Repr

/-- A cluster with nothing held (R476). -/
def Cluster.reset : Cluster :=
  { disp := { items := [], bgKeys := [], taskStamp := [], beatDelays := [], cueDelays := [] },
    l2 := { lines := [], op := none }, cic := { edge := 0, moderated := 0 }, l1d := [], l1i := [] }

/-- The external inputs of the module interrupt router: filtered levels, latches, and whether the filter clock runs (R294, R513). -/
structure Irtr where
  alert : List (Nat × Bool)
  present : List (Nat × Bool)
  latched : List (Nat × Bool)
  refclk : Bool
  deriving DecidableEq, Repr

/-! ## Memory controllers -/

/-- What a controller is doing while MEMC.STAT.BUSY reads 1 (R260, R267). -/
inductive MemcOp where
  | enter | exit | setup | run (op : Nat)
  deriving DecidableEq, Repr

/-- One memory controller: its UNIT_STATE, training, self-refresh, the operation in progress, the delays in force by rank,
lane and kind, the next local unit patrol scrub reads, and the requests it has refreshed for (R255–R267). -/
structure Memc where
  unit : Nat
  trained : Bool
  selfRefresh : Bool
  op : Option MemcOp
  dly : List (Nat × Nat)
  scrubAt : Nat
  refreshes : Nat
  deriving DecidableEq, Repr

/-- A controller after a fundamental reset: untrained (the MEMC page). -/
def Memc.reset : Memc :=
  { unit := 1, trained := false, selfRefresh := false, op := none, dly := [], scrubAt := 0, refreshes := 0 }

/-! ## The module -/

/-- The module states (R473); the safety curtain and the house halt are held beside them because they can coexist (R491). -/
inductive MState where
  | off | boot | ready | service | standby | recovery
  deriving DecidableEq, Repr

/-- Standby entry and exit in progress (R483, R484). -/
inductive StandbyOp where
  | entering (exitAfter : Bool) | exiting
  deriving DecidableEq, Repr

/-- The module's own state: power, module state, the state before standby, curtain, halt, a module reset in progress, and
the sensors whose warnings are in force, and the 10 µs pulses driven on ALERT_N (R442, R473–R494). -/
structure Module where
  supply : Bool
  perst : Bool
  tripped : Bool
  st : MState
  before : MState
  curtain : Bool
  halt : Bool
  faultCue : Nat
  standbyOp : Option StandbyOp
  tjHot : Bool
  vinWarn : Bool
  railsBad : Nat
  alertPulses : Nat
  deriving DecidableEq, Repr

/-- What is fixed in one built module: its ordering code (1, 2 or 4 for A1, A2, A4), its serial number, the serial numbers
of its DIMMs, and its fused root key hashes and secrets. No command changes it but the fuses of SVN and revocation. -/
structure Build where
  ordering : Nat
  serial : Nat
  dimmSerial : List (Nat × Nat)
  deriving DecidableEq, Repr



/-! ## The host endpoint -/

/-- The host endpoint and its PCI Express function (R391–R403, R425–R428): the freeze and its cause, the link, Bus Master
Enable and D0, the MSI-X enable, function mask, unmasked vectors, pending bits and the messages sent, oldest first. -/
structure Hep where
  frozen : Bool
  linkUp : Bool
  everUp : Bool
  bme : Bool
  d0 : Bool
  msixEn : Bool
  msixMask : Bool
  unmasked : List Nat
  pba : List Nat
  sent : List Nat
  maxTags : Nat
  speed : Nat
  width : Nat
  deriving DecidableEq, Repr

/-- The endpoint with its link down and its configuration space at reset (R426, R476). -/
def Hep.reset : Hep :=
  { frozen := false, linkUp := false, everUp := false, bme := false, d0 := true, msixEn := false, msixMask := false,
    unmasked := [], pba := [], sent := [], maxTags := 32, speed := 0, width := 0 }



/-! ## The table store -/

/-- A column of a table descriptor (R109). -/
structure ColDef where
  typ : Nat
  width : Nat
  signed : Bool
  writable : Bool
  placement : Nat
  bytesLen : Nat
  ringW : Nat
  ringSpan : Nat
  deriving DecidableEq, Repr

/-- An index of a table descriptor (R109). -/
structure IdxDef where
  keys : List Nat
  unique : Bool
  log2 : Nat
  seed : Nat
  deriving DecidableEq, Repr

/-- A table descriptor (R109); `bytes` are the descriptor's own, whose SHAKE256 the checks compare. -/
structure TableDef where
  num : Nat
  scratch : Bool
  domain : Option Nat
  cols : List ColDef
  idxs : List IdxDef
  maxSlots : Nat
  ringRecords : Nat
  bytes : List Byte
  deriving DecidableEq, Repr

/-- A row version (R82, R83): its row, BEGIN_CUE and END_CUE (none is open), PREV_SLOT, RING_REF, and its user column values. -/
structure Version where
  row : Nat
  beg : Option Nat
  fin : Option Nat
  prev : Option Nat
  ring : Option Nat
  cells : List (List Byte)
  deriving DecidableEq, Repr

/-- A page of a loaded column (R88): its slots, its encoding, its zone, whether it is a tail page, and, of a COLD loaded page, the KIND 2 block
that holds it (R99, R390). -/
structure LoadedPage where
  col : Nat
  first : Nat
  count : Nat
  enc : Nat
  zone : Option (Nat × Nat)
  tail : Bool
  cold : List Byte
  deriving DecidableEq, Repr

/-- One index: its bucket chains by primary bucket, each bucket the list of its (TAG, SLOT) entries (R92, R94). -/
structure IndexState where
  chains : List (Nat × List (List (Nat × Nat)))
  deriving DecidableEq, Repr

/-- One block of a ring record: its ring column, HEAD, and its FILL pairs of cue and value, oldest first (R96). -/
structure Ring where
  col : Nat
  head : Nat
  pairs : List (Nat × List Byte)
  deriving DecidableEq, Repr

/-- A table (R78–R98): its descriptor, the version in each slot that has held one, the newest slot of each row that still has
a version, the free slots below the first never-used one with the cue at which each was freed, the ring records by the number
that RING_REF holds, and its loaded pages. -/
structure Table where
  desc : TableDef
  slots : List (Nat × Option Version)
  newest : List (Nat × Option Nat)
  free : List (Nat × Nat)
  used : Nat
  nextRow : Nat
  rings : List (Nat × List Ring)
  indexes : List IndexState
  pages : List LoadedPage
  loadedEnd : Nat
  deriving DecidableEq, Repr

/-- A pin on a snapshot and its holder: an analytic job, a SNAPSHOT_EXPORT, a catch-up, or a PIN frame of a port (R108). -/
inductive PinHolder where
  | job (id : Nat) | snapshot | catchup | peer (port job : Nat)
  deriving DecidableEq, Repr

/-- The strike sweep (R102–R108): the stage, whether a pass runs, S_old when the last pass started, cues since the last pass
began, and the pins. -/
structure Strike where
  stage : Nat
  running : Bool
  lastS : Nat
  since : Nat
  limit : Nat
  reserveSets : Bool
  pins : List (PinHolder × Nat)
  deriving DecidableEq, Repr


/-! ## Pipelines -/

/-- A node of a pipeline image (R166). -/
structure PNode where
  op : Nat
  flags : Nat
  in0 : Nat
  in1 : Nat
  a : Nat
  b : Nat
  xMax : Nat
  codeOff : Nat
  codeLen : Nat
  paramOff : Nat
  paramLen : Nat
  tref : Nat
  idx : Nat
  func : Nat
  fmt : Nat
  slot : Nat
  deriving DecidableEq, Repr

/-- A table reference of a pipeline image (R168): the table, ACCESS, DESC_CHECK and the column uses. -/
structure PTabRef where
  table : Nat
  access : Nat
  check : List Byte
  uses : List (Nat × Nat)
  bad : Bool
  deriving DecidableEq, Repr

/-- A loaded pipeline (R163–R170): what its image declares, the image bytes in the image store, its format tables and templates by NUMBER, the
search handles its relocations name, RODATA with its relocations applied (R169), and `load`, which tells one load of an image from
another and places it in the store. -/
structure Pipe where
  id : Nat
  cls : Nat
  digest : List Byte
  keyHash : List Byte
  cap : Nat
  resultMax : Nat
  budgets : List Nat
  workspace : Nat
  greenMin : Nat
  argLen : Nat
  image : List Byte
  nodes : List PNode
  trefs : List PTabRef
  formats : List (Nat × List Byte)
  templates : List (Nat × List Byte)
  cams : List Nat
  rodata : List Byte
  load : Nat
  deriving DecidableEq, Repr


/-! ## Analytic jobs -/

/-- The states of an analytic job (R187). -/
inductive JobState where
  | waiting | running | ended
  deriving DecidableEq, Repr

/-- An analytic job (R185–R191): `args` its argument block, `plan` what its nodes do once it runs, `endCue` the cue it ended in, `header` the result header and column descriptors it will write,
`cols` its result's columns once it runs, `reads` the ranks it pinned (R466), `granted` whether it holds workspace, and `shadowed` marks one whose (SQ, SEQ) a later
QUERY has taken (R188). -/
structure Job where
  id : Nat
  sq : Nat
  idx : Nat
  seq : Nat
  cue : Nat
  snap : Nat
  pipe : Pipe
  args : List Byte
  plan : JobPlan
  resAddr : Nat
  resLen : Nat
  scratch : Option Nat
  state : JobState
  status : Nat
  failNode : Nat
  rows : Nat
  blocks : Nat
  header : List Byte
  endCue : Nat
  cols : List ResCol
  reads : List Nat
  shadowed : Bool
  granted : Bool
  deriving DecidableEq, Repr


/-! ## The queue engine -/

/-- A fetched submission entry: its queue, its index, its 64 bytes and its data bytes (R30, R406). -/
structure Entry where
  sq : Nat
  idx : Nat
  sqe : List Byte
  data : List Byte
  deriving DecidableEq, Repr

/-- A completion that a queue has to write: its 32 bytes, and the result bytes that go to a result slot, if any, with the
submission index that names the slot, or the host address of a job's result header (R190, R410, R414). -/
structure Cqe where
  bytes : List Byte
  slot : Option Nat
  at_ : Option Nat := none
  result : List Byte
  deriving DecidableEq, Repr

/-- A queue pair (R404–R420). `rung` and `cqRung` are doorbells that could not yet be served; `fetched` the entries fetched that have not
arrived; `held` the completions not yet written. -/
structure QPair where
  sqOn : Bool
  cqOn : Bool
  sqLog : Nat
  cqLog : Nat
  sqAddr : Nat
  cqAddr : Nat
  idxAddr : Nat
  resBase : Nat
  resStride : Nat
  winBase : Nat
  winLog : Nat
  vector : Nat
  sqCons : Nat
  sqProd : Nat
  cqProd : Nat
  cqCons : Nat
  fetched : List Entry
  held : List Cqe
  reserved : Nat
  paused : Bool
  rung : Bool
  cqRung : Bool
  deriving DecidableEq, Repr

/-- A queue number with no queue. -/
def QPair.none : QPair :=
  { sqOn := false, cqOn := false, sqLog := 0, cqLog := 0, sqAddr := 0, cqAddr := 0, idxAddr := 0, resBase := 0,
    resStride := 0, winBase := 0, winLog := 0, vector := 0, sqCons := 0, sqProd := 0, cqProd := 0, cqCons := 0,
    fetched := [], held := [], reserved := 0, paused := false, rung := false, cqRung := false }

/-- An export block being written to the journal queue: its act, first record, the bytes still to write and the next part number (R358, R418). -/
structure ExportBlock where
  act : Nat
  firstRec : Nat
  lastRec : Nat
  bytes : List Byte
  part : Nat
  deriving DecidableEq, Repr

/-- A journal entry written and not yet consumed: the end of its part in the buffer, and the record below which all are
exported once it is consumed, for a LAST part (R418). -/
structure JournalEnt where
  bufEnd : Nat
  exported : Option Nat
  deriving DecidableEq, Repr

/-- The journal queue (R418): its number, ring, index block, vector, codec, export buffer, indices, the free-running write
and free offsets of the buffer, the entries not yet consumed, and a doorbell that could not yet be served. -/
structure JournalQ where
  qid : Nat
  log : Nat
  ring : Nat
  idxAddr : Nat
  vector : Nat
  bufAddr : Nat
  bufLen : Nat
  prod : Nat
  cons : Nat
  bufHead : Nat
  bufFree : Nat
  ents : List JournalEnt
  rung : Bool
  deriving DecidableEq, Repr

/-- An admin command fetched from the admin queue (R415). -/
structure AdminEntry where
  sqe : List Byte
  data : List Byte
  deriving DecidableEq, Repr



/-! ## The cue logic -/

/-- A contribution of an ended item: what DONE handed over and the status it ended with (R55, R65, R66). -/
structure ItemEnd where
  status : Nat
  info : List Byte
  out : ItemOutput
  deriving DecidableEq, Repr

/-- A completion that the duplicate window records: its queue, SEQ, CQE and result bytes (R459). -/
structure DupEnt where
  sq : Nat
  seq : Nat
  cqe : List Byte
  result : List Byte
  sigs : List SigSpan
  deriving DecidableEq, Repr

/-- A sealed entry: the entry, its disposition (0 admitted, 3 REPLAYED, else the refusal status), how it ended, the recorded
completion of a replayed one, and the analytic job of a QUERY (R32). -/
structure Sealed where
  entry : Entry
  disp : Nat
  fin : Option ItemEnd
  replay : Option DupEnt
  job : Option Nat
  deriving DecidableEq, Repr

/-- Where a running cue stands: its items execute, its commit point has passed, or it is swept and waits for release (R57). -/
inductive CuePhase where
  | none | run | due | swept
  deriving DecidableEq, Repr

/-- The parameters in force, taken at START_CUES (R73). -/
structure CueParams where
  period : Nat
  admits : Nat
  cluster : Nat
  domain : Nat
  stretch : Nat
  act : Nat
  reserve : Nat
  svcCaps : List Nat
  pool : Nat
  deriving DecidableEq, Repr

/-- The three digests of a cue: input, output and delta (R66). -/
structure Digests where
  inp : List Byte
  out : List Byte
  delta : List Byte
  deriving DecidableEq, Repr

/-- A cell, ring or row change of a cue (R67). -/
structure DeltaEnt where
  table : Nat
  kind : Nat
  flags : Nat
  col : Nat
  row : Nat
  val : List Byte
  deriving DecidableEq, Repr

/-- The cue logic (R27–R64): UNIT_STATE (1 IDLE, 2 RUN, 3 HOLD, 5 FAULT), the current and last committed cue, the phase, the
sealed set, the admission buffer with the number of entries it carries over (they come first), the completions that wait for release, holds asked for and in force, a
START_CUES that waits for its start instant, whether cues have ever started, what the commit of the cue left for the digests and the DELTA
frame, whether completions are withheld since an FLR (R408), whether the peer's digests let the cue be released (R453), the beat of the last
start or held instant, the identifiers of the changes sealed with the cue (R439), and the staged writes that the staging area is sized for
(R76). -/
structure Cue where
  unit : Nat
  number : Nat
  committed : Nat
  phase : CuePhase
  par : CueParams
  sealedSet : List Sealed
  buffer : List Entry
  carried : Nat
  release : List (Nat × Cqe)
  holdReq : Bool
  holdCmd : Bool
  holdLag : Bool
  starting : Bool
  startedEver : Bool
  actPos : Nat
  actBreak : Bool
  sealedPipes : List Pipe
  mute : Bool
  digests : Digests
  delta : List DeltaEnt
  flags : Nat
  peerOk : Bool
  base : Nat
  changeIds : List Nat
  stageWrites : Nat
  deriving DecidableEq, Repr

/-- What reset leaves in the parameter registers (the CUE page). -/
def CueParams.reset : CueParams :=
  { period := 50, admits := 200, cluster := 40, domain := 4, stretch := 25, act := 16, reserve := 10, svcCaps := [0, 0, 0], pool := 16 }

/-- The cue logic before the first START_CUES (R28). -/
def Cue.reset : Cue :=
  { unit := 1, number := 0, committed := 0, phase := .none, par := CueParams.reset, sealedSet := [], buffer := [], carried := 0,
    release := [], holdReq := false, holdCmd := false, holdLag := false, starting := false, startedEver := false,
    actPos := 0, actBreak := true, sealedPipes := [], mute := false,
    digests := { inp := [], out := [], delta := [] }, delta := [], flags := 0, peerOk := false, base := 0, changeIds := [], stageWrites := 0 }



/-! ## Keys, flash, prompt book, management -/

/-- A key of the key store (R332): kind (1 key pair, 2 public, 3 symmetric, 4 authority), usage bits and key bytes. -/
structure KeySlot where
  kind : Nat
  usage : Nat
  key : List Byte
  deriving DecidableEq, Repr

/-- A ceremony component (R333). -/
structure KtComp where
  idx : Nat
  count : Nat
  epoch : Nat
  val : List Byte
  deriving DecidableEq, Repr

/-- The key store: its slots, the transport key and its EPOCH, and the components of a ceremony in progress (R332, R333). -/
structure Keys where
  slots : List (Nat × Option KeySlot)
  kt : Option (Nat × List Byte)
  comps : List KtComp
  deriving DecidableEq, Repr

/-- A firmware slot: the bytes written since it was erased, or the image the module was made with, whose bytes the spec does
not give (Assumption 10). -/
structure FwSlot where
  factory : Bool
  bytes : List (Nat × Option Byte)
  deriving DecidableEq, Repr

/-- What the running firmware image declares (R340): VERSION, SVN, LIB_DIGEST, DIGEST, and the root that signed it. -/
structure FwInfo where
  version : Nat
  svn : Nat
  lib : List Byte
  digest : List Byte
  root : Nat
  deriving DecidableEq, Repr

/-- An entry of the training cache (R261): its channel, the module and DIMM serial numbers and data rate of its key, and the delay of
each rank, lane and kind. -/
structure TrainEnt where
  chan : Nat
  key : List Nat
  dly : List (Nat × Nat)
  deriving DecidableEq, Repr

/-- Flash and fuses (R338–R342, R261): the two slots, the slot for the next boot, the slot running and what its image declares (none is
the image the module was made with), the fused SVN and revocation bits, and the training cache. -/
structure Flash where
  slotA : FwSlot
  slotB : FwSlot
  active : Nat
  booted : Nat
  fallback : Bool
  busy : Bool
  run : Option FwInfo
  svnFuse : Nat
  revoked : Nat
  cache : List TrainEnt
  deriving DecidableEq, Repr

/-- An act that is closed: its number, its records, its log bytes by free-running offset, and whether its seal is signed and
its export block queued (R353, R358). -/
structure Act where
  num : Nat
  first : Nat
  last : Nat
  logFrom : Nat
  logTo : Nat
  signed : Bool
  deriving DecidableEq, Repr

/-- A record body waiting for its number: CUE, KIND, FLAGS and the payloads (R350, R352). -/
structure RecBody where
  cue : Nat
  kind : Nat
  flags : Nat
  a : List Byte
  b : List Byte
  c : List Byte
  pset : List Byte
  deriving DecidableEq, Repr

/-- The prompt book (R350–R360). Records, seals and log sections themselves lie in DDR5; `due` holds the START and ADMIN
records that wait for a start instant that seals a cue (R352). -/
structure PBook where
  alloc : Bool
  recs : Nat
  seals : Nat
  logLen : Nat
  recBase : Nat
  next : Nat
  exported : Nat
  actFirst : Nat
  actCues : Nat
  actNum : Nat
  sealedAct : Nat
  acts : List Act
  logHead : Nat
  logActFrom : Nat
  logTail : Nat
  due : List RecBody
  verify : Nat
  deriving DecidableEq, Repr

/-- A prompt book that is not allocated. -/
def PBook.reset : PBook :=
  { alloc := false, recs := 0, seals := 0, logLen := 0, recBase := 0, next := 0, exported := 0, actFirst := 0, actCues := 0,
    actNum := 0, sealedAct := 0, acts := [], logHead := 0, logActFrom := 0, logTail := 0, due := [], verify := 0 }

/-- A record of a rehearsed stream: its 256 bytes, the input log section of a CUE record with its entry count, and the result with which
the rehearsal ends at it because its block is bad, with the record number reported (R363, R364). -/
structure RehItem where
  bytes : List Byte
  input : List Byte
  count : Nat
  fault : Nat
  diff : Nat
  deriving DecidableEq, Repr

/-- A rehearsal (R361–R364): whether PREPARE was accepted, whether START_CUES is blocked until a module reset, the records still to take, the
ADMIN record at which it is paused, and what the items of its cues end with, one list for each REHEARSE command still to run. -/
structure Rehearse where
  prepared : Bool
  done : Bool
  items : List RehItem
  paused : Option (List Byte)
  runs : List (List (List ItemFin))
  deriving DecidableEq, Repr

/-- The stages of a PLDM firmware update (R342). -/
inductive UpdState where
  | idle | learn | ready | download | verify | apply
  deriving DecidableEq, Repr

/-- A queued management state request (R495): the page and OFF (0) or RUN (2). -/
structure MgmtReq where
  page : Nat
  state : Nat
  deriving DecidableEq, Repr

/-- The management path (R344–R346, R495): requests queued, messages answered (newest last), the firmware update in progress,
and the SPDM version, algorithms and transcript. -/
structure Mgmt where
  reqs : List MgmtReq
  replies : List (List Byte)
  upd : UpdState
  received : Nat
  compLen : Nat
  version : Option Nat
  algos : Bool
  transcript : List Byte
  deriving DecidableEq, Repr



/-! ## Search arrays, fixed units and engines -/

/-- A valid or invalid entry of a search array (R298); KEY and CARE are 160-bit numbers, bit k of the field at bit k. -/
structure CamEnt where
  key : BitVec 160
  care : BitVec 160
  data : Word64
  deriving DecidableEq, Repr

/-- A listed entry of a search array image: its position, VALID and contents (R311). -/
structure CamLine where
  idx : Nat
  valid : Bool
  ent : CamEnt
  deriving DecidableEq, Repr

/-- A search array (R298, R299): its valid entries by index and its mode. -/
structure Cam where
  ents : List (Nat × Option CamEnt)
  mode : Nat
  deriving DecidableEq, Repr

/-- A job a unit has accepted: its descriptor as copied, the core whose item submitted it, if one did, and whether the stage
manager did (R134, R213, R328). -/
structure UnitJob where
  desc : List Byte
  core : Option Nat
  mgr : Bool := false
  deriving DecidableEq, Repr

/-- How a job ends: its status, its whole done block, and what ERR_INFO1 and ERR_INFO2 receive (R132, R139). -/
structure JobEnd where
  status : Nat
  block : List Byte
  info1 : Nat
  info2 : Nat
  deriving DecidableEq, Repr

/-- The job a unit runs: how it ends once that is settled, the keys or pages done, the page list captured at its start, counts kept on the
way, whether it came from the second FIFO, and the address and status with which its page list failed (R127, R300). -/
structure RunJob where
  job : UnitJob
  fin : Option JobEnd
  at_ : Nat
  hits : Nat
  pages : List Nat
  second : Bool
  blockFrom : Nat
  listBad : Option (Nat × Nat) := none
  deriving DecidableEq, Repr

/-- A unit with one or two FIFOs: SCAN, PROBE (foreground, background), FCODEC, CAM, CMP (SUBMIT, SUBMIT_SM); `held` is a
background probe job that has yielded to a foreground one (R143). -/
structure UnitQ where
  fifo : List UnitJob
  fifo2 : List UnitJob
  run : Option RunJob
  held : Option RunJob := none
  deriving DecidableEq, Repr

/-- A digest job in a slot, suspended or waiting: the message position of its next block, the blocks absorbed so far, whether it must
restore first, and its digest once finalized (R319–R323). -/
structure DigJob where
  job : UnitJob
  pos : Nat
  turns : Nat
  restored : Bool
  fin : Option JobEnd
  out : List Byte
  deriving DecidableEq, Repr

/-- A hash of the commit sweeper or of the prompt book on its way to a digest unit: the unit, the blocks it absorbs and its digest (R322). -/
structure DigHash where
  unit : Nat
  blocks : Nat
  out : List Byte
  deriving DecidableEq, Repr

/-- A digest unit (R319–R323): the slot its engine served last, its slots in the order they were taken, the suspended contexts in order, the FIFO, the digests
the slots last finalized, and the keyed save areas it has sealed since the module reset (ciphertext and state). -/
structure DigUnit where
  last : Nat
  slots : List (Nat × DigJob)
  susp : List DigJob
  fifo : List UnitJob
  results : List (Nat × List Byte)
  areas : List (List Byte × List Byte)
  deriving DecidableEq, Repr

/-- A Larkspur request in service: its descriptor, the unit, and how it ends once settled (R328). -/
structure LsuRun where
  unit : Nat
  verify : Bool
  job : UnitJob
  fin : Option JobEnd
  deriving DecidableEq, Repr

/-- The Larkspur units (R328): the two module queues, the requests in service and the faulted units. -/
structure Lsu where
  sign : List UnitJob
  verify : List UnitJob
  runs : List LsuRun
  faulted : List Nat
  deriving DecidableEq, Repr

/-- A descriptor that a DMA engine runs (R370): its channel, its copy, and the write-back once the data is moved. -/
structure DmaRun where
  chan : Nat
  desc : List Byte
  fin : Option (Nat × Nat × Nat)
  deriving DecidableEq, Repr

/-- A DMA engine (R366–R368): the channel served last, kicks remembered, and the descriptor in progress. -/
structure Dma where
  last : Nat
  kicked : List Nat
  run : Option DmaRun
  deriving DecidableEq, Repr

/-- A search array image whose checks have passed (R312, R313): its target, kind, mode and listed entries, its command, its DIGEST,
whether a FULL write has completed, and the change identifier and answer as for any change (R452). -/
structure CamPending where
  target : Nat
  full : Bool
  mode : Nat
  lines : List CamLine
  sqe : List Byte
  digest : List Byte
  written : Bool
  ident : Option Nat
  ok : Bool
  deriving DecidableEq, Repr



/-! ## Admin changes -/

/-- A change whose checks are complete and that waits for a start instant (R36, R408, R416). -/
inductive Change where
  | load (p : Pipe)
  | unload (id : Nat)
  | attach (d : TableDef) (reattach : Bool)
  | detach (t : Nat)
  | tableLoad (t : Nat) (x : Table) (digest : List Byte)
  | camFull (c : CamPending)
  | keyImport (slot : Nat) (k : Option KeySlot) (kind : Nat) (digest : List Byte)
  | fwActivate (commit : Bool)
  | snapshot (t addr len : Nat)
  | deleteSq (q : Nat)
  | hold
  deriving DecidableEq, Repr

/-- The admin command that waits: its submission entry, its change, the identifier under which it was sent to an understudy, and
whether no answer to it is outstanding (R452). -/
structure AdminWait where
  sqe : List Byte
  change : Change
  ident : Option Nat
  ok : Bool
  deriving DecidableEq, Repr


/-! ## Wing ports and the company -/

/-- A frame on a wing link: its type, virtual channel, FSEQ, MORE flag, the credits it returns and its payload (R437). The ACK
field is filled with `rxSeq` as the frame leaves. -/
structure Frame where
  typ : Nat
  vc : Nat
  fseq : Nat
  more : Bool
  credVc : Nat
  cred : Nat
  payload : List Byte
  deriving DecidableEq, Repr

/-- What a TAG of this module's outstanding remote requests stands for (R439, R469): a load of a core, a store buffer entry of
a core, or a store of an engine. -/
inductive WingReq where
  | load (key addr size : Nat)
  | store (key block : Nat)
  | engine
  deriving DecidableEq, Repr

/-- A wing port (R436–R448): sequence numbers, the replay buffer of unacknowledged frames, the frames that wait for credits or
room, replays without progress, the credits held by channel, messages being assembled, the HELLOs of both ends, whether the
partner's AUTH has been judged, the next TAG and the requests outstanding. -/
structure Wing where
  txSeq : Nat
  rxSeq : Nat
  replay : List Frame
  waitq : List Frame
  stuck : Nat
  credits : List Nat
  partBuf : List (Nat × List Byte)
  partType : List (Nat × Nat)
  myHello : List Byte
  peerHello : List Byte
  authed : Option Bool
  tag : Nat
  reqs : List (Nat × WingReq)
  deriving DecidableEq, Repr

/-- A wing port that is DOWN. -/
def Wing.reset : Wing :=
  { txSeq := 0, rxSeq := 0, replay := [], waitq := [], stuck := 0, credits := [], partBuf := [], partType := [],
    myHello := [], peerHello := [], authed := none, tag := 0, reqs := [] }

/-- A SEAL the understudy holds (R451): the cue, its list of (SQ_ID, disposition, SQ index), and the changes. -/
structure SealMsg where
  cue : Nat
  ents : List (Nat × Nat × Nat)
  changes : List Nat
  deriving DecidableEq, Repr

/-- A cascaded search in progress at rank 0 or at its issuer (R308): the issuer, its number, this member's result, the MATCH
bits and results received. -/
structure Search where
  issuer : Nat
  num : Nat
  own : List Byte
  bits : List (Nat × Bool)
  results : List (Nat × List Byte)
  lost : Bool
  deriving DecidableEq, Repr

/-- The company protocols (R449–R468): arrivals and seals an understudy holds, changes received in parts and checked, the
peer's digests for a cue, catch-up at either end (the snapshot the lead streams, whether this module is loading one or has
sent READY, deltas not yet applied, the last cue applied, the cue of lockstep), lost and dropped ranks,
cascaded searches, the last report driven on MATCH_OUT, the CUE_SYNC edge of a follower, FAULT_SEEN of the running cue, and whether this lead's
understudy has to catch up. -/
structure Company where
  arrivals : List Entry
  seals : List SealMsg
  changes : List (Nat × Nat × List Byte)
  changeParts : List (Nat × List Byte)
  peerDigest : Option (Nat × Bool × Digests)
  catchS : Option Nat
  loading : Bool
  ready : Bool
  deltas : List (Nat × List Byte)
  appliedTo : Nat
  lockAt : Option Nat
  yielded : Bool
  promoting : Bool
  lost : List Nat
  dropped : List Nat
  searchNum : Nat
  searches : List Search
  report : Option (Nat × Nat × Bool)
  cueSynced : Bool
  faultSeen : Bool
  peerBehind : Bool
  deriving DecidableEq, Repr

/-- No company: SOLO. -/
def Company.reset : Company :=
  { arrivals := [], seals := [], changes := [], changeParts := [], peerDigest := none, catchS := none, loading := false, ready := false, deltas := [],
    appliedTo := 0, lockAt := none, yielded := false, promoting := false, lost := [], dropped := [], searchNum := 0,
    searches := [], report := none, cueSynced := false, faultSeen := false, peerBehind := false }

/-- The state of the module. -/
structure State where
  /-- The commands that are waiting, first in, first out. -/
  pending : List Instr
  /-- The model's own counter of free values used (Assumption 3). -/
  fresh : Nat
  /-- The model's own clock of arrival stamps: it counts the commands that created one (R282). -/
  stamp : Nat
  /-- The beat clock, in beats since it started (R27). -/
  beat : Nat
  /-- What is fixed in this built module. -/
  build : Build
  /-- Power, module state, curtain and halt. -/
  mdl : Module
  /-- The register pages by page × 1024 + offset / 4; an unlisted word reads its Reset column. -/
  regs : List (Nat × Word32)
  /-- The 64-bit counters that are read in two halves, by the key of their low word. -/
  wide : List (Nat × Nat)
  /-- The device memory: HBM, DDR5 and green room, as every agent sees it (R250). -/
  mem : List Host.Cell
  /-- The host's memory, which the module reads and writes through the HEP. -/
  host : List Host.Cell
  /-- The cores, by cluster × 16 + core; an unlisted core is as reset leaves it. -/
  cores : List (Nat × Core)
  /-- The clusters; an unlisted cluster is as reset leaves it. -/
  clusters : List (Nat × Cluster)
  /-- The router's external inputs. -/
  irtr : Irtr
  /-- The memory controllers; an unlisted one is as reset leaves it. -/
  memcs : List (Nat × Memc)
  /-- The host endpoint. -/
  hep : Hep
  /-- The attached tables by number. -/
  tables : List (Nat × Option Table)
  /-- The tables that survived a reset unattached (R115). -/
  detached : List (Nat × Option Table)
  /-- The strike sweep. -/
  strike : Strike
  /-- The pipeline set in force, in ascending PIPE_ID. -/
  pipes : List Pipe
  /-- The analytic jobs between admission and release, in admission order. -/
  jobs : List Job
  /-- The next job number of this module. -/
  jobSeq : Nat
  /-- The queue pairs by number; an unlisted number has no queue. Pair 0 is the admin pair. -/
  qpairs : List (Nat × QPair)
  /-- The journal queue, if one exists. -/
  journal : Option JournalQ
  /-- The export blocks that wait for the journal queue, oldest first. -/
  exports : List ExportBlock
  /-- The JOURNAL_CODEC feature (R417). -/
  journalCodec : Nat
  /-- The ANALYTIC_POOL feature (R417). -/
  poolGib : Nat
  /-- The admin commands behind one that waits for a start instant (R415). -/
  adminBacklog : List AdminEntry
  /-- The cue logic. -/
  cue : Cue
  /-- The duplicate window, oldest first (R459). -/
  dup : List DupEnt
  /-- The key store. -/
  keys : Keys
  /-- Flash and fuses. -/
  flash : Flash
  /-- The prompt book. -/
  pbook : PBook
  /-- Rehearsal. -/
  rehearse : Rehearse
  /-- The management path. -/
  mgmt : Mgmt
  /-- The two search arrays; an unlisted one is empty, in native mode. -/
  cams : List (Nat × Cam)
  /-- The queues and running jobs of SCAN, PROBE, FCODEC, CAM and CMP, by page. -/
  units : List (Nat × UnitQ)
  /-- The digest units, by page. -/
  digs : List (Nat × DigUnit)
  /-- Hashes of the commit sweeper and the prompt book that no command of their digest unit has met yet (R322). -/
  hashes : List DigHash
  /-- The Larkspur queues and requests in service. -/
  lsu : Lsu
  /-- The DMA engines, by number. -/
  dmas : List (Nat × Dma)
  /-- The DELTA loads that wait, in submission order (R313). -/
  camDeltas : List CamPending
  /-- The admin command that waits for a start instant (R415). -/
  adminWait : Option AdminWait
  /-- The SNAPSHOT_EXPORT being written: its entry, table, buffer, buffer length and snapshot. -/
  snapExport : Option (List Byte × Nat × Nat × Nat × Nat)
  /-- A SNAPSHOT_EXPORT that was evicted and completes at the next start instant. -/
  evictedExport : Option (List Byte)
  /-- The duplicate window that a reset kept aside until the first reattach (R459). -/
  dupKept : List DupEnt
  /-- The next change identifier of this module (R452). -/
  changeSeq : Nat
  /-- The wing ports; an unlisted one is DOWN. -/
  wings : List (Nat × Wing)
  /-- The company protocols. -/
  company : Company
  deriving DecidableEq, Repr

/-- The module right after reset: the supply in range and PERST# asserted, so OFF (R473); every register page at its
Reset column; memories, queues and units empty; and the commands waiting for it, none. -/
def State.reset : State where
  pending := []
  fresh := 0
  stamp := 0
  beat := 0
  build := { ordering := 1, serial := 0, dimmSerial := [] }
  mdl := { supply := true, perst := true, tripped := false, st := .off, before := .ready, curtain := false, halt := false, faultCue := 0, standbyOp := none, tjHot := false, vinWarn := false, railsBad := 0, alertPulses := 0 }
  regs := []
  wide := []
  mem := []
  host := []
  cores := []
  clusters := []
  irtr := { alert := [], present := [], latched := [], refclk := true }
  memcs := []
  hep := Hep.reset
  tables := []
  detached := []
  strike := { stage := 0, running := false, lastS := 0, since := 0, limit := 200, reserveSets := false, pins := [] }
  pipes := []
  jobs := []
  jobSeq := 0
  qpairs := []
  journal := none
  exports := []
  journalCodec := 0
  poolGib := 16
  adminBacklog := []
  cue := Cue.reset
  dup := []
  keys := { slots := [], kt := none, comps := [] }
  flash := { slotA := { factory := true, bytes := [] }, slotB := { factory := false, bytes := [] }, active := 0, booted := 0, fallback := false, busy := false, run := none, svnFuse := 0, revoked := 0, cache := [] }
  pbook := PBook.reset
  rehearse := { prepared := false, done := false, items := [], paused := none, runs := [] }
  mgmt := { reqs := [], replies := [], upd := .idle, received := 0, compLen := 0, version := none, algos := false, transcript := [] }
  cams := []
  units := []
  digs := []
  hashes := []
  lsu := { sign := [], verify := [], runs := [], faulted := [] }
  dmas := []
  camDeltas := []
  adminWait := none
  snapExport := none
  evictedExport := none
  dupKept := []
  changeSeq := 0
  wings := []
  company := Company.reset

end Sys2Proof.Machine
end

