-- ==== Sys2Proof/Machine/Ops.lean ====
section
/-!
DEFINITION. The named operations every block shares: the register pages and their events and errors, the free values, the
address map, the device and host memories with what a store does to other agents, the clusters and the cores.
-/
namespace Sys2Proof.Machine
open Sys2Proof

/-! ## Register pages -/

/-- The number of instances of a directory row (R505). -/
def dirCount (r : DirRow) : Nat := r.groups * r.run

/-- The page index of instance `i` of a directory row (R505). -/
def dirPage (r : DirRow) (i : Nat) : Nat := r.first + i / r.run * r.gstride + i % r.run * r.step

/-- The first directory row of a block. -/
def dirRow (b : Blk) : Option DirRow := directory.find? (fun r => decide (r.blk = b))

/-- The page of instance `i` of a block (R505). -/
def pageOf (b : Blk) (i : Nat) : Nat := match dirRow b with
  | some r => dirPage r i
  | none => 0

/-- The instance of a row that lies at a page, if any. -/
def dirInstance (r : DirRow) (page : Nat) : Option Nat :=
  if page < r.first then none
  else
    let o := page - r.first
    let g := if r.gstride = 0 then 0 else o / r.gstride
    let inG := if r.gstride = 0 then o else o % r.gstride
    let k := if r.step = 0 then inG else inG / r.step
    if g < r.groups ∧ k < r.run ∧ dirPage r (g * r.run + k) = page then some (g * r.run + k) else none

/-- The block and instance at a page position, or none at a reserved position (R501, R505). -/
def blkAt (page : Nat) : Option (Blk × Nat) :=
  directory.findSome? (fun r => (dirInstance r page).map (fun i => (r.blk, i)))

/-- The row of a page table that covers an offset. -/
def rowCovers (off : Nat) (r : RegRow) : Bool :=
  decide (r.off ≤ off) && decide ((off - r.off) % r.stride = 0) && decide ((off - r.off) / r.stride < r.count)

/-- A block whose CTL the spec describes outside its table: EN reads 1, or is the SCAN page's CTL (R500, the page introductions). -/
def ctlRow : Blk → Option RegRow
  | .probe => some ⟨0x008, 1, 4, 0x1, 0, 0x102, 1⟩
  | .fcodec => some ⟨0x008, 1, 4, 0x1, 0, 0x102, 1⟩
  | .cue => some ⟨0x008, 1, 4, 0xF1, 0, 0x2, 0⟩
  | .strike => some ⟨0x008, 1, 4, 0, 0, 0x2, 1⟩
  | .commit => some ⟨0x008, 1, 4, 0, 0, 0x2, 1⟩
  | .irtr => some ⟨0x008, 1, 4, 0, 0, 0x2, 1⟩
  | .memt => some ⟨0x008, 1, 4, 0, 0, 0, 1⟩
  | .moddir => some ⟨0x008, 1, 4, 0, 0, 0, 1⟩
  | .modid => some ⟨0x008, 1, 4, 0, 0, 0, 1⟩
  | .pbook => some ⟨0x008, 1, 4, 0, 0, 0x2, 1⟩
  | _ => none

/-- The table row of an offset of a block's page: the block's own table first, then the common layout (R500). -/
def rowAt (b : Blk) (off : Nat) : Option RegRow :=
  match (blkRows b).find? (rowCovers off) with
  | some r => some r
  | none =>
    match (ctlRow b).filter (rowCovers off) with
    | some r => some r
    | none => commonRows.find? (rowCovers off)

/-- The Reset column of a word of a block's page. Words whose reset the tables leave to the build are computed when read. -/
def resetOf (b : Blk) (off : Nat) : Word32 :=
  if b = .modctl ∧ off = 0x014 then 0x3F#32
  else match rowAt b off with
    | some r => BitVec.ofNat 32 r.reset
    | none => 0

/-- What an unlisted register word reads (R476, R500, R501), by its key. -/
def resetWord (key : Nat) : Word32 :=
  match blkAt (key / 1024) with
  | some (b, _) => resetOf b (key % 1024 * 4)
  | none => 0

/-- The key of a register word. -/
def regKey (page off : Nat) : Nat := page * 1024 + off % 4096 / 4

/-- The stored value of a register word. -/
def State.reg (s : State) (page off : Nat) : Word32 := Sparse.get resetWord s.regs (regKey page off)

/-- The state with a register word replaced. -/
def State.setReg (s : State) (page off : Nat) (v : Word32) : State :=
  { s with regs := Sparse.set resetWord s.regs (regKey page off) v }

/-- Bits `hi..lo` of a register word. -/
def State.fld (s : State) (page off hi lo : Nat) : Nat := Word.bits hi lo (s.reg page off).toNat

/-- Bits `hi..lo` of a register word replaced; the value is reduced to the field's width. -/
def State.setFld (s : State) (page off hi lo v : Nat) : State :=
  s.setReg page off (BitVec.ofNat 32 (Word.putBits hi lo v (s.reg page off).toNat))

/-- A 32-bit counter raised by `n`, modulo 2^32. -/
def State.addReg (s : State) (page off n : Nat) : State := s.setReg page off (s.reg page off + BitVec.ofNat 32 n)

/-- The reset value of a 64-bit counter: OLDEST_PIN reads all ones (the STRIKE page), every other 0. -/
def wideReset (key : Nat) : Nat :=
  if key = regKey (pageOf .strike 0) 0x050 then 2 ^ 64 - 1 else 0

/-- A 64-bit counter, by its low word. -/
def State.wideAt (s : State) (page off : Nat) : Nat := Sparse.get wideReset s.wide (regKey page off)

/-- A 64-bit counter replaced. -/
def State.setWide (s : State) (page off v : Nat) : State :=
  { s with wide := Sparse.set wideReset s.wide (regKey page off) (v % 2 ^ 64) }

/-- A 64-bit counter raised. -/
def State.addWide (s : State) (page off n : Nat) : State := s.setWide page off (s.wideAt page off + n)

/-- A run of words set to 0. -/
def State.zeroRegs (s : State) (page : Nat) : List Nat → State
  | [] => s
  | off :: r => (s.setReg page off 0).zeroRegs page r

/-- A page at its Reset column (R476). -/
def State.resetPage (s : State) (page : Nat) : State :=
  { s with regs := Sparse.clear s.regs (page * 1024) (page * 1024 + 1024),
           wide := Sparse.clear s.wide (page * 1024) (page * 1024 + 1024) }

/-! ## Events and errors -/

/-- The number of events a block defines (the events rule of each page chapter); the defined bits are the low ones. -/
def evtCount : Blk → Nat
  | .modctl => 6 | .pwr => 5 | .hep => 5 | .qeng => 2 | .qctx => 2 | .cue => 5 | .commit => 4 | .pbook => 5 | .rehearse => 3
  | .strike => 5 | .wing => 4 | .company => 6 | .clu => 2 | .l2 => 5 | .disp => 3 | .dig => 5 | .fcodec => 3 | .core => 4
  | .memc => 5 | .scan => 3 | .probe => 3 | .lsu => 4 | .cam => 4 | .cmp => 3 | .dma => 2 | .keys => 3 | .mgmt => 2
  | .flash => 2 | _ => 0

/-- The mask of a block's defined event bits (R502). -/
def evtMask (b : Blk) : Nat := 2 ^ evtCount b - 1

/-- EVT_PEND of a page: EVT_RAW AND EVT_EN (R500). -/
def State.evtPend (s : State) (page : Nat) : Word32 := s.reg page 0x010 &&& s.reg page 0x014

/-- The first error latches ERR_CODE with its details; a later one changes nothing (R503). -/
def State.err (s : State) (page code i0 i1 i2 : Nat) : State :=
  if s.reg page 0x020 = 0 then
    (((s.setReg page 0x020 (BitVec.ofNat 32 code)).setReg page 0x024 (BitVec.ofNat 32 i0)).setReg page 0x028
      (BitVec.ofNat 32 i1)).setReg page 0x02C (BitVec.ofNat 32 i2)
  else s

/-- ERR_CODE and ERR_INFO0–2 cleared (R503). -/
def State.errClear (s : State) (page : Nat) : State := s.zeroRegs page [0x020, 0x024, 0x028, 0x02C]

/-- Whether the HEP may send requests and messages: not frozen, the link up, Bus Master Enable set and D0 (R398, R425). -/
def Hep.canSend (h : Hep) : Bool := !h.frozen && h.linkUp && h.bme && h.d0

/-- An MSI-X vector is raised: sent if it may be, and otherwise marked pending; nothing while MSI-X is disabled (R401). -/
def State.raiseVector (s : State) (v : Nat) : State :=
  let h := s.hep
  if !h.msixEn then s
  else if h.canSend && !h.msixMask && h.unmasked.contains v then { s with hep := { h with sent := h.sent ++ [v] } }
  else if h.pba.contains v then s
  else { s with hep := { h with pba := h.pba ++ [v] } }

/-- Event bits are set in EVT_RAW, as far as the block defines them (R502). MODCTL raises vector 1 when its EVT_PEND changes
from 0 to a non-zero value (R402). -/
def State.orEvt (s : State) (page : Nat) (bits : Nat) : State :=
  match blkAt page with
  | none => s
  | some (b, _) =>
    let s1 := s.setReg page 0x010 (s.reg page 0x010 ||| BitVec.ofNat 32 (Nat.land bits (evtMask b)))
    if b = .modctl ∧ s.evtPend page = 0 ∧ s1.evtPend page ≠ 0 then s1.raiseVector 1 else s1

/-- One event is raised (R500). -/
def State.evt (s : State) (page bit : Nat) : State := s.orEvt page (2 ^ bit)

/-- The page that records the errors of a page: those of a MEMT page are recorded in MEMC.ERR_CODE (R270). -/
def errPage (page : Nat) : Nat := match blkAt page with
  | some (.memt, i) => pageOf .memc i
  | _ => page

/-- An expert write: refused with EXPERT_LOCKED while LEVEL.EXPERT is 0 (R504). -/
def State.expertDo (s : State) (page off : Nat) (t : State) : State :=
  if s.fld page 0x034 0 0 = 1 then t else s.err (errPage page) 0x0001 off 0 0

/-! ## Free values and stamps -/

/-- A free word and the state that has used it (Assumption 3). -/
def State.freeW (s : State) : Word64 × State := (Config.freeWord s.fresh, { s with fresh := s.fresh + 1 })

/-- `n` free bytes and the state that has used them (Assumption 3). -/
def State.freeBytes (s : State) (n : Nat) : List Byte × State :=
  ((List.range n).map (fun i => Config.freeByte (s.fresh + i)), { s with fresh := s.fresh + n })

/-- A new arrival stamp (R282). -/
def State.tick (s : State) : State := { s with stamp := s.stamp + 1 }

/-! ## Clusters, cores and controllers -/

/-- A cluster. -/
def State.cluster (s : State) (c : Nat) : Cluster := Sparse.get (fun _ => Cluster.reset) s.clusters c

/-- A cluster replaced. -/
def State.setCluster (s : State) (c : Nat) (x : Cluster) : State :=
  { s with clusters := Sparse.set (fun _ => Cluster.reset) s.clusters c x }

/-- The key of a core. -/
def coreKey (w : CoreRef) : Nat := w.c.val * 16 + w.k.val

/-- A core, by its key. -/
def State.coreAt (s : State) (k : Nat) : Core := Sparse.get (fun _ => Core.reset) s.cores k

/-- A core replaced, by its key. -/
def State.setCoreAt (s : State) (k : Nat) (x : Core) : State :=
  { s with cores := Sparse.set (fun _ => Core.reset) s.cores k x }

/-- A core. -/
def State.core (s : State) (w : CoreRef) : Core := s.coreAt (coreKey w)

/-- A core replaced. -/
def State.setCore (s : State) (w : CoreRef) (x : Core) : State := s.setCoreAt (coreKey w) x

/-- The CORE page of a core (R505). -/
def corePage (key : Nat) : Nat := pageOf .core key

/-- A memory controller. -/
def State.memc (s : State) (m : Nat) : Memc := Sparse.get (fun _ => Memc.reset) s.memcs m

/-- A memory controller replaced. -/
def State.setMemc (s : State) (m : Nat) (x : Memc) : State :=
  { s with memcs := Sparse.set (fun _ => Memc.reset) s.memcs m x }

/-- CLU.CTL.EN of a cluster: 0 holds its cores in reset (the CLU page). -/
def State.cluEn (s : State) (c : Nat) : Bool := decide (s.fld (pageOf .clu c) 0x008 0 0 = 1)

/-! ## The address map -/

/-- The regions of the device address space (R508). -/
inductive Region where
  | hbm | ddr | green (c : Nat) | wing (p : Nat) | host | regs | hole
  deriving DecidableEq, Repr

/-- Bytes of HBM (R4). -/
def hbmSize : Nat := 0x003600000000

/-- DDR5 bytes of the build (R4). -/
def Build.ddrBytes (b : Build) : Nat := b.ordering * 2 ^ 40

/-- The region of a device address (R508). An address above 48 bits lies in none. -/
def State.region (s : State) (a : Nat) : Region :=
  if a < 0x003600000000 then .hbm
  else if 0x010000000000 ≤ a ∧ a < 0x010000000000 + s.build.ddrBytes then .ddr
  else if 0xC00000000000 ≤ a ∧ a < 0xC00000000000 + 12 * 0x01000000 then .green ((a - 0xC00000000000) / 0x01000000)
  else if 0xD00000000000 ≤ a ∧ a < 0xD00000000000 + 4 * 0x010000000000 then .wing ((a - 0xD00000000000) / 0x010000000000)
  else if 0xE00000000000 ≤ a ∧ a < 0xE00000000000 + 2 ^ 44 then .host
  else if 0xF00000000000 ≤ a ∧ a < 0xF00002000000 then .regs
  else .hole

/-- The class of an address (R228). -/
def State.classOf (s : State) (a : Nat) : AccessClass :=
  match s.region a with
  | .wing _ => .remote
  | .host => .remote
  | .regs => .register
  | _ => .memory

/-- The controller of an HBM or DDR5 address (R255). -/
def memcOf (a : Nat) : Nat :=
  if a < 0x010000000000 then 16 + a / 65536 % 6 else (a - 0x010000000000) / 65536 % 16

/-- GREEN_NOW of a cluster: the green room ways in force. -/
def State.greenNow (s : State) (c : Nat) : Nat := s.fld (pageOf .l2 c) 0x00C 15 12

/-- Whether an address is populated (R229, R245, R256, R469, R508). An untrained controller serves nothing (R260). -/
def State.populated (s : State) (a : Nat) : Bool :=
  match s.region a with
  | .hbm => let u := (s.memc (memcOf a)).unit; u == 2 || u == 4
  | .ddr => let u := (s.memc (memcOf a)).unit; u == 2 || u == 4
  | .green c => decide (a - 0xC00000000000 - c * 0x01000000 < s.greenNow c * 524288)
  | .wing p => decide (a - 0xD00000000000 - p * 0x010000000000 < 2 ^ s.fld (pageOf .wwin p) 0x048 5 0)
  | .host => true
  | .regs => true
  | .hole => false

/-- Whether an address lies on a frozen controller, which answers with an error (R265). -/
def State.frozenAt (s : State) (a : Nat) : Bool :=
  match s.region a with
  | .hbm => (s.memc (memcOf a)).unit == 4
  | .ddr => (s.memc (memcOf a)).unit == 4
  | _ => false

/-- Whether every byte of a range is populated memory-class and no byte lies on a frozen controller. Ranges are checked at
both ends and at every interleave unit between them (R255). -/
def State.rangeOk (s : State) (a n : Nat) : Bool :=
  n == 0 ||
  ((List.range ((a + n - 1) / 65536 - a / 65536 + 1)).map (fun i => if i = 0 then a else (a / 65536 + i) * 65536) ++
    [a + n - 1]).all (fun x => s.populated x && !s.frozenAt x && decide (s.classOf x = .memory))

/-! ## Memory -/

/-- What a byte of memory that nothing has written reads as: a free value in green room, whose bytes are undefined after a
conversion (R247, Assumption 3), and 0x00 everywhere else (Assumption 2). -/
def blankByte (a : Nat) : Byte :=
  if 0xC00000000000 ≤ a ∧ a < 0xC00000000000 + 12 * 0x01000000 then Config.greenByte a else 0

/-- What a byte of host memory that nothing has written reads as: 0x00 (Assumption 2). -/
def blankHost (_ : Nat) : Byte := 0

/-- The canonical form of a memory: addresses strictly rising and no byte equal to what an unlisted address reads as. -/
def Memory.wf (m : List Host.Cell) : Bool := Sparse.wf blankByte m

/-- One byte of device memory. -/
def State.byteAt (s : State) (a : Nat) : Byte := Sparse.get blankByte s.mem a

/-- A run of bytes of device memory. -/
def State.bytesAt (s : State) (a n : Nat) : List Byte := Sparse.getRun blankByte s.mem a n

/-- A little-endian value in device memory (R8). -/
def State.valAt (s : State) (a n : Nat) : Nat := Word.leValue (s.bytesAt a n)

/-- Device memory with a run of bytes replaced, and nothing else changed. -/
def State.pokeBytes (s : State) (a : Nat) (bs : List Byte) : State :=
  { s with mem := Sparse.setRun blankByte s.mem a bs }

/-- A run of bytes of host memory. -/
def State.hostBytesAt (s : State) (a n : Nat) : List Byte := Sparse.getRun blankHost s.host a n

/-- A little-endian value in host memory. -/
def State.hostValAt (s : State) (a n : Nat) : Nat := Word.leValue (s.hostBytesAt a n)

/-- Host memory with a run of bytes replaced. -/
def State.pokeHost (s : State) (a : Nat) (bs : List Byte) : State :=
  { s with host := Sparse.setRun blankHost s.host a bs }

/-- Whether two half-open ranges meet. -/
def rangesMeet (a n b m : Nat) : Bool := decide (a < b + m) && decide (b < a + n) && decide (0 < n) && decide (0 < m)

/-- A core whose reservation is lost when a store meets its granule (R226, R254). -/
def Core.loseResvAt (x : Core) (a n : Nat) : Core :=
  match x.resv with
  | some (g, len) => if rangesMeet a n g len then { x with resv := none } else x
  | none => x

/-- Every reservation that a store meets is lost, whoever stores (R226, R254). -/
def State.loseResv (s : State) (a n : Nat) : State :=
  { s with cores := (s.cores.map (fun p => (p.1, p.2.loseResvAt a n))).filter (fun p => decide (p.2 ≠ Core.reset)) }

/-- The lines of one L2 without those that a store of another agent has replaced (R250). -/
def L2.dropLines (x : L2) (a n : Nat) : L2 :=
  { x with lines := x.lines.filter (fun p => match p.2 with
      | some l => !rangesMeet a n (l.lineNo * 128) 128
      | none => false) }

/-- One cluster without its copies of the lines a store of another agent has replaced, in its L2 and its L1 data caches (R236, R250). -/
def Cluster.dropLines (x : Cluster) (a n : Nat) : Cluster :=
  { x with l2 := x.l2.dropLines a n, l1d := x.l1d.filter (fun p => !rangesMeet a n (p.2 * 128) 128) }

/-- Every cluster L2 but one drops its copies of the lines a store writes (R250, Assumption 6). -/
def State.dropLines (s : State) (own : Option Nat) (a n : Nat) : State :=
  let f : Nat × Cluster → Nat × Cluster := fun p => if own = some p.1 then p else (p.1, p.2.dropLines a n)
  let cs := s.clusters.map f
  { s with clusters := cs.filter (fun p => decide (p.2 ≠ Cluster.reset)) }

/-- A store to device memory by an agent outside the cluster caches: the bytes are in force at once for every agent, cached
copies of their lines are gone, and reservations on them are lost (R226, R250). -/
def State.storeMem (s : State) (a : Nat) (bs : List Byte) : State :=
  ((s.dropLines none a bs.length).loseResv a bs.length).pokeBytes a bs

end Sys2Proof.Machine
end

