-- ==== Sys2Proof/Machine/Cache.lean ====
section
/-!
DEFINITION. The cluster L2 (R236–R249): lookup, replacement, maintenance, conversion, preload and bypass, and the stores
that reach it from the cores of its cluster.
-/
namespace Sys2Proof.Machine
open Sys2Proof

/-- The L2 page of a cluster. -/
def l2Page (c : Nat) : Nat := pageOf .l2 c

/-- An L2 of a cluster replaced. -/
def State.setL2 (s : State) (c : Nat) (x : L2) : State := s.setCluster c { s.cluster c with l2 := x }

/-- The key of the way that holds a line, if the L2 holds it. -/
def l2Find (x : L2) (lineNo : Nat) : Option Nat :=
  (x.lines.find? (fun p => match p.2 with | some l => l.lineNo == lineNo | none => false)).map Prod.fst

/-- The line at a set and way. -/
def l2At (x : L2) (key : Nat) : Option L2Line := Sparse.get (fun _ => none) x.lines key

/-- The L2 with one set and way replaced. -/
def l2Put (x : L2) (key : Nat) (l : Option L2Line) : L2 := { x with lines := Sparse.set (fun _ => none) x.lines key l }

/-- Whether a core of the cluster holds a reservation on a granule that contains the line (R238). -/
def State.lineReserved (s : State) (c lineNo : Nat) : Bool :=
  (List.range 16).any (fun k => match (s.coreAt (c * 16 + k)).resv with
    | some (g, n) => rangesMeet (lineNo * 128) 128 g n
    | none => false)

/-- The cache ways of a set that are neither green room nor locked (R238). -/
def State.eligibleWays (s : State) (c : Nat) : List Nat :=
  let green := s.greenNow c
  let lock := s.fld (l2Page c) 0x400 11 0
  (List.range 16).filter (fun w => decide (green ≤ w) && !(decide (w < 12) && Word.bit w lock))

/-- The next state of the replacement LFSR (R238). -/
def lfsrNext (x : Nat) : Nat :=
  let b := fun i => if Word.bit i x then 1 else 0
  (x * 2 + (b 15 + b 13 + b 12 + b 10) % 2) % 65536

/-- The victim way of a set and the state after choosing it (R238): the lowest invalid eligible way, or the way the LFSR
picks. Lines inside a reserved granule are left out while another eligible way exists. -/
def State.l2Victim (s : State) (c set : Nat) : Option Nat × State :=
  let x := (s.cluster c).l2
  let ways := s.eligibleWays c
  let free := ways.filter (fun w => (l2At x (set * 16 + w)).isNone)
  match free with
  | w :: _ => (some w, s)
  | [] =>
    let open_ := ways.filter (fun w => match l2At x (set * 16 + w) with
      | some l => !s.lineReserved c l.lineNo
      | none => true)
    let cand := if open_.isEmpty then ways else open_
    if cand.isEmpty then (none, s)
    else
      let n := lfsrNext (s.fld (l2Page c) 0x050 31 16)
      (cand[n * cand.length / 65536]?, s.setFld (l2Page c) 0x050 31 16 n)

/-- The reservations of the cluster's cores that an evicted line ends (R226). -/
def State.evictResv (s : State) (c lineNo : Nat) : State :=
  (List.range 16).foldl (fun t k =>
    let x := t.coreAt (c * 16 + k)
    t.setCoreAt (c * 16 + k) (x.loseResvAt (lineNo * 128) 128)) s

/-- A line leaves the L2, and with it every L1 data cache of the cluster (R236). -/
def State.l2Drop (s : State) (c key lineNo : Nat) : State :=
  let x := s.cluster c
  s.setCluster c { x with l2 := l2Put x.l2 key none, l1d := x.l1d.filter (fun p => p.2 != lineNo) }

/-- A line leaves the L2; dirty data is written back (R236, R240). -/
def State.l2Evict (s : State) (c key : Nat) : State :=
  let x := (s.cluster c).l2
  match l2At x key with
  | none => s
  | some l =>
    let s1 := (s.l2Drop c key l.lineNo).evictResv c l.lineNo
    if l.dirty then s1.addReg (l2Page c) 0x05C 1 else s1

/-- A dirty line is written back and stays valid (R240, CLEAN). -/
def State.l2CleanAt (s : State) (c key : Nat) : State :=
  let x := (s.cluster c).l2
  match l2At x key with
  | none => s
  | some l =>
    if l.dirty then
      (s.setL2 c (l2Put x key (some { l with dirty := false, backing := [] }))).addReg (l2Page c) 0x05C 1
    else s

/-- A line is invalidated; dirty data is discarded, so memory holds what it held before the line became dirty (R240, INVAL). -/
def State.l2InvalAt (s : State) (c key : Nat) : State :=
  let x := (s.cluster c).l2
  match l2At x key with
  | none => s
  | some l =>
    let s1 := (s.l2Drop c key l.lineNo).evictResv c l.lineNo
    if l.dirty then s1.pokeBytes (l.lineNo * 128) l.backing else s1

/-- The maintenance operations (R240). -/
inductive MaintOp where
  | clean | inval | cleanInval
  deriving DecidableEq, Repr

/-- One maintenance operation on one set and way. -/
def State.l2MaintAt (s : State) (c : Nat) (op : MaintOp) (key : Nat) : State :=
  match op with
  | .clean => s.l2CleanAt c key
  | .inval => s.l2InvalAt c key
  | .cleanInval => s.l2Evict c key

/-- One maintenance operation on the line of an address, if the L2 holds it (R240). -/
def State.l2MaintAddr (s : State) (c : Nat) (op : MaintOp) (a : Nat) : State :=
  match l2Find (s.cluster c).l2 (a / 128) with
  | some key => s.l2MaintAt c op key
  | none => s

/-- One maintenance operation on every cache way (R241). -/
def State.l2MaintAll (s : State) (c : Nat) (op : MaintOp) : State :=
  (Sparse.keys (s.cluster c).l2.lines).foldl (fun t key => t.l2MaintAt c op key) s

/-- The cache holds only HBM and DDR5 lines (R236). -/
def State.cacheable (s : State) (a : Nat) : Bool :=
  match s.region a with
  | .hbm => true
  | .ddr => true
  | _ => false

/-- STAT.BYPASS of a cluster L2. -/
def State.bypassed (s : State) (c : Nat) : Bool := decide (s.fld (l2Page c) 0x00C 9 9 = 1)

/-- One lookup of the line that holds an address, from the cluster's side: a hit, or a miss that allocates. A write makes the
line dirty and remembers what memory holds beneath it (R236, R238, R242). -/
def State.l2Access (s : State) (c a : Nat) (write : Bool) : State :=
  if !s.cacheable a || s.bypassed c then s
  else
    let ln := a / 128
    let mark := fun (t : State) (key : Nat) (l : L2Line) =>
      if write && !l.dirty then
        t.setL2 c (l2Put (t.cluster c).l2 key (some { l with dirty := true, backing := t.bytesAt (ln * 128) 128 }))
      else t
    match l2Find (s.cluster c).l2 ln with
    | some key =>
      let s1 := s.addReg (l2Page c) 0x054 1
      match l2At (s1.cluster c).l2 key with
      | some l => mark s1 key l
      | none => s1
    | none =>
      let s1 := s.addReg (l2Page c) 0x058 1
      match s1.l2Victim c (ln % 4096) with
      | (none, s2) => s2
      | (some w, s2) =>
        let key := ln % 4096 * 16 + w
        let s3 := s2.l2Evict c key
        let l : L2Line := { lineNo := ln, dirty := false, backing := [] }
        mark (s3.setL2 c (l2Put (s3.cluster c).l2 key (some l))) key l

/-! ## The L1 caches of the cores (R194, R195, R236, R239) -/

/-- Whether a core's L1 data cache holds the line of an address. -/
def State.l1Held (s : State) (key a : Nat) : Bool := (s.cluster (key / 16)).l1d.contains (key % 16, a / 128)

/-- Whether a core's L1 instruction cache holds the line of an address. -/
def State.l1iHeld (s : State) (key a : Nat) : Bool := (s.cluster (key / 16)).l1i.contains (key % 16, a / 128)

/-- A line enters an L1 of a core: 128 sets of four ways, of which a full one loses a line that a free value picks (R194, Assumption 141). -/
def State.l1Put (s : State) (l : List (Nat × Nat)) (k lineNo : Nat) : List (Nat × Nat) × State :=
  let mine := l.filter (fun p => p.1 == k && p.2 % 128 == lineNo % 128)
  if mine.length < 4 then (l ++ [(k, lineNo)], s)
  else
    let (v, s1) := s.freeW
    let out := mine.getD (v.toNat % mine.length) (k, lineNo)
    (l.filter (fun p => p != out) ++ [(k, lineNo)], s1)

/-- A load of a core looks up its L1 data cache, and on a miss the L2, and the line is then in both (R194, R236). Under bypass, and where the
L2 cannot hold the line, the L1 takes nothing (R236, R242). -/
def State.l1Load (s : State) (key a : Nat) : State :=
  let c := key / 16
  if s.l1Held key a then s
  else
    let s1 := s.l2Access c a false
    if s.bypassed c || (l2Find (s1.cluster c).l2 (a / 128)).isNone then s1
    else
      let (l, s2) := s1.l1Put (s1.cluster c).l1d (key % 16) (a / 128)
      s2.setCluster c { s2.cluster c with l1d := l }

/-- A fetch that misses the core's L1 instruction cache takes its line from the L2, as a load would (R194). -/
def State.l1Fetch (s : State) (key a : Nat) : State :=
  let c := key / 16
  if !s.cacheable a || s.l1iHeld key a then s
  else
    let s1 := s.l2Access c a false
    let (l, s2) := s1.l1Put (s1.cluster c).l1i (key % 16) (a / 128)
    s2.setCluster c { s2.cluster c with l1i := l }

/-- A parity error in an L1 line: the line is fetched again from the L2 and the event counted (R195, R235). -/
def State.l1Error (s : State) (key a : Nat) : State :=
  let pg := pageOf .core key
  (((s.l2Access (key / 16) a false).setFld pg 0x040 3 3 1).addReg pg 0x050 1).evt pg 2

/-- The other cores of a cluster lose their L1 copies of the lines that one core's store writes (R250, Assumption 141). -/
def State.l1Others (s : State) (key a n : Nat) : State :=
  let x := s.cluster (key / 16)
  s.setCluster (key / 16) { x with l1d := x.l1d.filter (fun p => p.1 == key % 16 || !rangesMeet a n (p.2 * 128) 128) }

/-- A store from the cluster reaches its L2: every line it writes is looked up and made dirty, copies in other clusters and
reservations on it go, and the bytes are in force for every agent at once (R236, R250). -/
def State.l2Store (s : State) (c a : Nat) (bs : List Byte) : State :=
  if bs.isEmpty then s
  else
    let lines := (List.range ((a + bs.length - 1) / 128 - a / 128 + 1)).map (fun i => (a / 128 + i) * 128)
    let s1 := lines.foldl (fun t x => t.l2Access c x true) s
    ((s1.dropLines (some c) a bs.length).loseResv a bs.length).pokeBytes a bs

/-- Whether an L2 operation keeps STAT.BUSY set (R241). -/
def State.l2Busy (s : State) (c : Nat) : Bool := (s.cluster c).l2.op.isSome

/-- Whether memory-class accesses of the cluster wait for the clean that a disable starts (R242). -/
def State.l2Waits (s : State) (c : Nat) : Bool := (s.cluster c).l2.op == some .disable

/-- An L2 operation begins or ends. -/
def State.setL2Op (s : State) (c : Nat) (op : Option L2Op) : State := s.setL2 c { (s.cluster c).l2 with op := op }

/-- Lines that a preload names, one by one, into one way; it ends at the first address outside HBM and DDR5 (R248). -/
def State.l2Preload (s : State) (c way : Nat) : Nat → Nat → State
  | _, 0 => s
  | a, n + 1 =>
    if !s.cacheable a then s.err (l2Page c) 0x0102 0x40C 0 0
    else
      let ln := a / 128
      let key := ln % 4096 * 16 + way
      let old := l2Find (s.cluster c).l2 ln
      if old = some key then s.l2Preload c way (a + 128) n
      else
        let line : L2Line := match old.bind (fun k => l2At (s.cluster c).l2 k) with
          | some l => l
          | none => { lineNo := ln, dirty := false, backing := [] }
        let s1 := match old with
          | some k => s.setL2 c (l2Put (s.cluster c).l2 k none)
          | none => s
        let s2 := s1.l2Evict c key
        (s2.setL2 c (l2Put (s2.cluster c).l2 key (some line))).l2Preload c way (a + 128) n

/-- The way conversion (R247): ways that become green room are cleaned and invalidated and their bytes are undefined; ways
that return to cache start empty and their bytes are discarded; the rest keep their contents. -/
def State.l2Convert (s : State) (c ways : Nat) : State :=
  let old := s.greenNow c
  let s1 := (Sparse.keys (s.cluster c).l2.lines).foldl
    (fun t key => if key % 16 < ways then t.l2Evict c key else t) s
  let base := 0xC00000000000 + c * 0x01000000
  let lo := min old ways * 524288
  let s2 : State := { s1 with mem := Sparse.clear s1.mem (base + lo) (base + 12 * 524288) }
  s2.setFld (l2Page c) 0x00C 15 12 ways

/-- Dirty lines now held (L2.DIRTY.LINES). -/
def L2.dirtyCount (x : L2) : Nat :=
  (x.lines.filter (fun p => match p.2 with | some l => l.dirty | none => false)).length

end Sys2Proof.Machine
end

