-- ==== Sys2Proof/Machine/CoreBase.lean ====
section
/-!
DEFINITION. The parts of a core that the dispatcher, the interrupt controller and the instructions share: register access,
the CORE page fields, the core reset, and the store buffer (R194–R201, R220, R222).
-/
namespace Sys2Proof.Machine
open Sys2Proof

/-- A general register; g0 reads as 0 (R194). One that nothing has written since a core reset is undefined (R201). -/
def Core.gr (x : Core) (r : Nat) : Word64 :=
  if r = 0 then 0
  else match Sparse.get (fun _ => none) x.g r with
    | some v => v
    | none => match x.undef with
      | some n => Config.freeWord (n + r)
      | none => 0

/-- A general register written; g0 ignores writes (R194). -/
def Core.setGr (x : Core) (r : Nat) (v : Word64) : Core :=
  if r = 0 then x else { x with g := Sparse.set (fun _ => none) x.g r (some v) }

/-- A vector register (R194, R201). -/
def Core.vr (x : Core) (r : Nat) : VWord :=
  match Sparse.get (fun _ => none) x.v r with
  | some v => v
  | none => match x.undef with
    | some n => Config.freeVec (n + r)
    | none => 0

/-- A vector register written. -/
def Core.setVr (x : Core) (r : Nat) (v : VWord) : Core := { x with v := Sparse.set (fun _ => none) x.v r (some v) }

/-- A mask register (R194, R201). -/
def Core.mr (x : Core) (r : Nat) : MWord :=
  match Sparse.get (fun _ => none) x.m r with
  | some v => v
  | none => match x.undef with
    | some n => Config.freeMask (n + r)
    | none => 0

/-- A mask register written. -/
def Core.setMr (x : Core) (r : Nat) (v : MWord) : Core := { x with m := Sparse.set (fun _ => none) x.m r (some v) }

/-- COUNT0–COUNT7 (R198, R201). -/
def Core.cnt (x : Core) (i : Nat) : Word32 :=
  match Sparse.get (fun _ => none) x.count i with
  | some v => v
  | none => match x.undef with
    | some n => (Config.freeWord (n + 32 + i)).truncate 32
    | none => 0

/-- A counter written. -/
def Core.setCnt (x : Core) (i : Nat) (v : Word32) : Core := { x with count := Sparse.set (fun _ => none) x.count i (some v) }

/-- BUDGET0–BUDGET7 (R198, R201). -/
def Core.bud (x : Core) (i : Nat) : Word32 :=
  match Sparse.get (fun _ => none) x.budget i with
  | some v => v
  | none => match x.undef with
    | some n => (Config.freeWord (n + 40 + i)).truncate 32
    | none => 0

/-- A budget written. -/
def Core.setBud (x : Core) (i : Nat) (v : Word32) : Core :=
  { x with budget := Sparse.set (fun _ => none) x.budget i (some v) }

/-- FSCR0 and FSCR1 (R198, R201). -/
def Core.fs (x : Core) (i : Nat) : Word64 :=
  match Sparse.get (fun _ => none) x.fscr i with
  | some v => v
  | none => match x.undef with
    | some n => Config.freeWord (n + 48 + i)
    | none => 0

/-- A firmware scratch register written. -/
def Core.setFs (x : Core) (i : Nat) (v : Word64) : Core := { x with fscr := Sparse.set (fun _ => none) x.fscr i (some v) }

/-- How many free values one core reset names. -/
def coreFreeSpan : Nat := 51

/-- An address held in two page words, LO and HI with [47:32] in HI[15:0]. -/
def State.pageAddr (s : State) (page lo hi : Nat) : Nat := (s.reg page lo).toNat + s.fld page hi 15 0 * 2 ^ 32

/-- An address stored in two page words. -/
def State.setPageAddr (s : State) (page lo hi a : Nat) : State :=
  (s.setReg page lo (BitVec.ofNat 32 a)).setFld page hi 15 0 (a / 2 ^ 32)

/-- CLU.EBASE of a cluster (R196). -/
def State.ebase (s : State) (c : Nat) : Nat := s.pageAddr (pageOf .clu c) 0x400 0x404

/-- CLU.RESET_VEC of a cluster (R196). -/
def State.resetVec (s : State) (c : Nat) : Nat := s.pageAddr (pageOf .clu c) 0x408 0x40C

/-- CIC.VBASE of a cluster (R290). -/
def State.vbase (s : State) (c : Nat) : Nat := s.pageAddr (pageOf .cic c) 0x040 0x044

/-- STATUS.IE of a core. -/
def State.coreIe (s : State) (key : Nat) : Bool := decide (s.fld (corePage key) 0x070 0 0 = 1)

/-- STATUS.EMODE of a core. -/
def State.coreEmode (s : State) (key : Nat) : Nat := s.fld (corePage key) 0x070 1 1

/-- Entering handler mode saves EPC and the interrupted mode, ends the reservation and goes to a vector (R196, R226). Both an
exception and an interrupt do this much. -/
def State.enterHandler (s : State) (key : Nat) (target : Nat) : State :=
  let x := s.coreAt key
  let em := if x.mode = .operator then 0 else 1
  let s1 := (s.setPageAddr (corePage key) 0x054 0x058 x.pc.toNat).setFld (corePage key) 0x070 1 1 em
  s1.setCoreAt key { x with mode := .handler, pc := BitVec.ofNat 64 target, resv := none, take := none, remote := [] }

/-! ## The store buffer -/

/-- A byte put into an entry's byte list, in ascending offset. -/
def sbPut : List (Nat × Byte) → Nat → Byte → List (Nat × Byte)
  | [], o, b => [(o, b)]
  | (o', b') :: r, o, b =>
    if o < o' then (o, b) :: (o', b') :: r else if o = o' then (o, b) :: r else (o', b') :: sbPut r o b

/-- A run of bytes put into an entry's byte list. -/
def sbPutRun : List (Nat × Byte) → Nat → List Byte → List (Nat × Byte)
  | l, _, [] => l
  | l, o, b :: r => sbPutRun (sbPut l o b) (o + 1) r

/-- The entries a store to one 256-byte block needs: none when it merges into the youngest entry, else one (R220). -/
def sbMerges (sb : List SbEntry) (block : Nat) : Bool :=
  match sb.getLast? with
  | some e => e.block == block && !e.barred && !e.sent
  | none => false

/-- A store within one 256-byte block enters the buffer: merged into the youngest entry, or in a new one (R220). -/
def sbStoreBlock (sb : List SbEntry) (cls : AccessClass) (a : Nat) (bs : List Byte) : List SbEntry :=
  let block := a / 256
  if sbMerges sb block then
    match sb.getLast? with
    | some e => sb.dropLast ++ [{ e with bytes := sbPutRun e.bytes (a % 256) bs }]
    | none => sb
  else sb ++ [{ cls := cls, block := block, bytes := sbPutRun [] (a % 256) bs, barred := false, sent := false }]

/-- A store enters the buffer; one that crosses a 256-byte boundary uses two blocks (R220). -/
def sbStore (sb : List SbEntry) (cls : AccessClass) (a : Nat) (bs : List Byte) : List SbEntry :=
  let room := 256 - a % 256
  if bs.length ≤ room then sbStoreBlock sb cls a bs
  else sbStoreBlock (sbStoreBlock sb cls a (bs.take room)) cls (a + room) (bs.drop room)

/-- How many new entries a store opens (R220). -/
def sbNeeds (sb : List SbEntry) (a n : Nat) : Nat :=
  let first := if sbMerges sb (a / 256) then 0 else 1
  if a % 256 + n ≤ 256 then first else first + 1

/-- A barrier has retired: no younger store merges into the entries that are open (R220, R225). -/
def sbBar (sb : List SbEntry) : List SbEntry := sb.map (fun e => { e with barred := true })

/-- The offsets of a block that a range of addresses covers. -/
def sbOverlap (e : SbEntry) (a n : Nat) : List Nat :=
  ((List.range n).filter (fun i => decide ((a + i) / 256 = e.block) && (e.bytes.any (fun p => p.1 == (a + i) % 256))))

/-- What a load finds in the buffer: nothing, all its bytes in the youngest entry that meets it, or part of them (R220). -/
inductive SbView where
  | clear | full (bs : List Byte) | part
  deriving DecidableEq, Repr

/-- The buffer as a load of `n` bytes sees it: an entry that overlaps it only partly makes it wait (R220). -/
def sbView (sb : List SbEntry) (a n : Nat) : SbView :=
  let hit := sb.filter (fun e => !(sbOverlap e a n).isEmpty)
  if hit.any (fun e => decide ((sbOverlap e a n).length < n)) then .part
  else match hit.getLast? with
    | none => .clear
    | some e => .full ((List.range n).map (fun i =>
        match e.bytes.find? (fun p => p.1 == (a + i) % 256) with
        | some p => p.2
        | none => 0))

/-- Runs of consecutive offsets in an entry's byte list: each with its first offset. -/
def sbRuns : List (Nat × Byte) → List (Nat × List Byte)
  | [] => []
  | (o, b) :: r =>
    match sbRuns r with
    | (o', bs) :: rest => if o' = o + 1 then (o, b :: bs) :: rest else (o, [b]) :: (o', bs) :: rest
    | [] => [(o, [b])]

/-- The bytes of a buffer entry reach the fabric: memory class through the cluster's L2 or to green room, the host window as
posted writes (R250, R252). A store to a frozen or offline controller is dropped (R265). A wing entry takes effect at the
partner, not here. -/
def State.sbApply (s : State) (key : Nat) (e : SbEntry) : State :=
  let c := key / 16
  (sbRuns e.bytes).foldl (fun t r =>
    let a := e.block * 256 + r.1
    match t.region a with
    | .host => t.pokeHost (a - 0xE00000000000) r.2
    | .wing _ => t
    | _ =>
      if !t.populated a || t.frozenAt a then t
      else if t.cacheable a && !t.bypassed c then (t.l2Store c a r.2).l1Others key a r.2.length
      else t.storeMem a r.2) s

/-- The store of a core reset or a double fault: what the fabric has accepted stays, the rest is discarded (R222). -/
def State.discardSb (s : State) (key : Nat) : State := s.setCoreAt key { s.coreAt key with sb := [] }

/-! ## The jobs of an item -/

/-- A unit job that no longer belongs to a core's item. -/
def UnitJob.disown (key : Nat) (j : UnitJob) : UnitJob := if j.core = some key then { j with core := none } else j

/-- A job in service that no longer belongs to a core's item. -/
def RunJob.disown (key : Nat) (r : RunJob) : RunJob := { r with job := r.job.disown key }

/-- A digest job that no longer belongs to a core's item. -/
def DigJob.disown (key : Nat) (j : DigJob) : DigJob := { j with job := j.job.disown key }

/-- A new item begins on a core: jobs that an item left behind at a core reset are not the new item's (R213). -/
def State.disown (s : State) (key : Nat) : State :=
  let js := fun (l : List UnitJob) => l.map (UnitJob.disown key)
  { s with
    units := s.units.map (fun p => (p.1, { p.2 with fifo := js p.2.fifo, fifo2 := js p.2.fifo2, run := p.2.run.map (RunJob.disown key),
                                                    held := p.2.held.map (RunJob.disown key) })),
    digs := s.digs.map (fun p => (p.1, { p.2 with slots := p.2.slots.map (fun x => (x.1, x.2.disown key)),
                                                  susp := p.2.susp.map (DigJob.disown key), fifo := js p.2.fifo })),
    lsu := { s.lsu with sign := js s.lsu.sign, verify := js s.lsu.verify,
                        runs := s.lsu.runs.map (fun r => { r with job := r.job.disown key }) } }

/-- Whether a unit still holds a job that a core's item submitted (R213). -/
def State.jobsOf (s : State) (key : Nat) : Bool :=
  let own := fun (j : UnitJob) => j.core == some key
  let run := fun (r : Option RunJob) => match r with
    | some x => own x.job
    | none => false
  s.units.any (fun p => (p.2.fifo ++ p.2.fifo2).any own || run p.2.run || run p.2.held) ||
    s.digs.any (fun p => (p.2.slots.map Prod.snd ++ p.2.susp).any (fun j => own j.job) || p.2.fifo.any own) ||
    (s.lsu.sign ++ s.lsu.verify).any own || s.lsu.runs.any (fun r => own r.job)

/-! ## The core reset -/

/-- A core reset (R196, R201, R222): firmware mode at RESET_VEC, nothing held, the buffer discarded; general, vector, mask,
COUNT, BUDGET, FSCR registers and EPC undefined, VL 0, STATUS.IE and EMODE 1; FSTAT.DOUBLE, the counters that count since
core reset and the core's bit of CLU.FAULT.CORES cleared. The rest of the CORE page stays (Assumption 7). -/
def State.coreReset (s : State) (key : Nat) : State :=
  let n := s.fresh
  let pg := corePage key
  let s1 := { s with fresh := n + coreFreeSpan }.zeroRegs pg [0x04C, 0x050, 0x07C]
  let s2 := ((s1.setFld pg 0x040 2 2 0).setFld pg 0x070 1 0 3).setFld pg 0x00C 3 0 0
  let s3 := s2.setPageAddr pg 0x054 0x058 (Config.freeWord (n + 50)).toNat
  let s4 := s3.setCoreAt key { Core.reset with undef := some n, pc := BitVec.ofNat 64 (s.resetVec (key / 16)) }
  s4.setFld (pageOf .clu (key / 16)) 0x040 (key % 16) (key % 16) 0

/-- Several cores of a cluster are reset. -/
def State.coreResets (s : State) (c : Nat) (mask : Nat) : State :=
  (List.range 16).foldl (fun t k => if Word.bit k mask then t.coreReset (c * 16 + k) else t) s

end Sys2Proof.Machine
end

