-- ==== Sys2Proof/Machine/Disp.lean ====
section
/-!
DEFINITION. The cue dispatcher (R271–R287): the item stores, ordering keys, tasks, delays, delivery under the share rule and
the end of foreground.
-/
namespace Sys2Proof.Machine
open Sys2Proof

/-- The DISP page of a cluster. -/
def dispPage (c : Nat) : Nat := pageOf .disp c

/-- A dispatcher. -/
def State.disp (s : State) (c : Nat) : Disp := (s.cluster c).disp

/-- A dispatcher replaced. -/
def State.setDisp (s : State) (c : Nat) (d : Disp) : State := s.setCluster c { s.cluster c with disp := d }

/-- What the cores of a cluster hold. -/
def State.heldIn (s : State) (c : Nat) : List Held :=
  (List.range 16).filterMap (fun k => (s.coreAt (c * 16 + k)).held)

/-- KEYED of a record (R272). -/
def ItemRec.keyed (r : ItemRec) : Bool := Word.bit 1 r.flags

/-- PRIO of a record (R272). -/
def ItemRec.prio (r : ItemRec) : Nat := Word.bits 4 2 r.flags

/-- A record as 32 bytes (R272). -/
def ItemRec.bytes (r : ItemRec) : List Byte :=
  Word.leBytes 2 r.pipe ++ Word.leBytes 1 r.kind ++ Word.leBytes 1 r.flags ++ Word.leBytes 4 r.sealPos ++
    Word.leBytes 8 r.key.toNat ++ Word.leBytes 8 r.ctx.toNat ++ Word.leBytes 8 r.arg.toNat

/-- A record read from 32 bytes (R272). -/
def ItemRec.ofBytes (bs : List Byte) : ItemRec :=
  let f := fun o n => Word.leValue ((bs.drop o).take n)
  { pipe := f 0 2, kind := f 2 1, flags := f 3 1, sealPos := f 4 4, key := BitVec.ofNat 64 (f 8 8),
    ctx := BitVec.ofNat 64 (f 16 8), arg := BitVec.ofNat 64 (f 24 8) }

/-- The keys, by class, that held items occupy (R278). -/
def heldKeys (hs : List Held) : List (Bool × Word64) :=
  hs.filterMap (fun h => if h.task.isNone && h.item.keyed then some (h.fg, h.item.key) else none)

/-- One pass over the items in arrival order: an unkeyed item is releasable; a keyed one is when no earlier item of its class
and key is held or waiting and, in the background, its key has one of the 224 entries (R278, R279). -/
def releasePass (stamp : Nat) : List QItem → List (Bool × Word64) → List Word64 → List QItem × List Word64
  | [], _, bg => ([], bg)
  | q :: r, busy, bg =>
    if !q.item.keyed then
      let (r', bg') := releasePass stamp r busy bg
      ({ q with stamp := some (q.stamp.getD stamp) } :: r', bg')
    else
      let key := (q.fg, q.item.key)
      let hasEntry := q.fg || bg.contains q.item.key || decide (bg.length < 224)
      let bg1 := if q.fg || bg.contains q.item.key || !decide (bg.length < 224) then bg else bg ++ [q.item.key]
      let ready := hasEntry && !busy.contains key
      let (r', bg') := releasePass stamp r (busy ++ [key]) bg1
      ((if ready then { q with stamp := some (q.stamp.getD stamp) } else q) :: r', bg')

/-- The dispatcher after any arrival or end: background keys without an item lose their entry, and items that have become
releasable are stamped (R278, R279, R282). -/
def State.dispRefresh (s : State) (c : Nat) : State :=
  let d := s.disp c
  let held := heldKeys (s.heldIn c)
  let live := fun k => held.contains (false, k) || d.items.any (fun q => !q.fg && q.item.keyed && q.item.key == k)
  let (items, bg) := releasePass s.stamp d.items held (d.bgKeys.filter live)
  (s.setDisp c { d with items := items, bgKeys := bg }).tick

/-! ## Tasks -/

/-- The base offset of a task's registers (the DISP page). -/
def taskOff (t : Nat) : Nat := 0x400 + 32 * t

/-- TASKt_CTL.STATE: 0 DISABLED, 1 WAITING, 2 READY, 3 RUNNING. -/
def State.taskState (s : State) (c t : Nat) : Nat := s.fld (dispPage c) (taskOff t) 1 0

/-- A task's state written. -/
def State.setTaskState (s : State) (c t x : Nat) : State := s.setFld (dispPage c) (taskOff t) 1 0 x

/-- The match test (R280). -/
def State.taskMatches (s : State) (c t : Nat) : Bool :=
  let mask := s.reg (dispPage c) (taskOff t + 4)
  let hit := s.reg (dispPage c) (taskOff t + 8) &&& mask
  if mask = 0 then false
  else if s.fld (dispPage c) (taskOff t) 30 30 = 1 then decide (hit = mask) else decide (hit ≠ 0)

/-- A WAITING task whose test passes becomes READY with the current arrival stamp (R280). -/
def State.taskTest (s : State) (c t : Nat) : State :=
  if s.taskState c t = 1 ∧ s.taskMatches c t = true then
    let d := s.disp c
    ((s.setTaskState c t 2).setDisp c { d with taskStamp := d.taskStamp ++ [(t, s.stamp)] }).tick
  else s

/-- A task leaves the ready list. -/
def State.taskUnready (s : State) (c t x : Nat) : State :=
  let d := s.disp c
  (s.setTaskState c t x).setDisp c { d with taskStamp := d.taskStamp.filter (fun p => p.1 ≠ t) }

/-- A write of TASKt_CTL: EN, ALL, FG and PRIO are stored, EN moves the task, and a WAITING task is tested under the new ALL (R280). -/
def State.taskCtl (s : State) (c t : Nat) (v : Word32) : State :=
  let old := s.taskState c t
  let s1 := s.setReg (dispPage c) (taskOff t) ((v &&& 0xE7000000#32) ||| BitVec.ofNat 32 old)
  let en := Word.bit 31 v.toNat
  if en && old == 0 then (s1.setTaskState c t 1).taskTest c t
  else if !en && (old == 1 || old == 2) then s1.taskUnready c t 0
  else s1.taskTest c t

/-- A write of TASKt_MASK: a READY task whose test now fails waits again, and a WAITING one is tested (R280). -/
def State.taskMask (s : State) (c t : Nat) (v : Word32) : State :=
  let s1 := s.setReg (dispPage c) (taskOff t + 4) v
  if s1.taskState c t = 2 ∧ s1.taskMatches c t = false then s1.taskUnready c t 1 else s1.taskTest c t

/-- A W1C write to TASKt_FLAGS clears bits in every state (R280). -/
def State.taskFlagsClear (s : State) (c t : Nat) (v : Word32) : State :=
  (s.setReg (dispPage c) (taskOff t + 8) (s.reg (dispPage c) (taskOff t + 8) &&& ~~~v)).taskTest c t

/-- SIGNAL: bits are ORed into a task's flag word (R277). -/
def State.signal (s : State) (c t : Nat) (bits : Word32) : State :=
  (s.setReg (dispPage c) (taskOff t + 8) (s.reg (dispPage c) (taskOff t + 8) ||| bits)).taskTest c t

/-! ## Posting and delays -/

/-- The background item count of a dispatcher. -/
def Disp.bgCount (d : Disp) : Nat := (d.items.filter (fun q => !q.fg)).length

/-- The status a post block receives (R276). -/
def postStatus (d : Disp) (r : ItemRec) : Nat :=
  if Word.bit 0 r.flags || Word.bits 7 5 r.flags ≠ 0 || !(r.kind == 4 || r.kind == 5) then 2
  else if 4096 ≤ d.bgCount then 1 else 0

/-- POST: the dispatcher copies the record and writes POST_STATUS, in memory or through the host window; bits 63:48 of the store are ignored
(R13, R276). A post block that does not answer posts nothing, since its status cannot be written (DEDUCED, Assumption 14). -/
def State.post (s : State) (c : Nat) (stored : Nat) : State :=
  let addr := stored % 2 ^ 48
  let inHost := decide (s.region addr = .host)
  if (if inHost then s.hep.frozen || !s.hep.bme || !s.hep.d0 else !s.rangeOk addr 64) then s else
  let o := addr - 0xE00000000000
  let r := ItemRec.ofBytes (if inHost then s.hostBytesAt o 32 else s.bytesAt addr 32)
  let st := postStatus (s.disp c) r
  let s1 := if inHost then s.pokeHost (o + 32) (Word.leBytes 2 st) else s.storeMem (addr + 32) (Word.leBytes 2 st)
  if st = 2 then s1.err (dispPage c) 0x0104 0x048 (addr % 2 ^ 32) 0
  else if st = 1 then (s1.err (dispPage c) 0x0101 0x048 (addr % 2 ^ 32) 0).evt (dispPage c) 1
  else
    let d := s1.disp c
    (s1.setDisp c { d with items := d.items ++ [{ item := r, fg := false, stamp := none, budgets := [] }] }).dispRefresh c

/-- An entry put into a delay list kept by expiry; entries that expire together stay in the order of their stores (R281). -/
def delayInsert : List DelayEnt → DelayEnt → List DelayEnt
  | [], e => [e]
  | x :: r, e => if e.due < x.due then e :: x :: r else x :: delayInsert r e

/-- DELAY: the flags are set after COUNT beats or cues, or at once for a COUNT of 0 or a full list (R281). -/
def State.delay (s : State) (c : Nat) (bits hi : Word32) : State :=
  let count := Word.bits 31 8 hi.toNat
  let cues := Word.bit 7 hi.toNat
  let t := Word.bits 5 0 hi.toNat
  let d := s.disp c
  let list := if cues then d.cueDelays else d.beatDelays
  if count = 0 then s.signal c t bits
  else if 256 ≤ list.length then ((s.signal c t bits).err (dispPage c) 0x0102 0x058 0 0).evt (dispPage c) 2
  else
    let e : DelayEnt := { due := (if cues then s.cue.number else s.beat) + count, task := t, bits := bits }
    if cues then s.setDisp c { d with cueDelays := delayInsert d.cueDelays e }
    else s.setDisp c { d with beatDelays := delayInsert d.beatDelays e }

/-- The first entry of a delay list expires. A beat entry moves the beat clock on to its beat; a cue entry expires only once
its cue has started (R281). -/
def State.delayExpire (s : State) (c : Nat) (cues : Bool) : State :=
  let d := s.disp c
  if cues then
    match d.cueDelays with
    | e :: r => if e.due ≤ s.cue.number then (s.setDisp c { d with cueDelays := r }).signal c e.task e.bits else s
    | [] => s
  else
    match d.beatDelays with
    | e :: r => ({ s with beat := max s.beat e.due }.setDisp c { d with beatDelays := r }).signal c e.task e.bits
    | [] => s

/-- At a start instant, the cue entries that the new cue reaches expire in order (R281). -/
def State.cueDelaysDue (s : State) (c : Nat) : Nat → State
  | 0 => s
  | n + 1 =>
    match (s.disp c).cueDelays with
    | e :: _ => if e.due ≤ s.cue.number then (s.delayExpire c true).cueDelaysDue c n else s
    | [] => s

/-! ## Delivery -/

/-- A record the dispatcher may deliver: an item by its place in the store, or a task. -/
inductive Deliverable where
  | item (idx : Nat) | task (t : Nat)
  deriving DecidableEq, Repr

/-- A candidate: priority, arrival stamp, group (tasks, foreground, background), place within the group, class, record (R282, R283). -/
structure Candidate where
  prio : Nat
  stamp : Nat
  group : Nat
  place : Nat
  fg : Bool
  what : Deliverable
  deriving DecidableEq, Repr

/-- The READY tasks and releasable items of a dispatcher. -/
def State.candidates (s : State) (c : Nat) : List Candidate :=
  let d := s.disp c
  let tasks := d.taskStamp.map (fun p =>
    { prio := s.fld (dispPage c) (taskOff p.1) 26 24, stamp := p.2, group := 0, place := p.1,
      fg := decide (s.fld (dispPage c) (taskOff p.1) 29 29 = 1), what := .task p.1 : Candidate })
  let items := d.items.zipIdx.filterMap (fun p => p.1.stamp.map (fun st =>
    { prio := p.1.item.prio, stamp := st, group := if p.1.fg then 1 else 2, place := p.2, fg := p.1.fg,
      what := .item p.2 : Candidate }))
  tasks ++ items

/-- Whether one candidate comes before another (R282, R283). -/
def Candidate.before (a b : Candidate) : Bool :=
  if a.prio ≠ b.prio then decide (a.prio < b.prio)
  else if a.stamp ≠ b.stamp then decide (a.stamp < b.stamp)
  else if a.group ≠ b.group then decide (a.group < b.group)
  else decide (a.place < b.place)

/-- NB: the cores of the cluster that hold a background item or task activation (R285). -/
def State.heldBg (s : State) (c : Nat) : Nat := ((s.heldIn c).filter (fun h => !h.fg)).length

/-- FWAIT: a foreground item of the current cue is posted and not yet delivered (R285). -/
def State.fwait (s : State) (c : Nat) : Bool := decide (s.cue.unit = 2) && (s.disp c).items.any (fun q => q.fg)

/-- Whether the share rule permits a record of a class (R285). -/
def State.sharePermits (s : State) (c : Nat) (fg : Bool) : Bool :=
  fg || !s.fwait c || decide (s.heldBg c < 16 - s.fld (dispPage c) 0x040 12 8)

/-- The first permitted record in the order of R283. -/
def State.dispSelect (s : State) (c : Nat) : Option Candidate :=
  ((s.candidates c).filter (fun x => s.sharePermits c x.fg)).foldl
    (fun best x => match best with
      | none => some x
      | some b => if x.before b then some x else some b) none

/-- The waiting core that has waited longest; of equals, the lowest-numbered (R283). -/
def State.longestWaiting (s : State) (c : Nat) : Option Nat :=
  (List.range 16).foldl (fun best k =>
    match (s.coreAt (c * 16 + k)).take with
    | none => best
    | some (st, _) =>
      match best with
      | none => some k
      | some b =>
        match (s.coreAt (c * 16 + b)).take with
        | some (bst, _) => if st < bst then some k else some b
        | none => some k) none

/-- A record enters g4–g7 as four little-endian words, after gd has received the kind of record (R212). -/
def Core.receive (x : Core) (rd : Nat) (isTask : Bool) (bs : List Byte) : Core :=
  let w := fun i => BitVec.ofNat 64 (Word.leValue ((bs.drop (8 * i)).take 8))
  let x1 := x.setGr rd (if isTask then 1 else 0)
  (((x1.setGr 4 (w 0)).setGr 5 (w 1)).setGr 6 (w 2)).setGr 7 (w 3)

/-- COUNT0–COUNT7 become 0 and BUDGET0–BUDGET7 receive an item's budgets, where it brings any (R212, R274). -/
def Core.startItem (x : Core) (budgets : List Word32) : Core :=
  let x1 := (List.range 8).foldl (fun t i => t.setCnt i 0) x
  budgets.zipIdx.foldl (fun t p => t.setBud p.2 p.1) x1

/-- TAKE retires with a work item (R212, R274). -/
def State.deliverItem (s : State) (c k idx : Nat) : State :=
  let d := s.disp c
  match d.items[idx]?, (s.coreAt (c * 16 + k)).take with
  | some q, some (_, rd) =>
    let x := s.coreAt (c * 16 + k)
    let x1 := (x.receive rd false q.item.bytes).startItem q.budgets
    let x2 := { x1 with take := none, pc := x1.pc + 4,
                        held := some { item := q.item, task := none, fg := q.fg, checked := q.fg } }
    (((s.disown (c * 16 + k)).setCoreAt (c * 16 + k) x2).setDisp c { d with items := d.items.eraseIdx idx }).dispRefresh c
  | _, _ => s

/-- TAKE retires with a task activation: MATCHED is cleared from the flags and RUNS counts (R273, R280). -/
def State.deliverTask (s : State) (c k t : Nat) : State :=
  match (s.coreAt (c * 16 + k)).take with
  | some (_, rd) =>
    let pg := dispPage c
    let flags := s.reg pg (taskOff t + 8)
    let matched := flags &&& s.reg pg (taskOff t + 4)
    let fg := s.fld pg (taskOff t) 29 29
    let runs := s.reg pg (taskOff t + 20)
    let bs := Word.leBytes 2 t ++ Word.leBytes 1 6 ++ Word.leBytes 1 (s.fld pg (taskOff t) 26 24 * 4 + fg) ++
      Word.leBytes 4 matched.toNat ++ Word.leBytes 4 flags.toNat ++ Word.leBytes 4 0 ++
      Word.leBytes 8 (s.pageAddr pg (taskOff t + 12) (taskOff t + 16)) ++ Word.leBytes 8 runs.toNat
    let x := s.coreAt (c * 16 + k)
    let x1 := x.receive rd true bs
    let x2 := { x1 with take := none, pc := x1.pc + 4,
                        held := some { item := ItemRec.ofBytes bs, task := some t, fg := decide (fg = 1), checked := false } }
    ((((s.disown (c * 16 + k)).setCoreAt (c * 16 + k) x2).taskUnready c t 3).setReg pg (taskOff t + 8) (flags &&& ~~~matched)).setReg pg
      (taskOff t + 20) (runs + 1)
  | none => s

/-- Whether the module lets its dispatchers deliver: not behind the curtain, not halted, in READY or SERVICE (R287, R483). -/
def State.dispatching (s : State) : Bool :=
  !s.mdl.curtain && !s.mdl.halt && (s.mdl.st == .ready || s.mdl.st == .service) && s.mdl.standbyOp.isNone

/-- The dispatcher delivers the first permitted record to the core that has waited longest (R283). -/
def State.deliver (s : State) (c : Nat) : State :=
  if !s.dispatching then s
  else match s.longestWaiting c, s.dispSelect c with
    | some k, some x =>
      match x.what with
      | .item i => s.deliverItem c k i
      | .task t => s.deliverTask c k t
    | _, _ => s

/-! ## The end of an item -/

/-- What DONE does at the dispatcher: a task waits or is disabled, a foreground item of the cue lowers FG_PENDING, and the
end of foreground is reported (R280, R286). -/
def State.dispDone (s : State) (c : Nat) (h : Held) : State :=
  let pg := dispPage c
  let s1 := s.addReg pg 0x074 1
  match h.task with
  | some t =>
    if s1.fld pg (taskOff t) 31 31 = 1 then (s1.setTaskState c t 1).taskTest c t else s1.setTaskState c t 0
  | none =>
    let n := s1.fld pg 0x060 9 0
    let s2 := if h.fg && decide (0 < n) then s1.setFld pg 0x060 9 0 (n - 1) else s1
    let s3 := if h.fg && decide (n = 1) then s2.evt pg 0 else s2
    s3.dispRefresh c

/-- FG_PENDING over all clusters: CUE.FG_PENDING (R286). -/
def State.fgPending (s : State) : Nat := (List.range 12).foldl (fun n c => n + s.fld (dispPage c) 0x060 9 0) 0

/-- At a curtain or a halt the dispatchers discard every item, activation state and delay entry (R287). Running and ready
tasks wait for the reset that follows. -/
def State.dispDiscard (s : State) (c : Nat) : State :=
  let s1 := (List.range 64).foldl (fun t i => if 2 ≤ t.taskState c i then t.setTaskState c i 1 else t) s
  (s1.setDisp c { items := [], bgKeys := [], taskStamp := [], beatDelays := [], cueDelays := [] }).setFld (dispPage c)
    0x060 9 0 0

end Sys2Proof.Machine
end

