-- ==== Sys2Proof/Machine/Cic.lean ====
section
/-!
DEFINITION. The module interrupt router and the cluster interrupt controller (R288–R297): the lines, offers, acceptance,
moderation and the filtered sideband inputs.
-/
namespace Sys2Proof.Machine
open Sys2Proof

/-- The CIC page of a cluster. -/
def cicPage (c : Nat) : Nat := pageOf .cic c

/-- The IRTR page. -/
def irtrPage : Nat := pageOf .irtr 0

/-- A page's interrupt line: high while EVT_PEND ≠ 0 (R288, R293). -/
def State.pageLine (s : State) (page : Nat) : Bool := decide (s.evtPend page ≠ 0)

/-- The line of the queue engine: its own page and the QCTX pages (R434). -/
def State.qengLine (s : State) : Bool :=
  s.pageLine (pageOf .qeng 0) || s.regs.any (fun p =>
    let page := p.1 / 1024
    decide (0x400 ≤ page) && decide (page < 0x800) && decide (p.1 % 1024 = 4) && s.pageLine page)

/-- The level of a router input (R293): the page that drives it, or the latch of an external line; 91–127 are never high. -/
def State.routerInput (s : State) (i : Nat) : Bool :=
  if i = 3 then s.qengLine
  else if i < 12 then
    match [Blk.modctl, .pwr, .hep, .qeng, .cue, .commit, .pbook, .rehearse, .strike, .keys, .mgmt, .flash][i]? with
    | some b => s.pageLine (pageOf b 0)
    | none => false
  else if i < 16 then s.pageLine (pageOf .wing (i - 12))
  else if i < 18 then s.pageLine (pageOf .cam (i - 16))
  else if i < 22 then s.pageLine (pageOf .cmp (i - 18))
  else if i < 30 then s.pageLine (pageOf .dma (i - 22))
  else if i < 38 then s.pageLine (pageOf .lsu (i - 30))
  else if i < 60 then s.pageLine (pageOf .memc (i - 38))
  else if i < 82 then s.pageLine (pageOf .scan (i - 60)) || (decide (76 ≤ i) && s.pageLine (pageOf .probe (i - 60)))
  else if i < 90 then Sparse.get (fun _ => false) s.irtr.latched (i - 82)
  else if i = 90 then s.pageLine (pageOf .company 0)
  else false

/-- Router line `l` of a cluster (R293). -/
def State.routerLine (s : State) (c l : Nat) : Bool :=
  (List.range 91).any (fun i =>
    let r := s.reg irtrPage (0x100 + 4 * i)
    Word.bit 31 r.toNat && decide (Word.bits 27 24 r.toNat = l) && Word.bit c r.toNat && s.routerInput i)

/-- Whether a source is level-sensitive (R288). -/
def cicLevel (src : Nat) : Bool := decide (src < 6) || decide (src = 8) || (decide (16 ≤ src) && decide (src < 32))

/-- Whether a source is pending (R288): its line, or its latched edge; 10–15 are never pending. -/
def State.cicPending (s : State) (c src : Nat) : Bool :=
  if src = 0 then s.pageLine (pageOf .clu c)
  else if src = 1 then s.pageLine (pageOf .l2 c)
  else if src = 2 then s.pageLine (dispPage c)
  else if src = 3 then s.pageLine (pageOf .dig (2 * c))
  else if src = 4 then s.pageLine (pageOf .dig (2 * c + 1))
  else if src = 5 then s.pageLine (pageOf .fcodec c)
  else if src = 8 then (List.range 16).any (fun k => s.pageLine (corePage (c * 16 + k)))
  else if 16 ≤ src ∧ src < 32 then s.routerLine c (src - 16)
  else (s.cluster c).cic.edge.getLsbD src

/-- A CIC replaced. -/
def State.setCic (s : State) (c : Nat) (x : Cic) : State := s.setCluster c { s.cluster c with cic := x }

/-- The bit of a source. -/
def srcBit (src : Nat) : Word64 := (1 : Word64) <<< src

/-- An edge source becomes pending at its event (R288). -/
def State.cicEdge (s : State) (c src : Nat) : State :=
  s.setCic c { (s.cluster c).cic with edge := (s.cluster c).cic.edge ||| srcBit src }

/-- An edge source becomes pending in every cluster: the start instants and commit points (R288). -/
def State.cicEdgeAll (s : State) (src : Nat) : State := (List.range 12).foldl (fun t c => t.cicEdge c src) s

/-- ENABLE of a source (the CIC page). -/
def State.cicEnabled (s : State) (c src : Nat) : Bool :=
  if src < 32 then Word.bit src (s.reg (cicPage c) 0x050).toNat else Word.bit (src - 32) (s.reg (cicPage c) 0x054).toNat

/-- SRCn word of a source. -/
def srcOff (src : Nat) : Nat := 0x100 + 4 * src

/-- Whether a source is offered to a core: pending, enabled, CTL.EN = 1, targeted; the core in operator mode, or in firmware
mode with STATUS.IE = 1, and running; and not held by moderation unless the core waits in TAKE (R289, R291). -/
def State.offered (s : State) (c src k : Nat) : Bool :=
  let x := s.coreAt (c * 16 + k)
  s.cicPending c src && s.cicEnabled c src && decide (s.fld (cicPage c) 0x008 0 0 = 1) &&
    Word.bit k (s.fld (cicPage c) (srcOff src) 15 0) && s.cluEn c && !x.stopped &&
    (x.mode == .operator || (x.mode == .firmware && s.coreIe (c * 16 + k))) &&
    (!(s.cluster c).cic.moderated.getLsbD src || x.take.isSome)

/-- The source the CIC offers to a core: the lowest-numbered one (R289). -/
def State.offerTo (s : State) (c k : Nat) : Option Nat := (List.range 63).find? (fun src => s.offered c src k)

/-- A core takes an interrupt vector: EPC and EMODE are saved and nothing else (R196, R290). -/
def State.takeVector (s : State) (c k vec : Nat) : State :=
  let s1 := s.enterHandler (c * 16 + k) (s.vbase c + 64 * vec)
  s1.setCoreAt (c * 16 + k) { s1.coreAt (c * 16 + k) with inCic := true }

/-- A core is steered to the spurious vector 63 (R290). -/
def State.steer (s : State) (c src k : Nat) : State :=
  (((s.addReg (cicPage c) 0x060 1).setFld (cicPage c) 0x064 19 16 k).setFld (cicPage c) 0x064 5 0 src).takeVector c k 63

/-- Cores accept an offer of one source in the same cycle: the lowest-numbered receives it and the rest are steered. The
source stops being pending if it is an edge, and its moderation interval begins (R290, R291). -/
def State.acceptIrq (s : State) (c src : Nat) (cores : List Nat) : State :=
  let takers := (List.range 16).filter (fun k => cores.contains k && s.offerTo c k == some src)
  match takers with
  | [] => s
  | k :: rest =>
    let x := (s.cluster c).cic
    let mod := s.fld (cicPage c) (srcOff src) 31 24
    let edge := if cicLevel src then x.edge else x.edge &&& ~~~(srcBit src)
    let moderated := if mod = 0 then x.moderated else x.moderated ||| srcBit src
    let s1 := ((s.setCic c { edge := edge, moderated := moderated }).addReg (cicPage c) 0x05C 1).takeVector c k src
    rest.foldl (fun t j => t.steer c src j) s1

/-- A moderation interval ends (R291). -/
def State.moderationEnd (s : State) (c src : Nat) : State :=
  s.setCic c { (s.cluster c).cic with moderated := (s.cluster c).cic.moderated &&& ~~~(srcBit src) }

/-- SWI.RAISE: bit k raises source 32 + k (R288). -/
def State.swiRaise (s : State) (c : Nat) (v : Word32) : State :=
  (List.range 31).foldl (fun t k => if v.getLsbD k then t.cicEdge c (32 + k) else t) s

/-- CIC SOFT_RESET clears the edge-pending bits, moderation and the counters (the CIC page, R291). -/
def State.cicSoftReset (s : State) (c : Nat) : State :=
  (s.setCic c { edge := 0, moderated := 0 }).zeroRegs (cicPage c) [0x05C, 0x060]

/-! ## External inputs -/

/-- GLITCH.CYCLES of a filter: GLITCH_A for ALERT_N, GLITCH_B for PRESENT_N (R294). -/
def State.glitch (s : State) (port : Nat) (present : Bool) : Nat :=
  s.fld irtrPage (if present then 0x0C4 else 0x0C0) (8 * port + 7) (8 * port)

/-- Whether a sideband level, held for a number of clock cycles, passes its filter (R294); the filter's clock must run (R513). -/
def State.glitchPasses (s : State) (port : Nat) (present : Bool) (cycles : Nat) : Bool :=
  s.irtr.refclk && decide (s.glitch port present ≤ cycles)

/-- The filtered level of a sideband line; both lines idle high. -/
def State.sideLevel (s : State) (port : Nat) (present : Bool) : Bool :=
  if present then Sparse.get (fun _ => true) s.irtr.present port else Sparse.get (fun _ => true) s.irtr.alert port

/-- A change of a filtered sideband level: ALERT_N latches on its falling edge, PRESENT_N on either (R294). -/
def State.sideChange (s : State) (port : Nat) (present level : Bool) : State :=
  let old := s.sideLevel port present
  if old = level then s
  else
    let r := s.irtr
    let latch := fun (i : Nat) => Sparse.set (fun _ => false) r.latched i true
    if present then
      { s with irtr := { r with present := Sparse.set (fun _ => true) r.present port level, latched := latch (4 + port) } }
    else if level then { s with irtr := { r with alert := Sparse.set (fun _ => true) r.alert port level } }
    else { s with irtr := { r with alert := Sparse.set (fun _ => true) r.alert port level, latched := latch port } }

/-- Latched inputs named by a mask of INPUT_PEND2 bits are cleared (R294): input 82 is bit 18 of INPUT_PEND2. -/
def State.latchClear (s : State) (mask : Word32) : State :=
  let l := (List.range 8).foldl (fun l i => if mask.getLsbD (18 + i) then Sparse.set (fun _ => false) l i false else l)
    s.irtr.latched
  { s with irtr := { s.irtr with latched := l } }

end Sys2Proof.Machine
end

