-- ==== Sys2Proof/Machine/QueueBase.lean ====
section
/-!
DEFINITION. The rings of the queue engine (R404, R405, R410, R414, R419, R420): index reads, completion writes, reservations
and the fields of entries.
-/
namespace Sys2Proof.Machine
open Sys2Proof

/-- The QENG page. -/
def qengPage : Nat := pageOf .qeng 0

/-- The HEP page. -/
def hepPage : Nat := pageOf .hep 0

/-- A queue pair. -/
def State.qp (s : State) (q : Nat) : QPair := Sparse.get (fun _ => QPair.none) s.qpairs q

/-- A queue pair replaced. -/
def State.setQp (s : State) (q : Nat) (x : QPair) : State :=
  { s with qpairs := Sparse.set (fun _ => QPair.none) s.qpairs q x }

/-- A field of an entry's 64 bytes: `n` bytes at offset `o`, little-endian (R8, R409). -/
def field (bs : List Byte) (o n : Nat) : Nat := Word.leValue ((bs.drop o).take n)

/-- OPC of an entry. -/
def Entry.opc (e : Entry) : Nat := field e.sqe 0 2
/-- FLAGS of an entry. -/
def Entry.flags (e : Entry) : Nat := field e.sqe 2 1
/-- SEQ of an entry. -/
def Entry.seq (e : Entry) : Nat := field e.sqe 4 4
/-- ORDER_KEY of an entry. -/
def Entry.key (e : Entry) : Nat := field e.sqe 8 8
/-- DECL_LEN of an entry. -/
def Entry.declLen (e : Entry) : Nat := field e.sqe 16 4
/-- PIPE_ID of an entry. -/
def Entry.pipe (e : Entry) : Nat := field e.sqe 20 2
/-- INLINE of an entry. -/
def Entry.inline (e : Entry) : Bool := Word.bit 0 e.flags
/-- The message of an entry: its data, or its inline bytes (R411). -/
def Entry.message (e : Entry) : List Byte :=
  if e.inline then (e.sqe.drop 32).take e.declLen else e.data

/-- Bytes cut or zero-padded to a length. -/
def fit (n : Nat) (bs : List Byte) : List Byte := (bs ++ List.replicate n 0).take n

/-- A CQE's 32 bytes (R410). -/
def cqeBytes (seq sq status cue : Nat) (res : List Byte) : List Byte :=
  Word.leBytes 4 seq ++ Word.leBytes 2 sq ++ Word.leBytes 2 status ++ Word.leBytes 8 cue ++ fit 16 res

/-- A CQE without result bytes outside it. -/
def plainCqe (seq sq status cue : Nat) (res : List Byte) : Cqe :=
  { bytes := cqeBytes seq sq status cue res, slot := none, result := [] }

/-- Whether the queue engine may read and write host memory: the HEP may send, and the module is neither in a house halt nor
in standby (R398, R403, R424, R425, R481). -/
def State.hostOk (s : State) : Bool := s.hep.canSend && !s.mdl.halt && s.mdl.st != .standby

/-- The distance of two 32-bit indices (R405). -/
def ringDist (prod cons : Nat) : Nat := (prod + 2 ^ 32 - cons % 2 ^ 32) % 2 ^ 32

/-- One held CQE is written: its result slot, then itself; its reservation returns (R414, R419, R420). -/
def State.writeCqe (s : State) (q : Nat) (c : Cqe) : State :=
  let p := s.qp q
  let s1 := match c.slot with
    | some i => s.pokeHost (p.resBase + p.resStride * (i % 2 ^ p.sqLog)) c.result
    | none => match c.at_ with
      | some a => s.pokeHost a c.result
      | none => s
  let s2 := s1.pokeHost (p.cqAddr + 32 * (p.cqProd % 2 ^ p.cqLog)) c.bytes
  s2.setQp q { p with cqProd := (p.cqProd + 1) % 2 ^ 32, held := p.held.drop 1, reserved := p.reserved - 1 }

/-- The held CQEs that fit are written, in order (R419). -/
def State.writeFit (s : State) (q : Nat) : Nat → State
  | 0 => s
  | n + 1 =>
    let p := s.qp q
    match p.held with
    | [] => s
    | c :: _ => if ringDist p.cqProd p.cqCons < 2 ^ p.cqLog then (s.writeCqe q c).writeFit q n else s

/-- The held CQEs that fit are written, then CQ_PROD; whether any was written (R420). -/
def State.flushCq (s : State) (q : Nat) : State × Bool :=
  let p := s.qp q
  if !s.hostOk || !p.cqOn then (s, false)
  else
    let s1 := s.writeFit q p.held.length
    let p1 := s1.qp q
    if p1.cqProd = p.cqProd then (s1, false)
    else (s1.pokeHost (p1.idxAddr + 0x80) (Word.leBytes 4 p1.cqProd), true)

/-- A completion joins its queue's held list. -/
def State.holdCqe (s : State) (q : Nat) (c : Cqe) : State :=
  let p := s.qp q
  if p.cqOn then s.setQp q { p with held := p.held ++ [c] } else s

/-- The admin CQE is written and vector 0 raised; it waits while the host cannot be written (R401, R415). -/
def State.adminCqe (s : State) (sqe : List Byte) (status cue : Nat) (res : List Byte) : State :=
  let s1 := s.holdCqe 0 (plainCqe (field sqe 4 4) 0 status cue res)
  let (s2, wrote) := s1.flushCq 0
  if wrote then s2.raiseVector 0 else s2

/-- The queue numbers that have a completion queue, in ascending order. -/
def State.liveQueues (s : State) : List Nat :=
  (s.qpairs.filter (fun p => p.2.cqOn && decide (p.1 ≠ 0))).map Prod.fst

/-- Every completion queue is flushed, and each vector is raised at most once (R401, R420). -/
def State.flushAll (s : State) : State :=
  let r := s.liveQueues.foldl
    (fun (t : State × List Nat) q =>
      let (u, wrote) := t.1.flushCq q
      if wrote then (u, if t.2.contains (u.qp q).vector then t.2 else t.2 ++ [(u.qp q).vector]) else (u, t.2)) (s, [])
  r.2.foldl (fun t v => t.raiseVector v) r.1

end Sys2Proof.Machine
end

