-- ==== Sys2Proof/Machine/PBook.lean ====
section
/-!
DEFINITION. The prompt book (R350–R360, R418): its areas in DDR5, records, acts and their roots, seals, journal lag, export
blocks and the journal queue, and the verification that follows a reset.
-/
namespace Sys2Proof.Machine
open Sys2Proof

/-- The PBOOK page. -/
def pbPage : Nat := pageOf .pbook 0

/-- The first address above the populated DDR5 (R508). -/
def State.ddrTop (s : State) : Nat := 0x010000000000 + s.build.ddrBytes

/-- A prompt book replaced. -/
def State.setPb (s : State) (p : PBook) : State := { s with pbook := p }

/-- The address of a record's slot (R355). -/
def PBook.recAddr (p : PBook) (n : Nat) : Nat := p.recBase + 256 * (n % p.recs)
/-- The base of the seal area, below the record area (R355). -/
def PBook.sealBase (p : PBook) : Nat := p.recBase - 2048 * p.seals
/-- The address of an act's seal. -/
def PBook.sealAddr (p : PBook) (act : Nat) : Nat := p.sealBase + 2048 * ((act - 1) % p.seals)
/-- The base of the input log, below the seal area (R355). -/
def PBook.logBase (p : PBook) : Nat := p.sealBase - p.logLen

/-- The record slots a region of `gib` GiB holds (R355). -/
def recSlots (gib : Nat) : Nat := gib * 2 ^ 30 / 256
/-- The seals beside them (R355). -/
def sealSlots (gib : Nat) : Nat := recSlots gib / 16 + 1024
/-- The DDR5 bytes that the three areas take at the configured sizes (R355, R101). -/
def State.pbBytes (s : State) : Nat :=
  let g := s.fld pbPage 0x040 6 0
  g * 2 ^ 30 + sealSlots g * 2048 + s.fld pbPage 0x044 16 0 * 2 ^ 20

/-- A record in memory. -/
def State.pbRec (s : State) (n : Nat) : List Byte := s.bytesAt (s.pbook.recAddr n) 256

/-- Free record slots, not counting the eight kept for HALT and CURTAIN (R355, R356). -/
def PBook.freeRecs (p : PBook) : Nat := if p.alloc then p.recs - 8 - (p.next - p.exported) else 0
/-- Free seals: those of acts that are exported or never used (R356). -/
def PBook.freeSeals (p : PBook) : Nat := if p.alloc then p.seals - p.acts.length else 0
/-- Free bytes of the input log (R356). -/
def PBook.freeLog (p : PBook) : Nat := p.logLen - (p.logHead - p.logTail)

/-- The pipeline set digest (R192). -/
def State.psetDigest (s : State) : List Byte :=
  shake256 64 (s.pipes.flatMap (fun p =>
    Word.leBytes 2 p.id ++ Word.leBytes 1 p.cls ++ List.replicate 5 0 ++ fit 64 p.digest))

/-- A record's 256 bytes, but for its place in the chain (R350). -/
def recBytes (b : RecBody) (recno : Nat) (prev : List Byte) : List Byte :=
  Word.leBytes 8 b.cue ++ Word.leBytes 6 recno ++ Word.leBytes 1 b.kind ++ Word.leBytes 1 b.flags ++ fit 64 b.a ++
    fit 64 b.b ++ fit 64 b.c ++ fit 16 b.pset ++ fit 32 prev

/-- A hash of the commit sweeper or the prompt book goes to a digest unit (R322): the SHAKE256 digest of a message, already computed. -/
def State.hashSent (s : State) (seed : Nat) (msg : List Byte) (out : List Byte) : State :=
  { s with hashes := s.hashes ++ [{ unit := Config.hashUnit seed % 24, blocks := msg.length / 136 + 1, out := out }] }

/-- A record is written, and its hash, the leaf of its act, goes to a digest unit (R322, R350, R353); nothing while the areas are not
allocated. -/
def State.writeRec (s : State) (b : RecBody) : State :=
  let p := s.pbook
  if !p.alloc then s
  else
    let prev := if p.next = 0 then List.replicate 32 0 else shake256 32 (s.pbRec (p.next - 1))
    let rec_ := recBytes b p.next prev
    let leaf := 0x00#8 :: rec_
    ((s.storeMem (p.recAddr p.next) rec_).hashSent p.next leaf (shake256 64 leaf)).setPb { p with next := p.next + 1 }

/-- A run of bytes in a ring of `len` bytes at `base`, from a free-running offset. -/
def State.ringWrite (s : State) (base len off : Nat) : List Byte → State
  | [] => s
  | b :: r => (s.storeMem (base + off % len) [b]).ringWrite base len (off + 1) r

/-- The bytes of a ring between two free-running offsets. -/
def State.ringRead (s : State) (base len a b : Nat) : List Byte :=
  (List.range (b - a)).map (fun i => s.byteAt (base + (a + i) % len))

/-- An input log section for a cue (R357). -/
def State.writeLog (s : State) (cue count : Nat) (input : List Byte) : State :=
  let p := s.pbook
  if !p.alloc || p.logLen = 0 then s
  else
    let sec := Word.leBytes 8 cue ++ Word.leBytes 4 input.length ++ Word.leBytes 4 count ++ input ++
      List.replicate ((8 - input.length % 8) % 8) 0
    (s.ringWrite p.logBase p.logLen p.logHead sec).setPb { p with logHead := p.logHead + sec.length }

/-- The act in progress ends; its seal is requested (R353, R354). -/
def State.closeAct (s : State) : State :=
  let p := s.pbook
  if p.next ≤ p.actFirst then s
  else s.setPb { p with
    acts := p.acts ++ [{ num := p.actNum + 1, first := p.actFirst, last := p.next - 1, logFrom := p.logActFrom,
                         logTo := p.logHead, signed := false }],
    actNum := p.actNum + 1, actFirst := p.next, actCues := 0, logActFrom := p.logHead }

/-- The CUE record of a committed cue, its input log section, and the end of an act of ACT_CUES cues (R352, R353). -/
def State.recordCue (s : State) (cue flags count : Nat) (d : Digests) (input : List Byte) : State :=
  let s1 := (s.writeLog cue count input).writeRec
    { cue := cue, kind := 3, flags := flags, a := d.inp, b := d.out, c := d.delta, pset := s.psetDigest.take 16 }
  let p := s1.pbook
  let s2 := s1.setPb { p with actCues := p.actCues + 1 }
  if s.cue.par.act ≤ p.actCues + 1 then s2.closeAct else s2

/-- A HALT or CURTAIN record, and its act (R352, R353). -/
def State.recordStop (s : State) (kind cue : Nat) (payload : List Byte) : State :=
  (s.writeRec { cue := cue, kind := kind, flags := 0, a := payload, b := [], c := [], pset := [] }).closeAct

/-- An ADMIN record body (R351). -/
def adminRec (opcode subject option : Nat) (b c : List Byte) : RecBody :=
  { cue := 0, kind := 4, flags := 0,
    a := Word.leBytes 2 opcode ++ Word.leBytes 2 subject ++ Word.leBytes 4 option, b := b, c := c, pset := [] }

/-- LIB_DIGEST of the running firmware (R340). -/
def State.libDigest (s : State) : List Byte := match s.flash.run with
  | some i => i.lib
  | none => Config.libDigest

/-- A START record body (R351). -/
def State.startRec (s : State) : RecBody :=
  let p := s.cue.par
  { cue := 0, kind := 2, flags := 0,
    a := Word.leBytes 2 p.period ++ Word.leBytes 2 p.admits ++ Word.leBytes 2 p.cluster ++ Word.leBytes 2 p.domain ++
      Word.leBytes 1 p.stretch ++ Word.leBytes 1 p.reserve ++ Word.leBytes 2 p.act,
    b := fit 64 s.libDigest, c := [], pset := [] }

/-- A change is recorded at the next start instant that seals a cue; behind the curtain at once, as an act of its own, under
the abandoned cue (R352, R489). -/
def State.recordAdmin (s : State) (b : RecBody) : State :=
  if s.mdl.curtain then (s.writeRec { b with cue := s.mdl.faultCue }).closeAct
  else s.setPb { s.pbook with due := s.pbook.due ++ [b] }

/-- The records of a start instant that seals cue `n`: START, then every ADMIN record due, in order (R352). -/
def State.recordInstant (s : State) (n : Nat) (start : Bool) : State :=
  let s1 := if start then s.writeRec { s.startRec with cue := n } else s
  let s2 := s1.pbook.due.foldl (fun t b => t.writeRec { b with cue := n }) s1
  s2.setPb { s2.pbook with due := [] }

/-- The areas are allocated at the configured sizes and GENESIS is written (R355). -/
def State.pbAllocate (s : State) : State :=
  let g := s.fld pbPage 0x040 6 0
  let log := s.fld pbPage 0x044 16 0 * 2 ^ 20
  let p : PBook := { PBook.reset with
    alloc := true, recs := recSlots g, seals := sealSlots g, logLen := log, recBase := s.ddrTop - g * 2 ^ 30, due := s.pbook.due }
  let s1 := (s.setPb p).setPageAddr pbPage 0x048 0x04C p.recBase
  s1.writeRec { cue := 0, kind := 1, flags := 0, a := Word.leBytes 8 s.build.serial ++ keyHash Config.identityPub, b := [],
                c := [], pset := [] }

/-- Whether journal lag holds, with a number of ADMIN records due (R356). -/
def State.lagNow (s : State) (due : Nat) : Bool :=
  let p := s.pbook
  p.alloc && (decide (p.freeRecs < s.cue.par.act + 72 + due) || decide (p.freeSeals < 4) ||
    (decide (p.logLen ≠ 0) && decide (p.freeLog < 16 * 2 ^ 20)))

/-! ## Act roots and seals -/

/-- One level of the act tree: pairs hashed, an unpaired last node passed up (R353). -/
def actLevel : List (List Byte) → List (List Byte)
  | a :: b :: r => shake256 64 (0x01#8 :: a ++ b) :: actLevel r
  | l => l

/-- The root of a tree with at most `n` levels (R353). -/
def actRootOf : Nat → List (List Byte) → List Byte
  | 0, l => l.headD []
  | n + 1, l => if l.length ≤ 1 then l.headD [] else actRootOf n (actLevel l)

/-- The root of an act's records (R353). -/
def State.actRoot (s : State) (first count : Nat) : List Byte :=
  actRootOf (count + 1) ((List.range count).map (fun i => shake256 64 (0x00#8 :: s.pbRec (first + i))))

/-- Bytes 0–95 of a seal, which its signature covers (R354). -/
def State.sealHead (s : State) (a : Act) : List Byte :=
  ascii "STXSEAL1" ++ Word.leBytes 8 a.num ++ Word.leBytes 8 a.first ++ Word.leBytes 4 (a.last + 1 - a.first) ++
    Word.leBytes 4 0 ++ fit 64 (s.actRoot a.first (a.last + 1 - a.first))

/-- A signature of the Larkspur units: free bytes (Assumption 3). It is released only if it verifies (R328). -/
def State.freshSig (s : State) (pk msg : List Byte) : Option (List Byte) × State :=
  let sig := Config.freeSig s.fresh
  (if falconVerify pk msg sig then some sig else none, { s with fresh := s.fresh + 1 })

/-- A signature in the fixed 1,464-byte form (R345). -/
def sigField (sig : List Byte) : List Byte := fit 1464 (Word.leBytes 2 sig.length ++ sig)

/-- The raw body of an act's export block: records, seal, log sections (R358). -/
def State.exportBody (s : State) (a : Act) : List Byte :=
  let p := s.pbook
  (List.range (a.last + 1 - a.first)).flatMap (fun i => s.pbRec (a.first + i)) ++ s.bytesAt (p.sealAddr a.num) 2048 ++
    (if p.logLen = 0 then [] else s.ringRead p.logBase p.logLen a.logFrom a.logTo)

/-- An export block (R358), with the codec in force. -/
def State.exportBlock (s : State) (a : Act) : ExportBlock :=
  let raw := s.exportBody a
  let stored := if s.journalCodec = 0 then raw else cmpBlock 1 2 1 raw
  let head := ascii "STXJRNBK" ++ Word.leBytes 8 a.first ++ Word.leBytes 4 (a.last + 1 - a.first) ++ Word.leBytes 4 1 ++
    Word.leBytes 4 (if s.pbook.logLen = 0 then 0 else a.logTo - a.logFrom) ++ Word.leBytes 2 s.journalCodec ++
    List.replicate 2 0 ++ Word.leBytes 4 raw.length ++ Word.leBytes 4 stored.length ++ Word.leBytes 4 (crc32c raw) ++
    List.replicate 16 0
  let block := head ++ Word.leBytes 4 (crc32c head) ++ stored
  { act := a.num, firstRec := a.first, lastRec := a.last,
    bytes := block ++ List.replicate ((64 - block.length % 64) % 64) 0, part := 0 }

/-- The oldest act whose seal is not signed. -/
def PBook.nextSeal (p : PBook) : Option Act := p.acts.find? (fun a => !a.signed)

/-- A seal's signature is complete: the seal is written, SEALED is raised and the export block is queued (R354, R358). The unit
that signed counts it. -/
def State.sealDone (s : State) (a : Act) (sig : List Byte) (unit : Nat) : State :=
  let head := s.sealHead a
  let bytes := fit 128 (head ++ Word.leBytes 2 sig.length) ++ fit 1462 sig
  let s1 := s.storeMem (s.pbook.sealAddr a.num) (fit 2048 bytes)
  let p := s1.pbook
  let a1 := { a with signed := true }
  let s2 := s1.setPb { p with acts := p.acts.map (fun x => if x.num = a.num then a1 else x), sealedAct := a.num }
  let s3 := (s2.evt pbPage 0).addReg (pageOf .lsu unit) 0x058 1
  if s3.journal.isSome then { s3 with exports := s3.exports ++ [s3.exportBlock a1] } else s3

/-! ## The journal queue (R418) -/

/-- The space a part needs in the buffer: its bytes, after a skip to the buffer's start where the end lacks room. -/
def JournalQ.place (j : JournalQ) (len : Nat) : Nat :=
  if j.bufLen - j.bufHead % j.bufLen < len then j.bufHead + (j.bufLen - j.bufHead % j.bufLen) else j.bufHead

/-- The next part of the oldest export block is written with its journal entry, CQ_PROD and the vector, when ring and buffer
have room (R418). -/
def State.exportPart (s : State) : State :=
  match s.journal, s.exports with
  | some j, b :: rest =>
    let len := min b.bytes.length (j.bufLen / 4 / 64 * 64)
    let off := j.place len
    if !s.hostOk || decide (2 ^ j.log ≤ ringDist j.prod j.cons) || decide (j.bufLen < off + len - j.bufFree) then s
    else
      let last := decide (b.bytes.length ≤ len)
      let ent := Word.leBytes 8 b.act ++ Word.leBytes 8 off ++ Word.leBytes 4 len ++ Word.leBytes 2 b.part ++
        Word.leBytes 1 (if last then 1 else 0) ++ [0#8] ++ Word.leBytes 8 b.firstRec
      let s1 := (s.pokeHost (j.bufAddr + off % j.bufLen) (b.bytes.take len)).pokeHost
        (j.ring + 32 * (j.prod % 2 ^ j.log)) ent
      let prod := (j.prod + 1) % 2 ^ 32
      let j1 := { j with prod := prod, bufHead := off + len,
                         ents := j.ents ++ [{ bufEnd := off + len, exported := if last then some (b.lastRec + 1) else none }] }
      let s2 := (s1.pokeHost (j.idxAddr + 0x80) (Word.leBytes 4 prod)).raiseVector j.vector
      { s2 with journal := some j1,
                exports := if last then rest else { b with bytes := b.bytes.drop len, part := b.part + 1 } :: rest }
  | _, _ => s

/-- Records below a number are exported: EXPORTED rises, exported acts leave, and their log bytes are free (R356, R358). -/
def State.exportedTo (s : State) (n : Nat) : State :=
  let p := s.pbook
  if n ≤ p.exported then s
  else
    let gone := p.acts.filter (fun a => a.signed && decide (a.last < n))
    (s.setPb { p with exported := n, acts := p.acts.filter (fun a => !(a.signed && decide (a.last < n))),
                      logTail := gone.foldl (fun v a => max v a.logTo) p.logTail }).evt pbPage 4

/-- The driver's CQ_CONS of the journal queue is used: only when ahead of the last one and within the ring (R418). -/
def State.journalCons (s : State) (cons : Nat) : State :=
  match s.journal with
  | none => s
  | some j =>
    let n := ringDist cons j.cons
    if n = 0 ∨ ringDist j.prod j.cons < n then s
    else
      let done := j.ents.take n
      let free := match done.getLast? with
        | some e => e.bufEnd
        | none => j.bufFree
      let s1 := { s with journal := some { j with cons := cons, bufFree := free, ents := j.ents.drop n } }
      match (done.filterMap (fun e => e.exported)).getLast? with
      | some r => s1.exportedTo r
      | none => s1

/-- The export blocks a new journal queue owes: from the oldest act whose records are not all exported (R408). -/
def State.exportBacklog (s : State) : List ExportBlock := (s.pbook.acts.filter (fun a => a.signed)).map s.exportBlock

/-! ## Verification after a reset (R359) -/

/-- The oldest record the ring still holds. -/
def PBook.oldest (p : PBook) : Nat := p.next - min p.next p.recs

/-- The first record whose PREV link, act root or seal fails, from the oldest held; none when the chain is good (R359). -/
def State.chainFault (s : State) : Option Nat :=
  let p := s.pbook
  let links := (List.range (p.next - p.oldest)).findSome? (fun i =>
    let n := p.oldest + i
    let r := s.pbRec n
    let prevOk := if n = 0 then r.drop 224 == List.replicate 32 0
      else if i = 0 then true else r.drop 224 == shake256 32 (s.pbRec (n - 1))
    if prevOk && field r 8 6 == n then none else some n)
  let seals := (List.range (min p.sealedAct p.seals)).findSome? (fun i =>
    let num := p.sealedAct - i
    let b := s.bytesAt (p.sealAddr num) 2048
    let first := field b 16 8
    let count := field b 24 4
    if first < p.oldest then none
    else if field b 8 8 == num && (b.drop 32).take 64 == s.actRoot first count &&
        falconVerify Config.identityPub (b.take 96) ((b.drop 128).take (field b 96 2)) then none
    else some first)
  let lastCue := (List.range (p.next - p.oldest)).findSome? (fun i =>
    let r := s.pbRec (p.next - 1 - i)
    if field r 14 1 = 3 then some (field r 0 8) else none)
  let cueOk := match lastCue with
    | some c => decide (c = s.cue.committed)
    | none => decide (s.cue.committed = 0)
  match links, seals with
  | some a, some b => some (min a b)
  | some a, none => some a
  | none, some b => some b
  | none, none => if cueOk then none else some (p.next - 1)

/-- The verification ends: the chain continues and the unsealed tail becomes one act, or CHAIN_BAD holds the record at fault
and reattach is refused (R359). -/
def State.pbVerifyDone (s : State) : State :=
  if s.pbook.verify ≠ 1 then s
  else match s.chainFault with
    | some n => ((s.setPb { s.pbook with verify := 3 }).err pbPage 0x0102 (n % 2 ^ 32) (n / 2 ^ 32) 0).evt pbPage 3
    | none =>
      let p := s.pbook
      let first := match p.nextSeal with
        | some a => a.first
        | none => p.actFirst
      let from_ := match p.nextSeal with
        | some a => a.logFrom
        | none => p.logActFrom
      let s1 := s.setPb { p with verify := 2, acts := p.acts.filter (fun a => a.signed), actNum := p.sealedAct,
                                 actFirst := first, logActFrom := from_ }
      ((s1.setWide pbPage 0x074 s.cue.committed).closeAct).evt pbPage 3

end Sys2Proof.Machine
end

