-- ==== Sys2Proof/Machine/WingBase.lean ====
section
/-!
DEFINITION. The wing link (R436–R441, R448) and the roles of a company (R449): link states, frames with their credits, sequence
numbers and replay, the departure of a port, and what a lead sends when it yields (R456).
-/
namespace Sys2Proof.Machine
open Sys2Proof

/-- The WING page of a port. -/
def wingPage (p : Nat) : Nat := pageOf .wing p
/-- The WPEER page of a port. -/
def wpeerPage (p : Nat) : Nat := pageOf .wpeer p
/-- The WWIN page of a port. -/
def wwinPage (p : Nat) : Nat := pageOf .wwin p
/-- The COMPANY page. -/
def companyPage : Nat := pageOf .company 0

/-- A wing port. -/
def State.wing (s : State) (p : Nat) : Wing := Sparse.get (fun _ => Wing.reset) s.wings p

/-- A wing port replaced. -/
def State.setWing (s : State) (p : Nat) (x : Wing) : State :=
  { s with wings := Sparse.set (fun _ => Wing.reset) s.wings p x }

/-- LSTATE of a port: 0 DOWN, 1 DETECT, 2 EQUALIZE, 3 ALIGN, 4 HELLO, 5 ACTIVE, 6 RETRAIN, 7 REFUSED (the WING page). -/
def State.lstate (s : State) (p : Nat) : Nat := s.fld (wingPage p) 0x00C 15 12

/-- MODE of a port: 0 DISABLED, 1 PAIR, 2 CASCADE, 3 MIRROR. -/
def State.wingMode (s : State) (p : Nat) : Nat := s.fld (wingPage p) 0x008 7 4

/-- A port enters a link state: LSTATE, BUSY while it trains, and UNIT_STATE follow (the WING page). -/
def State.setLstate (s : State) (p x : Nat) : State :=
  let pg := wingPage p
  let unit := if x = 5 then 2 else if x = 6 then 3 else if x = 0 ∧ s.fld pg 0x008 0 0 = 0 then 0 else 1
  ((s.setFld pg 0x00C 15 12 x).setFld pg 0x00C 8 8 (if x = 1 ∨ x = 2 ∨ x = 3 ∨ x = 6 then 1 else 0)).setFld pg 0x00C 3 0 unit

/-- COMPANY.STAT.ROLE: 0 SOLO, 1 LEAD, 2 UNDERSTUDY, 3 CATCHING_UP, 4 DESYNC, 5 ORPHANED. -/
def State.role (s : State) : Nat := s.fld companyPage 0x00C 15 12

/-- A role taken; UNIT_STATE and BUSY of the COMPANY page follow. -/
def State.setRole (s : State) (r : Nat) : State :=
  let unit := if r = 0 then 1 else if r = 1 ∨ r = 2 then 2 else 3
  ((s.setFld companyPage 0x00C 15 12 r).setFld companyPage 0x00C 3 0 unit).setFld companyPage 0x00C 8 8 (if r = 3 then 1 else 0)

/-- COMPANY.STAT.REDUNDANT. -/
def State.redundant (s : State) : Bool := decide (s.fld companyPage 0x00C 11 11 = 1)

/-- REDUNDANT written. -/
def State.setRedundant (s : State) (b : Bool) : State := s.setFld companyPage 0x00C 11 11 (if b then 1 else 0)

/-- COMPANY.CTL.MODE: 0 SOLO, 1 PAIR, 2 CASCADE, 3 PAIR_OF_CASCADES. -/
def State.companyMode (s : State) : Nat := s.fld companyPage 0x008 7 4

/-- This module's rank. -/
def State.rank (s : State) : Nat := s.fld companyPage 0x048 1 0

/-- The members of the cascade. -/
def State.members (s : State) : Nat := s.fld companyPage 0x048 9 8 + 1

/-- Whether cues follow CUE_SYNC: CUE.CTL[7:4] = 1 (R72, R449). -/
def State.follows (s : State) : Bool := decide (s.fld (pageOf .cue 0) 0x008 7 4 = 1)

/-- The ports in a link state whose MODE is one of a list. -/
def State.portsIn (s : State) (modes : List Nat) (ls : Nat) : List Nat :=
  (List.range 4).filter (fun p => s.lstate p == ls && modes.contains (s.wingMode p))

/-- The ACTIVE pair links: PAIR ports, and MIRROR ports of a pair of cascades (R456, R468). -/
def State.pairLinks (s : State) : List Nat := s.portsIn [1, 3] 5

/-! ## Frames -/

/-- The credits a frame takes (R440). -/
def frameCost (len : Nat) : Nat := (len + 24 + 63) / 64

/-- HEARTBEAT, NAK and CREDIT frames take no credit (R440). -/
def creditFree (typ : Nat) : Bool := typ == 0x04 || typ == 0x05 || typ == 0x06

/-- The credits a receiver grants on each virtual channel: its receive buffer in 64-byte units (R439). -/
def grantedCredits : List Nat := [256, 8192, 2048, 2048, 32768, 1024]

/-- Types that are sent in fragments (R438). -/
def fragments (typ : Nat) : Bool := typ == 0x10 || typ == 0x11 || typ == 0x32

/-- A message cut into payloads of at most 4,096 bytes (R438). -/
def cutFrames (typ vc : Nat) : Nat → List Byte → List Frame
  | 0, bs => [{ typ := typ, vc := vc, fseq := 0, more := false, credVc := 0, cred := 0, payload := bs }]
  | n + 1, bs =>
    if bs.length ≤ 4096 then
      [{ typ := typ, vc := vc, fseq := 0, more := false, credVc := 0, cred := 0, payload := bs }]
    else { typ := typ, vc := vc, fseq := 0, more := true, credVc := 0, cred := 0, payload := bs.take 4096 } ::
      cutFrames typ vc n (bs.drop 4096)

/-- The bytes a frame occupies in the replay buffer. -/
def Frame.size (f : Frame) : Nat := f.payload.length + 24

/-- The frames of a queue that may leave now, in order, each channel stopping at its first frame without credits, and all of
them at a full replay buffer (R440, R441). -/
def pumpFrames (w : Wing) : List Nat → List Frame → Wing × List Frame
  | _, [] => (w, [])
  | stopped, f :: r =>
    let cost := if creditFree f.typ then 0 else frameCost f.payload.length
    let have_ := w.credits.getD f.vc 0
    let room := decide ((w.replay.map Frame.size).sum + f.size ≤ 524288)
    if stopped.contains f.vc || decide (have_ < cost) || !room then
      let (w1, rest) := pumpFrames w (f.vc :: stopped) r
      (w1, f :: rest)
    else
      let w1 := { w with txSeq := (w.txSeq + 1) % 2 ^ 32, credits := w.credits.set f.vc (have_ - cost),
                         replay := w.replay ++ [{ f with fseq := w.txSeq }] }
      pumpFrames w1 stopped r

/-- Waiting frames leave while the link carries frames: HELLO and ACTIVE (R436). -/
def State.wingPump (s : State) (p : Nat) : State :=
  if s.lstate p = 4 ∨ s.lstate p = 5 then
    let w := s.wing p
    let (w1, rest) := pumpFrames w [] w.waitq
    s.setWing p { w1 with waitq := rest }
  else s

/-- A message is sent: padded to a multiple of 8, in fragments where its type has them (R438). -/
def State.wingSend (s : State) (p typ vc : Nat) (payload : List Byte) : State :=
  let w := s.wing p
  let bs := payload ++ List.replicate ((8 - payload.length % 8) % 8) 0
  let fs := if fragments typ then cutFrames typ vc (bs.length / 4096 + 1) bs
    else [{ typ := typ, vc := vc, fseq := 0, more := false, credVc := 0, cred := 0, payload := bs }]
  (s.setWing p { w with waitq := w.waitq ++ fs }).wingPump p

/-- A message sent on several ports. -/
def State.wingSendAll (s : State) (ps : List Nat) (typ vc : Nat) (payload : List Byte) : State :=
  ps.foldl (fun t p => t.wingSend p typ vc payload) s

/-- Credits returned to the partner, in a CREDIT frame (R440). -/
def State.wingCredit (s : State) (p vc n : Nat) : State :=
  let w := s.wing p
  let f : Frame := { typ := 0x06, vc := 0, fseq := 0, more := false, credVc := vc, cred := n, payload := [] }
  (s.setWing p { w with waitq := w.waitq ++ [f] }).wingPump p

/-- A frame is received intact and in order: FSEQ advances, its ACK frees the replay buffer, its credits are taken, and its own
buffer space is returned (R437, R440, R441). -/
def State.wingAccept (s : State) (p ack credVc cred typ vc len : Nat) : State :=
  let w := s.wing p
  let replay := match w.replay.findIdx? (fun f => f.fseq == ack) with
    | some i => w.replay.drop (i + 1)
    | none => w.replay
  let w1 := { w with rxSeq := (w.rxSeq + 1) % 2 ^ 32, replay := replay,
                     stuck := if replay.length < w.replay.length then 0 else w.stuck,
                     credits := w.credits.set credVc (w.credits.getD credVc 0 + cred) }
  let s1 := (s.setWing p w1).wingPump p
  if creditFree typ then s1 else s1.wingCredit p vc (frameCost len)

/-- Whether a port takes frames from its partner. -/
def State.wingLive (s : State) (p : Nat) : Bool := s.lstate p == 4 || s.lstate p == 5

/-- The sender replays its unacknowledged frames (R441). After RETRY_LIMIT replays without progress an ACTIVE link retrains (R436). -/
def State.wingReplay (s : State) (p : Nat) : State :=
  let pg := wingPage p
  let w := s.wing p
  let s1 := (s.setWing p { w with stuck := w.stuck + 1 }).addReg pg 0x044 1
  if s.lstate p = 5 ∧ s.fld pg 0x404 3 0 ≤ w.stuck + 1 then ((s1.setLstate p 6).addReg pg 0x04C 1).evt pg 3 else s1

/-! ## Departure -/

/-- A follower's running cue is abandoned uncommitted, and its cue logic is idle again; a cue without a CUE record has no place in its act
(R353, R454, R463). -/
def State.stopCue (s : State) : State :=
  let c := s.cue
  let open_ := c.unit = 2 ∧ (c.phase = .run ∨ c.phase = .due)
  let s1 : State := { s with cue := { c with unit := if c.unit = 2 then 1 else c.unit, phase := .none, sealedSet := [], buffer := [],
                                             carried := 0, release := [], actPos := if open_ then c.actPos - 1 else c.actPos,
                                             actBreak := c.actBreak || (decide open_ && decide (c.actPos = 0)) } }
  (List.range 12).foldl (fun t k => t.dispDiscard k) s1

/-- What the company loses with a port (R448, R454, R462, R463, R467, R468): a lead whose last link to its understudy goes
ends catch-up, and raises UNPROTECTED where it was redundant; an understudy whose last link goes will promote; a plain cascade loses the rank. -/
def State.companyLoss (s : State) (p mode : Nat) : State :=
  let c := s.company
  if mode = 2 then
    let r := ((s.wing p).peerHello.drop 8).headD 0xFF
    { s with company := { c with lost := c.lost ++ [r.toNat] } }
  else if !s.pairLinks.isEmpty then s
  else if s.role = 1 then
    let pins := s.strike.pins.filter (fun x => decide (x.1 ≠ .catchup))
    let s1 : State := { s with company := { c with catchS := none, lockAt := none, peerDigest := none, peerBehind := false }, strike := { s.strike with pins := pins } }
    let s2 := s1.setFld companyPage 0x00C 8 8 0
    if s.redundant then (s2.setRedundant false).evt companyPage 1 else s2
  else if s.role = 2 then
    { s with company := { c with promoting := true } }.setRedundant false
  else if s.role = 3 ∨ s.role = 4 then
    let s1 := s.stopCue
    { s1 with company := { c with arrivals := [], seals := [], loading := false, ready := false, deltas := [], lockAt := none, peerDigest := none } }.setRole 3
  else s

/-- The reasons a load from a lost window must raise REMOTE: its request is forgotten, and the load finds the port down (R224). -/
def Core.dropRemote (x : Core) (addrs : List Nat) : Core :=
  { x with remote := x.remote.filter (fun r => !addrs.contains r.addr) }

/-- A port goes DOWN: its frames are discarded, its credits and messages are gone; leaving ACTIVE or RETRAIN is a departure,
with what R448 makes of it: searches that wait for a MATCH bit or a
result of the member behind the port can only be lost (R310). Stores on their way are answered later, by REMOTE_STORE_LOST (R223). -/
def State.wingDown (s : State) (p : Nat) : State :=
  let was := s.lstate p
  let w := s.wing p
  let mode := s.wingMode p
  let s1 := (s.setWing p { Wing.reset with tag := w.tag, myHello := w.myHello, peerHello := w.peerHello }).setLstate p 0
  if was = 5 ∨ was = 6 then
    let loads := w.reqs.filterMap (fun r => match r.2 with
      | .load key a _ => some (key, a)
      | _ => none)
    let s2 := loads.foldl (fun t ka => t.setCoreAt ka.1 ((t.coreAt ka.1).dropRemote [ka.2])) s1
    let s3 := (s2.evt (wingPage p) 1).companyLoss p mode
    let r := ((w.peerHello.drop 8).headD 0xFF).toNat
    let waits := fun (x : Search) => decide (mode = 2) && (match x.bits.find? (fun b => b.1 == r) with
      | none => true
      | some b => b.2 && x.results.all (fun y => y.1 != r))
    { s3 with company := { s3.company with searches := s3.company.searches.map (fun x => if waits x then { x with lost := true } else x) } }
  else s1

/-! ## Yielding -/

/-- ALERT_N is driven low for 10 µs on every port (R442). -/
def State.pulseAlert (s : State) : State := { s with mdl := { s.mdl with alertPulses := s.mdl.alertPulses + 1 } }

/-- A lead yields: YIELD on every ACTIVE pair link with its cause, and ALERT_N low for 10 µs; a curtain or a halt drives
ALERT_N on every module (R442, R456). With cause 4 the curtain that follows drives it. -/
def State.yieldLead (s : State) (cause : Nat) : State :=
  if s.role = 1 ∧ s.company.yielded = false then
    let msg := Word.leBytes 8 s.cue.number ++ Word.leBytes 2 cause ++ List.replicate 6 0
    let s1 := s.wingSendAll s.pairLinks 0x07 0 msg
    let s2 := ({ s1 with company := { s1.company with yielded := true } }.setRedundant false).evt companyPage 5
    if cause = 4 then s2 else s2.pulseAlert
  else if cause = 1 ∨ cause = 2 then s.pulseAlert
  else s

end Sys2Proof.Machine
end

