-- ==== Sys2Proof/Machine/Agent.lean ====
section
/-!
DEFINITION. How an engine of the module reads and writes by device address (R223, R228, R252, R374, R469): memory class at once,
the host window through the HEP, a wing window by request frames to the partner; and what every unit with descriptors
shares: task signals, the submission of a descriptor and its done block (R132, R134).
-/
namespace Sys2Proof.Machine
open Sys2Proof

/-- Whether a wing window's partner can be reached: the port is ACTIVE or in RETRAIN (R224, R436). -/
def State.wingReachable (s : State) (p : Nat) : Bool :=
  let l := s.lstate p
  l == 5 || l == 6

/-- Whether the host window answers: the HEP is not frozen and may send (R224, R398). -/
def State.hostReachable (s : State) : Bool := !s.hep.frozen && s.hep.bme && s.hep.d0

/-- The statuses the units write, as far as several of them share one (R133, R376). -/
def stOk : Nat := 0x0000
/-- OUT_FULL. -/
def stOutFull : Nat := 0x0001
/-- ABORTED. -/
def stAborted : Nat := 0x0002
/-- LIST_FULL. -/
def stListFull : Nat := 0x0003
/-- LEN_SHORT. -/
def stLenShort : Nat := 0x0004
/-- LEN_LONG. -/
def stLenLong : Nat := 0x0005
/-- DESC_BAD. -/
def stDescBad : Nat := 0x0010
/-- ACCESS. -/
def stAccess : Nat := 0x0012
/-- FROZEN. -/
def stFrozen : Nat := 0x0013
/-- SUBMIT_FULL. -/
def stSubmitFull : Nat := 0x0014
/-- REMOTE_LOST. -/
def stRemoteLost : Nat := 0x001B

/-- Why an engine cannot access an address, as a status, if it cannot (R374). `remote` allows remote-class addresses. -/
def State.agentBad (s : State) (remote : Bool) (a : Nat) : Option Nat :=
  match s.region a with
  | .regs => some stAccess
  | .host => if !remote then some stAccess else if s.hostReachable then none else some stRemoteLost
  | .wing p =>
    if !remote || !s.populated a then some stAccess else if s.wingReachable p then none else some stRemoteLost
  | _ => if s.frozenAt a then some stFrozen else if s.populated a then none else some stAccess

/-- The first 64-byte unit of a range that an engine cannot access, with its status (R372, R374). -/
def State.agentFault (s : State) (remote : Bool) (a n : Nat) : Option (Nat × Nat) :=
  if n = 0 then none
  else (List.range ((a + n - 1) / 64 - a / 64 + 1)).findSome? (fun i =>
    let u := (a / 64 + i) * 64
    (s.agentBad remote u).map (fun st => (max a u, st)))

/-- A run of bytes read by an engine. What a wing window answers is `wing`, from the first byte of the range on. -/
def State.agentRead (s : State) (wing : List Byte) (a n : Nat) : List Byte :=
  match s.region a with
  | .host => s.hostBytesAt (a - 0xE00000000000) n
  | .wing _ => fit n wing
  | _ => s.bytesAt a n

/-- The partner's device address behind a wing window address (R469). -/
def State.partnerAddr (s : State) (p a : Nat) : Nat :=
  s.pageAddr (wwinPage p) 0x040 0x044 + (a - 0xD00000000000 - p * 0x010000000000)

/-- A request frame takes a TAG and is sent (R439, R469). -/
def State.wingRequest (s : State) (p typ : Nat) (req : WingReq) (len addr : Nat) (rest : List Byte) : State :=
  let w := s.wing p
  let s1 := s.setWing p { w with tag := (w.tag + 1) % 2 ^ 32, reqs := w.reqs ++ [(w.tag, req)] }
  s1.wingSend p typ 2 (Word.leBytes 4 w.tag ++ Word.leBytes 4 len ++ Word.leBytes 8 addr ++ rest)

/-- The 32 bytes of byte enables and the 256 data bytes of a WRITE_REQ (R439). -/
def writeReqBody (bytes : List (Nat × Byte)) : List Byte :=
  let at_ := fun (o : Nat) => bytes.find? (fun p => p.1 == o)
  (List.range 32).map (fun i => BitVec.ofNat 8 ((List.range 8).foldl
    (fun v j => if (at_ (8 * i + j)).isSome then v + 2 ^ j else v) 0)) ++
  (List.range 256).map (fun o => match at_ o with
    | some p => p.2
    | none => 0)

/-- Bytes of one aligned 256-byte block sent to the partner of a port as one WRITE_REQ (R469). -/
def State.wingWrite (s : State) (p block : Nat) (bytes : List (Nat × Byte)) (req : WingReq) : State :=
  s.wingRequest p 0x21 req 256 (s.partnerAddr p (block * 256)) (writeReqBody bytes)

/-- A run of bytes cut at 256-byte boundaries, each with its address. -/
def cutBlocks : Nat → Nat → List Byte → List (Nat × List Byte)
  | 0, _, _ => []
  | n + 1, a, bs =>
    if bs.isEmpty then []
    else (a, bs.take (256 - a % 256)) :: cutBlocks n (a + (256 - a % 256)) (bs.drop (256 - a % 256))

/-- A run of bytes written by an engine: posted to the host, sent to the partner, or stored (R252). -/
def State.agentWrite (s : State) (a : Nat) (bs : List Byte) : State :=
  (cutBlocks (bs.length / 256 + 2) a bs).foldl (fun t b =>
    match t.region b.1 with
    | .host => t.pokeHost (b.1 - 0xE00000000000) b.2
    | .wing p => t.wingWrite p (b.1 / 256) (b.2.zipIdx.map (fun x => (b.1 % 256 + x.2, x.1))) .engine
    | _ => if t.populated b.1 && !t.frozenAt b.1 then t.storeMem b.1 b.2 else t) s

/-! ## Store buffers of the cores (R220, R222, R223) -/

/-- A remote store of a core is lost (R223, R233, R235). CIC source 9 is an edge of REMOTE_LOST going from 0 to 1 (R288). -/
def State.storeLost (s : State) (key : Nat) (e : SbEntry) (host : Bool) : State :=
  let pg := pageOf .core key
  let a := e.block * 256 + (e.bytes.headD (0, 0)).1
  let was := decide (s.fld pg 0x040 0 0 = 1)
  let s1 := if was then s else s.setPageAddr pg 0x044 0x048 a
  let s2 := s1.setFld pg 0x040 0 0 1
  let s3 := if host then s2.setFld pg 0x040 1 1 1 else s2
  let s4 := ((if was then s3 else s3.evt (pageOf .clu (key / 16)) 1).addReg pg 0x04C 1).evt pg 0
  if was then s4 else s4.cicEdge (key / 16) 9

/-- An entry leaves a core's buffer at once: memory takes it, the HEP posts it or the port sends it, and one whose window is lost is answered
with an error (R220, R222, R223). -/
def State.sbLeave (s : State) (key : Nat) (e : SbEntry) : State :=
  match s.region (e.block * 256) with
  | .wing p =>
    if e.sent then s
    else if s.wingReachable p then s.wingWrite p e.block e.bytes (.store key e.block) else s.storeLost key e false
  | .host => if s.hostReachable then s.sbApply key e else s.storeLost key e true
  | _ => s.sbApply key e

/-- Every entry of a core's buffer leaves (R222: standby, curtain, halt). -/
def State.drainCore (s : State) (key : Nat) : State :=
  let s1 := (s.coreAt key).sb.foldl (fun t e => t.sbLeave key e) s
  s1.setCoreAt key { s1.coreAt key with sb := [] }

/-! ## Done blocks -/

/-- A signal of a done block or a write-back: task flags are set unless the cluster field says none (R277, R320, R375). -/
def State.unitSignal (s : State) (cluster task bits : Nat) : State :=
  if cluster < 12 then s.signal cluster (task % 64) (BitVec.ofNat 32 bits) else s

/-- Whether every byte of a list is 0. -/
def allZero (bs : List Byte) : Bool := bs.all (fun b => b == 0)

/-! ## Units with descriptors -/

/-- The queues and running job of a unit, by page. -/
def State.unit (s : State) (page : Nat) : UnitQ :=
  Sparse.get (fun _ => { fifo := [], fifo2 := [], run := none }) s.units page

/-- A unit's queues replaced. -/
def State.setUnit (s : State) (page : Nat) (u : UnitQ) : State :=
  { s with units := Sparse.set (fun _ => { fifo := [], fifo2 := [], run := none }) s.units page u }

/-- How a kind of unit is submitted to and reports (R134, R139): its descriptor's length, where DONE_ADDR and TAG lie, its done
block's length and where TAG and ERR_ADDR lie in it, the depth of its FIFOs, the offset of JOBS_DONE, its ERR_CODE for a status, the statuses
that raise no JOB_ERROR, and whether it has a FIFO_SPACE event. -/
structure UnitKind where
  descLen : Nat
  doneAt : Nat
  tagAt : Nat
  blockLen : Nat
  blockTag : Nat
  depth : Nat
  errAt : Nat
  jobsDone : Option Nat
  errOf : Nat → Option Nat
  calm : List Nat := [0, 1, 3]
  space : Bool := true

/-- A done block is written, its STATUS last; JOBS_DONE counts, events and the first error of the kinds ERR_CODE names follow
(R132, R134, R138, R139). -/
def State.doneBlock (s : State) (k : UnitKind) (page : Nat) (desc block : List Byte) (info1 info2 : Nat) : State :=
  let status := field block 0 2
  let s1 := s.agentWrite (field desc k.doneAt 8) block
  let s2 := (match k.jobsDone with
    | some off => s1.addReg page off 1
    | none => s1).evt page 0
  let s3 := if k.calm.contains status then s2 else s2.evt page 1
  match k.errOf status with
  | some code => s3.err page code (field desc k.tagAt 4) info1 info2
  | none => s3

/-- A done block whose bytes are STATUS, TAG, ERR_ADDR where the unit reports one, and 0 elsewhere. -/
def bareBlock (k : UnitKind) (status errAddr : Nat) (desc : List Byte) : List Byte :=
  let b := fit k.blockLen (fit k.blockTag (Word.leBytes 2 status) ++ (desc.drop k.tagAt).take 8)
  if k.errAt = 0 then b else b.take k.errAt ++ Word.leBytes 8 errAddr ++ b.drop (k.errAt + 8)

/-- A job that has no more to report than a status and an address. -/
def State.doneBare (s : State) (k : UnitKind) (page status errAddr : Nat) (desc : List Byte) : State :=
  s.doneBlock k page desc (bareBlock k status errAddr desc) 0 (errAddr % 2 ^ 32)

/-- Whether a descriptor cannot be copied: it is not in memory that answers (R134, Assumption 14). -/
def State.submitBad (s : State) (k : UnitKind) (addr : Nat) : Bool := (s.agentFault false addr k.descLen).isSome

/-- A descriptor that cannot be copied names no done block: it is an ACCESS error without one, and so without an event (R133, R138,
Assumption 14). -/
def State.submitRefused (s : State) (k : UnitKind) (page addr : Nat) : State :=
  match k.errOf stAccess with
  | some code => s.err page code 0 0 (addr % 2 ^ 32)
  | none => s

/-- The status with which a submission is answered at once: ACCESS for a misaligned descriptor, SUBMIT_FULL for a full FIFO (R133, R134). -/
def submitStatus (k : UnitKind) (addr waiting : Nat) : Option Nat :=
  if addr % (if k.descLen < 128 then 64 else 128) ≠ 0 then some stAccess else if k.depth ≤ waiting then some stSubmitFull else none

/-- The address that such an answer reports. -/
def submitErr (status addr : Nat) : Nat := if status = stAccess then addr else 0

/-- The descriptor at an address is copied into a FIFO, or answered at once (R134). -/
def State.submitTo (s : State) (k : UnitKind) (page addr : Nat) (second : Bool) (core : Option Nat) : State :=
  if s.submitBad k addr then s.submitRefused k page addr
  else
    let desc := s.agentRead [] addr k.descLen
    let u := s.unit page
    let q := if second then u.fifo2 else u.fifo
    match submitStatus k addr q.length with
    | some st => s.doneBare k page st (submitErr st addr) desc
    | none =>
      let job : UnitJob := { desc := desc, core := core }
      s.setUnit page (if second then { u with fifo2 := u.fifo2 ++ [job] } else { u with fifo := u.fifo ++ [job] })

/-- The next job of a unit leaves a FIFO; a full FIFO that gains space raises FIFO_SPACE (R138). -/
def State.popJob (s : State) (k : UnitKind) (page : Nat) (second : Bool) : Option (UnitJob × State) :=
  let u := s.unit page
  match if second then u.fifo2 else u.fifo with
  | [] => none
  | j :: r =>
    let full := decide (k.depth ≤ r.length + 1)
    let s1 := s.setUnit page (if second then { u with fifo2 := r } else { u with fifo := r })
    some (j, if full && k.space then s1.evt page 2 else s1)

/-- The running job of a unit replaced; STAT.BUSY and UNIT_STATE follow, unless the unit is OFF, FROZEN or in FAULT. -/
def State.setRun (s : State) (page : Nat) (r : Option RunJob) : State :=
  let s1 := s.setUnit page { s.unit page with run := r }
  let s2 := s1.setFld page 0x00C 8 8 (if r.isSome then 1 else 0)
  let u := s.fld page 0x00C 3 0
  if u = 1 ∨ u = 2 then s2.setFld page 0x00C 3 0 (if r.isSome then 2 else 1) else s2

/-- A job that begins. -/
def RunJob.start (j : UnitJob) (second : Bool) : RunJob :=
  { job := j, fin := none, at_ := 0, hits := 0, pages := [], second := second, blockFrom := 0 }

/-- CTL.EN of a unit: 0 makes queued jobs wait. -/
def State.unitEn (s : State) (page : Nat) : Bool := decide (s.fld page 0x008 0 0 = 1)

/-- Every queued job of a list ends with ABORTED. -/
def State.abortJobs (s : State) (k : UnitKind) (page : Nat) (js : List UnitJob) : State :=
  js.foldl (fun t j => t.doneBare k page stAborted 0 j.desc) s

/-- SOFT_RESET empties the FIFOs of a unit; a full one gains space (R138). -/
def State.emptyFifos (s : State) (k : UnitKind) (page : Nat) : State :=
  let u := s.unit page
  let s1 := s.setUnit page { u with fifo := [], fifo2 := [], held := none }
  if k.space && (decide (k.depth ≤ u.fifo.length) || decide (k.depth ≤ u.fifo2.length)) then s1.evt page 2 else s1

end Sys2Proof.Machine
end

