-- ==== Sys2Proof/Machine/Dma.lean ====
section
/-!
DEFINITION. The DMA engines (R366–R379): channels and their rings, the choice of a channel, copy and indexed descriptors, the
write-back, and the ways a channel stops.
-/
namespace Sys2Proof.Machine
open Sys2Proof

/-- The DMA page of an engine. -/
def dmaPage (e : Nat) : Nat := pageOf .dma e

/-- A DMA engine. -/
def State.dma (s : State) (e : Nat) : Dma := Sparse.get (fun _ => { last := 31, kicked := [], run := none }) s.dmas e

/-- A DMA engine replaced. -/
def State.setDma (s : State) (e : Nat) (d : Dma) : State :=
  { s with dmas := Sparse.set (fun _ => { last := 31, kicked := [], run := none }) s.dmas e d }

/-- The offset of CHn_CTL. -/
def chCtl (n : Nat) : Nat := 0x100 + 16 * n

/-- CHn_STAT.STATE: 0 OFF, 1 IDLE, 2 READY, 3 RUN, 4 STOPPED (R367). -/
def State.chState (s : State) (e n : Nat) : Nat := s.fld (dmaPage e) (chCtl n + 12) 2 0

/-- A channel's state written; STAT.BUSY, CUR_CH and READY follow (the DMA page). -/
def State.setChState (s : State) (e n x : Nat) : State :=
  let pg := dmaPage e
  let s1 := s.setFld pg (chCtl n + 12) 2 0 x
  s1.setFld pg 0x054 n n (if x = 2 then 1 else 0)

/-- CHn_STAT.HEAD. -/
def State.chHead (s : State) (e n : Nat) : Nat := s.fld (dmaPage e) (chCtl n + 12) 31 16

/-- CHn_CTL.EN. -/
def State.chEn (s : State) (e n : Nat) : Bool := decide (s.fld (dmaPage e) (chCtl n) 0 0 = 1)

/-- The address of the descriptor at HEAD (R366). -/
def State.chDesc (s : State) (e n : Nat) : Nat := s.pageAddr (dmaPage e) (chCtl n + 4) (chCtl n + 8) + 64 * s.chHead e n

/-- The running descriptor of an engine replaced, with STAT.BUSY, CUR_CH and UNIT_STATE (the DMA page). -/
def State.setDmaRun (s : State) (e : Nat) (r : Option DmaRun) : State :=
  let pg := dmaPage e
  let s1 := s.setDma e { s.dma e with run := r }
  match r with
  | some x => ((s1.setFld pg 0x00C 20 16 x.chan).setFld pg 0x00C 8 8 1).setFld pg 0x00C 3 0 2
  | none => (s1.setFld pg 0x00C 8 8 0).setFld pg 0x00C 3 0 1

/-- A KICK makes an IDLE or STOPPED channel READY and is remembered in any other state (R367). -/
def State.dmaKick (s : State) (e n : Nat) : State :=
  let st := s.chState e n
  if st = 1 ∨ st = 4 then s.setChState e n 2
  else
    let d := s.dma e
    if d.kicked.contains n then s else s.setDma e { d with kicked := d.kicked ++ [n] }

/-- Undefined bytes are left where a descriptor was interrupted (R377, Assumption 3). -/
def State.dmaUndefine (s : State) (a n : Nat) : State :=
  let (bs, s1) := s.freeBytes n
  s1.agentWrite a bs

/-- The bytes of the destination a descriptor names. -/
def dmaDstLen (desc : List Byte) : Nat :=
  if Word.bit 28 (field desc 0 4) then field desc 4 4 * field desc 36 2 else field desc 4 4

/-- A channel stops at once (R377): a running descriptor loses its data in flight, its destination and counts are undefined, and
no write-back takes place. HEAD stays. -/
def State.dmaStop (s : State) (e n : Nat) : State :=
  let s1 := match (s.dma e).run with
    | some r =>
      if r.chan = n then
        let s2 := s.setDmaRun e none
        let s3 := if (s2.agentFault true (field r.desc 16 8) (dmaDstLen r.desc)).isNone then
          s2.dmaUndefine (field r.desc 16 8) (dmaDstLen r.desc) else s2
        s3.dmaUndefine (s3.chDesc e n + 52) 12
      else s
    | none => s
  let d := s1.dma e
  ((s1.setDma e { d with kicked := d.kicked.filter (fun k => k ≠ n) }).setFld (dmaPage e) (chCtl n) 0 0 0).setChState e n 0

/-- A write of CHn_CTL (R367, R377, R379): RING_LOG2 is refused while EN is 1 and where it changes, and out of range; PRIO and
EN are stored, KICK acts last. -/
def State.dmaCtlWrite (s : State) (e n : Nat) (v : Word32) : State :=
  let pg := dmaPage e
  let off := chCtl n
  let k := Word.bits 12 8 v.toNat
  let s1 :=
    if k = s.fld pg off 12 8 then s
    else if s.chEn e n then s.err pg 0x0101 off 0 0
    else if k < 4 ∨ 16 < k then s.err pg 0x0100 off 0 0
    else s.setFld pg off 12 8 k
  let s2 := s1.setFld pg off 17 16 (Word.bits 17 16 v.toNat)
  let s3 :=
    if Word.bit 0 v.toNat then
      if s2.chEn e n then s2 else (s2.setFld pg off 0 0 1).setChState e n 2
    else if s2.chEn e n then s2.dmaStop e n else s2
  if Word.bit 31 v.toNat then s3.dmaKick e n else s3

/-- A write of CHn_BASE_LO sets HEAD to 0 (R366, R379). -/
def State.dmaBaseLo (s : State) (e n : Nat) (v : Word32) : State :=
  let pg := dmaPage e
  if s.chEn e n then s.err pg 0x0101 (chCtl n + 4) 0 0
  else (s.setReg pg (chCtl n + 4) (v &&& 0xFFFFFFC0#32)).setFld pg (chCtl n + 12) 31 16 0

/-- A write of CHn_BASE_HI (R379). -/
def State.dmaBaseHi (s : State) (e n : Nat) (v : Word32) : State :=
  let pg := dmaPage e
  if s.chEn e n then s.err pg 0x0101 (chCtl n + 8) 0 0 else s.setReg pg (chCtl n + 8) (v &&& 0xFFFF#32)

/-- The channel a free engine serves next: the best PRIO, and within it round robin from the channel after the last (R368). -/
def State.dmaNext (s : State) (e : Nat) : Option Nat :=
  let last := (s.dma e).last
  let order := (List.range 32).map (fun i => (last + 1 + i) % 32)
  let prio := fun n => s.fld (dmaPage e) (chCtl n) 17 16
  (order.filter (fun n => s.chState e n == 2)).foldl (fun best n => match best with
    | none => some n
    | some b => if prio n < prio b then some n else some b) none

/-- Whether a descriptor is refused with DESC_BAD (R370, R371). -/
def dmaDescBad (desc : List Byte) : Bool :=
  let ctl := field desc 0 4
  let len := field desc 4 4
  let src := field desc 8 8
  let dst := field desc 16 8
  let idx := field desc 24 8
  let idxLen := field desc 32 4
  let elem := field desc 36 2
  let indexed := Word.bit 28 ctl
  let width := if Word.bit 27 ctl then 8 else 4
  let signal := Word.bit 29 ctl
  decide (Word.bits 26 0 ctl ≠ 0) || decide (field desc 44 4 ≠ 0) || decide (len = 0) ||
  (signal && (decide (11 < field desc 38 1) || decide (63 < field desc 39 1))) ||
  (if indexed then
    decide (elem = 0) || decide (4096 < elem) || decide (idx % width ≠ 0) || decide (2 ^ 48 < idx + idxLen) ||
      decide (2 ^ 48 < dst + len * elem) || decide (2 ^ 48 ≤ src) || rangesMeet dst (len * elem) idx idxLen
  else
    Word.bit 27 ctl || decide (idx ≠ 0) || decide (idxLen ≠ 0) || decide (elem ≠ 0) || decide (2 ^ 48 < src + len) ||
      decide (2 ^ 48 < dst + len) || rangesMeet src len dst len)

/-- How the moving of a descriptor ended: STATUS, ELEMS_DONE, BYTES_DONE. -/
abbrev DmaEnd := Nat × Nat × Nat

/-- A run of bytes is moved up to the first unit of source or destination that cannot be accessed, or the byte at which a remote
window was lost; the state and the bytes moved, with the status if it stopped (R372, R374). -/
def State.dmaMove (s : State) (wing : List Byte) (lost : Option Nat) (src dst len : Nat) : State × Nat × Option Nat :=
  let srcStop := (s.agentFault true src len).map (fun f => (f.1 - src, f.2))
  let dstStop := (s.agentFault true dst len).map (fun f => (f.1 - dst, f.2))
  let remote := decide (s.classOf src = .remote) || decide (s.classOf dst = .remote)
  let lostStop := if remote then (lost.filter (fun n => decide (n < len))).map (fun n => (n, stRemoteLost)) else none
  let stop := [srcStop, dstStop, lostStop].foldl (fun (b : Option (Nat × Nat)) x => match b, x with
    | none, y => y
    | some p, some q => if q.1 < p.1 then some q else some p
    | some p, none => some p) none
  match stop with
  | none => (s.agentWrite dst (s.agentRead wing src len), len, none)
  | some (n, st) => (s.agentWrite dst (s.agentRead wing src n), n, some st)

/-- The offsets of an index table (R373). -/
def State.dmaOffset (s : State) (wing : List Byte) (desc : List Byte) (i : Nat) : Nat :=
  let w := if Word.bit 27 (field desc 0 4) then 8 else 4
  let a := field desc 24 8 + w * i
  Word.leValue (s.agentRead (wing.drop (w * i)) a w)

/-- The elements of an indexed descriptor from element `i` on, in ascending order: the state, the elements and the bytes moved,
and the status if it stopped. An element with an address that cannot be accessed is not read (R373, R374). -/
def State.dmaElems (s : State) (r : DmaRemote) (desc : List Byte) : Nat → Nat → State × Nat × Nat × Option Nat
  | i, 0 => (s, i, i * field desc 36 2, none)
  | i, n + 1 =>
    let w := if Word.bit 27 (field desc 0 4) then 8 else 4
    let elem := field desc 36 2
    match s.agentFault true (field desc 24 8 + w * i) w with
    | some f => (s, i, i * elem, some f.2)
    | none =>
      let src := (field desc 8 8 + s.dmaOffset r.index desc i) % 2 ^ 48
      let dst := field desc 16 8 + i * elem
      match s.agentFault true src elem, s.agentFault true dst elem with
      | some f, _ => (s, i, i * elem, some f.2)
      | _, some f => (s, i, i * elem, some f.2)
      | none, none =>
        let lost := r.lost.map (fun b => b - i * elem)
        let (s1, got, st) := s.dmaMove (r.elems.getD i []) lost src dst elem
        match st with
        | some c => (s1, i, i * elem + got, some c)
        | none => s1.dmaElems r desc (i + 1) n

/-- A descriptor is run: nothing moves for DESC_BAD; a frozen controller leaves undefined counts (R371–R374). -/
def State.dmaRunDesc (s : State) (r : DmaRemote) (desc : List Byte) : State × DmaEnd :=
  if dmaDescBad desc then (s, (stDescBad, 0, 0))
  else if Word.bit 28 (field desc 0 4) then
    let w := if Word.bit 27 (field desc 0 4) then 8 else 4
    let avail := field desc 32 4 / w
    let count := field desc 4 4
    let (s1, done, bytes, st) := s.dmaElems r desc 0 (min avail count)
    match st with
    | some c =>
      if c = stFrozen then
        let (v, s2) := s1.freeW
        let (u, s3) := s2.freeW
        (s3, (c, v.toNat % 2 ^ 32, u.toNat))
      else (s1, (c, done, bytes))
    | none => (s1, (if avail < count then 0x001A else stOk, done, bytes))
  else
    let (s1, got, st) := s.dmaMove r.data r.lost (field desc 8 8) (field desc 16 8) (field desc 4 4)
    match st with
    | some c =>
      if c = stFrozen then
        let (v, s2) := s1.freeW
        let (u, s3) := s2.freeW
        (s3, (c, v.toNat % 2 ^ 32, u.toNat))
      else (s1, (c, 0, got))
    | none => (s1, (stOk, 0, got))

/-- A free engine takes the next READY channel: OWN = 0 leaves it IDLE, or has HEAD read again if a KICK came (R367); a descriptor
of the asked kind is copied and run (R368, R370). A ring that lies on a page or a hole cannot be read; it reads as OWN = 0. -/
def State.dmaServe (s : State) (e : Nat) (indexed : Bool) (r : DmaRemote) : State :=
  if (s.dma e).run.isSome then s
  else match s.dmaNext e with
    | none => s
    | some n =>
      let desc := s.agentRead [] (s.chDesc e n) 64
      let own := Word.bit 31 (field desc 0 4) && (s.agentFault true (s.chDesc e n) 64).isNone
      if !own then
        let d := s.dma e
        if d.kicked.contains n then s.setDma e { d with kicked := d.kicked.filter (fun k => k ≠ n), last := n }
        else (s.setDma e { d with last := n }).setChState e n 1
      else if Word.bit 28 (field desc 0 4) != indexed then s
      else
        let d := s.dma e
        let s1 := (s.setDma e { d with last := n }).setChState e n 3
        let (s2, fin) := s1.dmaRunDesc r desc
        s2.setDmaRun e (some { chan := n, desc := desc, fin := some fin })

/-- The write-back (R375, R376): bytes 48–63, then CONTROL with OWN = 0, the signal, DESC_DONE, HEAD, the counters, and the
channel READY again or STOPPED with the first error recorded. -/
def State.dmaWriteBack (s : State) (e : Nat) : State :=
  match (s.dma e).run with
  | none => s
  | some r =>
    match r.fin with
    | none => s
    | some (st, elems, bytes) =>
      let pg := dmaPage e
      let n := r.chan
      let a := s.chDesc e n
      let head := s.chHead e n
      let ctl := field r.desc 0 4
      let s1 := s.agentWrite (a + 48) (Word.leBytes 2 st ++ [0, 0] ++ Word.leBytes 4 elems ++ Word.leBytes 8 bytes)
      let s2 := s1.agentWrite a (Word.leBytes 4 (Word.putBits 31 31 0 ctl))
      let s3 := if Word.bit 29 ctl && decide (st ≠ stDescBad) then
        s2.unitSignal (field r.desc 38 1) (field r.desc 39 1) (field r.desc 40 4) else s2
      let s4 := if Word.bit 30 ctl then s3.evt pg 0 else s3
      let s5 := (((s4.setDmaRun e none).addReg pg 0x040 1).addWide pg 0x044 bytes).addReg pg 0x04C elems
      let s6 := if st = stOk then s5 else (s5.addReg pg 0x050 1).evt pg 1
      let s7 := s6.setFld pg (chCtl n + 12) 31 16 ((head + 1) % 2 ^ s6.fld pg (chCtl n) 12 8)
      if st = stOk ∨ st = 0x001A then s7.setChState e n 2
      else
        let d := s7.dma e
        let s8 := s7.err pg 0x0102 n head st
        if d.kicked.contains n then (s8.setDma e { d with kicked := d.kicked.filter (fun k => k ≠ n) }).setChState e n 2
        else s8.setChState e n 4

/-- SOFT_RESET stops every channel and clears the counters (R377). -/
def State.dmaSoftReset (s : State) (e : Nat) : State :=
  let pg := dmaPage e
  (((List.range 32).foldl (fun t n => t.dmaStop e n) s).zeroRegs pg [0x040, 0x048, 0x04C, 0x050]).setWide pg 0x044 0

/-- At a curtain or a halt every channel but those of stage manager firmware stops (R369, R378). -/
def State.dmaHouseStop (s : State) : State :=
  (List.range 8).foldl (fun t e =>
    (List.range 32).foldl (fun u n => if (e < 2 ∧ n < 8) ∨ u.chEn e n = false then u else u.dmaStop e n) t) s

/-! ## The commands -/

/-- DMA_KICK (R367). -/
def execDmaKick (e : Fin 8) (n : Fin 32) (s : State) : Host.Outcome State Fault Refusal := .next (s.dmaKick e.val n.val)

/-- DMA_CH_ENABLE (R367, R379): a write of CHn_CTL with EN = 1. -/
def execDmaChEnable (e : Fin 8) (n : Fin 32) (ctl : BitVec 32) (s : State) : Host.Outcome State Fault Refusal :=
  .next (s.dmaCtlWrite e.val n.val (ctl ||| 1#32))

/-- DMA_CH_DISABLE (R377): a write of CHn_CTL with EN = 0. -/
def execDmaChDisable (e : Fin 8) (n : Fin 32) (ctl : BitVec 32) (s : State) : Host.Outcome State Fault Refusal :=
  .next (s.dmaCtlWrite e.val n.val (ctl &&& 0xFFFFFFFE#32))

/-- DMA_BASE_WRITE (R366, R379). -/
def execDmaBaseWrite (e : Fin 8) (n : Fin 32) (v : BitVec 32) (s : State) : Host.Outcome State Fault Refusal :=
  .next (s.dmaBaseLo e.val n.val v)

/-- DMA_COPY (R372). -/
def execDmaCopy (e : Fin 8) (r : DmaRemote) (s : State) : Host.Outcome State Fault Refusal := .next (s.dmaServe e.val false r)

/-- DMA_INDEXED_COPY (R373). -/
def execDmaIndexedCopy (e : Fin 8) (r : DmaRemote) (s : State) : Host.Outcome State Fault Refusal :=
  .next (s.dmaServe e.val true r)

/-- DMA_WRITE_BACK (R375). -/
def execDmaWriteBack (e : Fin 8) (s : State) : Host.Outcome State Fault Refusal := .next (s.dmaWriteBack e.val)

/-- DMA_SOFT_RESET (R377). -/
def execDmaSoftReset (e : Fin 8) (s : State) : Host.Outcome State Fault Refusal := .next (s.dmaSoftReset e.val)

end Sys2Proof.Machine
end

