-- ==== Sys2Proof/Machine/Cmp.lean ====
section
/-!
DEFINITION. The compression engines (R380–R391): jobs from two FIFOs, compression into blocks with flushes, decompression with its
checks in order, and done blocks.
-/
namespace Sys2Proof.Machine
open Sys2Proof

/-- The CMP page of an engine. -/
def cmpPage (k : Nat) : Nat := pageOf .cmp k

/-- The compression engines as units with descriptors (R386, R387, R391). -/
def cmpKind : UnitKind :=
  { descLen := 64, doneAt := 32, tagAt := 40, blockLen := 64, blockTag := 8, errAt := 40, depth := 16, jobsDone := some 0x050,
    errOf := fun st => if st = stDescBad then some 0x0101 else if st = stAccess then some 0x0102
      else if st = stSubmitFull then some 0x0103 else if st = 0x001C then some 0x0104
      else if st = 0x001D then some 0x0105 else none }

/-- Whether a compression descriptor is refused with DESC_BAD (R386). -/
def cmpDescBad (d : List Byte) : Bool :=
  let op := field d 0 1
  let kind := field d 1 1
  let level := field d 2 1
  let bmax := field d 4 4
  let cl := field d 52 1
  decide (1 < op) || decide (1 < field d 3 1) || !allZero (d.drop 54) ||
  !(decide (cl < 12) || cl == 0xFF) || (cl != 0xFF && decide (63 < field d 53 1)) ||
  (if op = 0 then
    !(kind == 1 || kind == 2) || (if kind = 2 then decide (level ≠ 0) else decide (2 < level)) ||
      decide (bmax < 4096) || decide (1048576 < bmax) || decide (bmax % 8 ≠ 0) || (kind == 2 && decide (field d 16 4 % 8 ≠ 0))
  else decide (2 < kind) || decide (level ≠ 0))

/-- The done block of a job with the blocks and bytes it completed (R387). -/
def cmpBlockOf (r : RunJob) (status chk expected found errAddr off : Nat) : List Byte :=
  Word.leBytes 2 status ++ Word.leBytes 1 chk ++ [0] ++ Word.leBytes 4 r.at_ ++ (r.job.desc.drop 40).take 8 ++
    Word.leBytes 8 r.blockFrom ++ Word.leBytes 8 r.hits ++ Word.leBytes 4 expected ++ Word.leBytes 4 found ++
    Word.leBytes 8 errAddr ++ Word.leBytes 8 off ++ List.replicate 8 0

/-- A job that is settled. -/
def cmpEnd (r : RunJob) (status chk expected found errAddr : Nat) : RunJob :=
  let off := if status = stOk then 0 else r.blockFrom
  { r with fin := some { status := status, block := cmpBlockOf r status chk expected found errAddr off,
                         info1 := off % 2 ^ 32, info2 := errAddr % 2 ^ 32 } }

/-- The engine writes one block of the input it holds, or ends with OUT_FULL or at an address it cannot write (R381, R388). -/
def State.cmpWriteBlock (s : State) (r : RunJob) (input : List Byte) (flags : Nat) : State × RunJob :=
  let d := r.job.desc
  let b := cmpBlock (field d 1 1) (field d 2 1) flags input
  if field d 20 4 < r.hits + b.length then (s, cmpEnd r stOutFull 0 0 0 0)
  else
    let a := field d 24 8 + r.hits
    match s.agentFault true a b.length with
    | some f => (s, cmpEnd r f.2 0 0 0 f.1)
    | none =>
      (s.agentWrite a b, { r with at_ := r.at_ + 1, hits := r.hits + b.length, blockFrom := r.blockFrom + input.length })

/-- A COMPRESS job goes on to the input it has taken: every block that is complete is written, the last one with FINAL where
the descriptor asks for it (R386, R388). -/
def State.cmpAdvance (s : State) (wing : List Byte) (lost : Option Nat) (taken : Nat) : Nat → RunJob → State × RunJob
  | 0, r => (s, r)
  | n + 1, r =>
    let d := r.job.desc
    let len := field d 16 4
    let size := min (field d 4 4) (len - r.blockFrom)
    if r.fin.isSome then (s, r)
    else if len ≤ r.blockFrom then (s, cmpEnd r stOk 0 0 0 0)
    else if taken < r.blockFrom + size then (s, r)
    else
      let a := field d 8 8 + r.blockFrom
      match s.agentFault true a size with
      | some f => (s, cmpEnd r f.2 0 0 0 f.1)
      | none =>
        if decide (s.classOf a = .remote) && (match lost with
            | some x => decide (x < r.blockFrom + size)
            | none => false) then (s, cmpEnd r stRemoteLost 0 0 0 a)
        else
          let last := decide (len ≤ r.blockFrom + size)
          let flags := if last && Word.bit 0 (field d 3 1) then 1 else 0
          let (s1, r1) := s.cmpWriteBlock r (s.agentRead (wing.drop r.blockFrom) a size) flags
          s1.cmpAdvance wing lost taken n r1

/-- The header of a block is bad (R381, R387). -/
def cmpHeaderBad (kind : Nat) (bs : List Byte) : Bool :=
  let k := field bs 0 2
  !(k == 1 || k == 2) || (kind != 0 && k != kind) || decide (3 < field bs 2 2) || decide (field bs 4 4 = 0) ||
    decide (field bs 12 4 ≠ 0) || (k == 2 && decide (field bs 4 4 % 8 ≠ 0))

/-- A block fails: what it may have written is undefined and not counted (R387, Assumption 3). -/
def State.cmpFail (s : State) (r : RunJob) (orig status chk expected found : Nat) : State × RunJob :=
  let d := r.job.desc
  let n := min orig (field d 20 4 - r.hits)
  let a := field d 24 8 + r.hits
  let s1 := if (s.agentFault true a n).isNone then
      let (bs, t) := s.freeBytes n
      t.agentWrite a bs
    else s
  (s1, cmpEnd r status chk expected found 0)

/-- A DECOMPRESS job decodes block after block (R387, R388). -/
def State.cmpDecode (s : State) (input : List Byte) : Nat → Bool → RunJob → State × RunJob
  | 0, _, r => (s, r)
  | n + 1, final, r =>
    let d := r.job.desc
    let kind := field d 1 1
    let rest := input.drop r.blockFrom
    if rest.isEmpty then (s, cmpEnd r stOk 0 0 0 0)
    else if final then (s, cmpEnd r stLenLong 0 0 0 0)
    else
      let orig := field rest 4 4
      let full := decide (field d 20 4 < r.hits + orig)
      match decodeBlock kind rest with
      | .short => (s, cmpEnd r stLenShort 0 0 0 0)
      | .bad =>
        if !cmpHeaderBad kind rest && full then (s, cmpEnd r stOutFull 0 0 0 0) else s.cmpFail r orig 0x001D 0 0 0
      | .check k e f =>
        if k ≠ 3 ∧ full = true then (s, cmpEnd r stOutFull 0 0 0 0) else s.cmpFail r orig 0x001C k e f
      | .ok out used fin =>
        if full then (s, cmpEnd r stOutFull 0 0 0 0)
        else
          let a := field d 24 8 + r.hits
          match s.agentFault true a out.length with
          | some x => (s, cmpEnd r x.2 0 0 0 x.1)
          | none =>
            (s.agentWrite a out).cmpDecode input n fin
              { r with at_ := r.at_ + 1, hits := r.hits + out.length, blockFrom := r.blockFrom + used }

/-- The next job of an engine starts, SUBMIT_SM ahead of SUBMIT, if it asks for the operation (R380). A bad descriptor is
settled at once by either operation, and a misaligned DONE_ADDR with ACCESS (R133, R376). -/
def State.cmpStart (s : State) (k op : Nat) : State :=
  let pg := cmpPage k
  let u := s.unit pg
  if u.run.isSome || !s.unitEn pg then s
  else
    let second := !u.fifo2.isEmpty
    match if second then u.fifo2.head? else u.fifo.head? with
    | none => s
    | some j0 =>
      let bad := cmpDescBad j0.desc
      if !bad && field j0.desc 0 1 != op then s
      else match s.popJob cmpKind pg second with
        | none => s
        | some (j, s1) =>
          let r := RunJob.start j second
          let r1 := if bad then cmpEnd r stDescBad 0 0 0 0
            else if field j.desc 32 8 % 64 ≠ 0 then cmpEnd r stAccess 0 0 0 (field j.desc 32 8) else r
          (s1.setRun pg (some r1)).setFld pg 0x00C 9 9 (if second then 1 else 0)

/-- COMPRESS: the engine has taken `taken` input bytes of its job (R382, R386). -/
def State.cmpCompress (s : State) (k taken : Nat) (rem : DmaRemote) : State :=
  let pg := cmpPage k
  let s0 := s.cmpStart k 0
  match (s0.unit pg).run with
  | none => s0
  | some r =>
    if field r.job.desc 0 1 ≠ 0 ∨ r.fin.isSome = true then s0
    else
      let len := field r.job.desc 16 4
      let t := max (r.pages.headD 0) (min taken len)
      let (s1, r1) := s0.cmpAdvance rem.data rem.lost t (len / 4096 + 2) r
      s1.setRun pg (some { r1 with pages := [t] })

/-- DECOMPRESS (R387). -/
def State.cmpDecompress (s : State) (k : Nat) (rem : DmaRemote) : State :=
  let pg := cmpPage k
  let s0 := s.cmpStart k 1
  match (s0.unit pg).run with
  | none => s0
  | some r =>
    if field r.job.desc 0 1 ≠ 1 ∨ r.fin.isSome = true then s0
    else
      let a := field r.job.desc 8 8
      let len := field r.job.desc 16 4
      match s0.agentFault true a len, decide (s0.classOf a = .remote) && rem.lost.isSome with
      | some f, _ => s0.setRun pg (some (cmpEnd r f.2 0 0 0 f.1))
      | none, true => s0.setRun pg (some (cmpEnd r stRemoteLost 0 0 0 a))
      | none, false =>
        let (s1, r1) := s0.cmpDecode (s0.agentRead rem.data a len) (len / 24 + 2) false r
        s1.setRun pg (some r1)

/-- FLUSH closes the current block after the input taken (R389); `wing` is what a wing window has answered for the input. -/
def State.cmpFlush (s : State) (k : Nat) (wing : List Byte) : State :=
  let pg := cmpPage k
  match (s.unit pg).run with
  | none => s
  | some r =>
    let d := r.job.desc
    let t := r.pages.headD 0
    let to_ := if field d 1 1 = 2 then r.blockFrom + (t - r.blockFrom) / 8 * 8 else t
    if r.fin.isSome ∨ field d 0 1 ≠ 0 ∨ to_ ≤ r.blockFrom then s
    else
      let (s1, r1) := s.cmpWriteBlock r (s.agentRead (wing.drop r.blockFrom) (field d 8 8 + r.blockFrom) (to_ - r.blockFrom)) 2
      (s1.setRun pg (some r1)).addReg pg 0x068 1

/-- A settled job writes its done block and sets its task flags (R386, R387); the byte counters follow. -/
def State.cmpFinish (s : State) (pg : Nat) (r : RunJob) (e : JobEnd) : State :=
  let d := r.job.desc
  let s1 := ((s.setRun pg none).setFld pg 0x00C 9 9 0).doneBlock cmpKind pg d e.block e.info1 e.info2
  let s2 := (s1.unitSignal (field d 52 1) (field d 53 1) (field d 48 4)).addWide pg 0x054 r.blockFrom
  let s3 := s2.addWide pg 0x05C r.hits
  if e.status = 0x001C ∨ e.status = 0x001D then s3.addReg pg 0x064 1 else s3

/-- The running job's done block, once it is settled. -/
def State.cmpDone (s : State) (k : Nat) : State :=
  let pg := cmpPage k
  match (s.unit pg).run with
  | some r => match r.fin with
    | some e => s.cmpFinish pg r e
    | none => s
  | none => s

/-- The running job ends with ABORTED. -/
def State.cmpAbort (s : State) (k : Nat) : State :=
  let pg := cmpPage k
  match (s.unit pg).run with
  | some r => s.cmpFinish pg r { status := stAborted, block := cmpBlockOf r stAborted 0 0 0 0 0, info1 := 0, info2 := 0 }
  | none => s

/-- The queued jobs of a FIFO end with ABORTED. -/
def State.cmpAbortQueue (s : State) (k : Nat) (js : List UnitJob) : State :=
  js.foldl (fun t j => (t.doneBare cmpKind (cmpPage k) stAborted 0 j.desc).unitSignal (field j.desc 52 1) (field j.desc 53 1)
    (field j.desc 48 4)) s

/-- SOFT_RESET ends the jobs of both FIFOs and clears the counters (the CMP page). -/
def State.cmpSoftReset (s : State) (k : Nat) : State :=
  let pg := cmpPage k
  let s1 := s.cmpAbort k
  let u := s1.unit pg
  let s2 := (s1.emptyFifos cmpKind pg).cmpAbortQueue k (u.fifo2 ++ u.fifo)
  ((s2.zeroRegs pg [0x050, 0x058, 0x060, 0x064, 0x068]).setWide pg 0x054 0).setWide pg 0x05C 0

/-- At a curtain or a halt SUBMIT jobs end with ABORTED and SUBMIT_SM jobs continue (R380). -/
def State.cmpHouseStop (s : State) : State :=
  (List.range 4).foldl (fun t k =>
    let pg := cmpPage k
    let t1 := match (t.unit pg).run with
      | some r => if r.second then t else t.cmpAbort k
      | none => t
    let u := t1.unit pg
    (t1.setUnit pg { u with fifo := [] }).cmpAbortQueue k u.fifo) s

/-- A submission to SUBMIT or SUBMIT_SM (R134, R380). A done block written at once sets its task flags. -/
def State.cmpSubmit (s : State) (k addr : Nat) (second : Bool) (core : Option Nat) : State :=
  let pg := cmpPage k
  let u := s.unit pg
  let answered := (submitStatus cmpKind addr (if second then u.fifo2 else u.fifo).length).isSome
  let s1 := s.submitTo cmpKind pg addr second core
  let d := s.agentRead [] addr 64
  if answered && !s.submitBad cmpKind addr then s1.unitSignal (field d 52 1) (field d 53 1) (field d 48 4) else s1

/-! ## The commands -/

/-- CMP_COMPRESS (R382–R386). -/
def execCmpCompress (k : Fin 4) (taken : Nat) (rem : DmaRemote) (s : State) : Host.Outcome State Fault Refusal :=
  .next (s.cmpCompress k.val taken rem)

/-- CMP_DECOMPRESS (R387). -/
def execCmpDecompress (k : Fin 4) (rem : DmaRemote) (s : State) : Host.Outcome State Fault Refusal :=
  .next (s.cmpDecompress k.val rem)

/-- CMP_JOB_DONE (R387). -/
def execCmpJobDone (k : Fin 4) (s : State) : Host.Outcome State Fault Refusal := .next (s.cmpDone k.val)

/-- CMP_FLUSH (R389). -/
def execCmpFlush (k : Fin 4) (wing : List Byte) (s : State) : Host.Outcome State Fault Refusal :=
  .next (s.cmpFlush k.val wing)

/-- CMP_ABORT (the CMP page). -/
def execCmpAbort (k : Fin 4) (s : State) : Host.Outcome State Fault Refusal := .next (s.cmpAbort k.val)

/-- CMP_SOFT_RESET (the CMP page). -/
def execCmpSoftReset (k : Fin 4) (s : State) : Host.Outcome State Fault Refusal := .next (s.cmpSoftReset k.val)

end Sys2Proof.Machine
end

