-- ==== Sys2Proof/Machine/KeyBase.lean ====
section
/-!
DEFINITION. The key store (R332): its slots by kind and usage, as the digest units, the Larkspur units and the image checks see it.
-/
namespace Sys2Proof.Machine
open Sys2Proof

/-- The KEYS page. -/
def keysPage : Nat := pageOf .keys 0

/-- The key in a slot, if the slot is valid (R332). -/
def State.keySlot (s : State) (n : Nat) : Option KeySlot := Sparse.get (fun _ => none) s.keys.slots n

/-- A slot replaced. -/
def State.setKeySlot (s : State) (n : Nat) (k : Option KeySlot) : State :=
  { s with keys := { s.keys with slots := Sparse.set (fun _ => none) s.keys.slots n k } }

/-- Usage bits of a wrapped key (R334). -/
def usageSign : Nat := 0
/-- VERIFY. -/
def usageVerify : Nat := 1
/-- HMAC. -/
def usageHmac : Nat := 2
/-- KMAC. -/
def usageKmac : Nat := 3

/-- The symmetric key of a slot for a usage (R332). -/
def State.symKey (s : State) (slot usage : Nat) : Option (List Byte) :=
  if 0x100 ≤ slot ∧ slot < 0x200 then
    match s.keySlot slot with
    | some k => if k.kind = 3 ∧ Word.bit usage k.usage = true then some k.key else none
    | none => none
  else none

/-- The public key that a VERIFY request may use: a public key slot, or the public half of a customer pair (R332). -/
def State.verifyKey (s : State) (slot : Nat) : Option (List Byte) :=
  match s.keySlot slot with
  | some k =>
    if 0x200 ≤ slot ∧ slot < 0x600 then
      if k.kind = 2 ∧ Word.bit usageVerify k.usage = true then some k.key else none
    else if 0x001 ≤ slot ∧ slot ≤ 0x040 then
      if k.kind = 1 ∧ Word.bit usageVerify k.usage = true then some (k.key.drop 2305) else none
    else none
  | none => none

/-- The public half of the customer key pair that a SIGN request may use (R332). -/
def State.signKey (s : State) (slot : Nat) : Option (List Byte) :=
  if 0x001 ≤ slot ∧ slot ≤ 0x040 then
    match s.keySlot slot with
    | some k => if k.kind = 1 ∧ Word.bit usageSign k.usage = true then some (k.key.drop 2305) else none
    | none => none
  else none

/-- The public key of the image authority in a slot (R170, R332). -/
def State.authority (s : State) (slot : Nat) : Option (List Byte) :=
  if 0x600 ≤ slot ∧ slot < 0x610 then
    match s.keySlot slot with
    | some k => if k.kind = 4 then some k.key else none
    | none => none
  else none

/-- The image authority whose KEY_HASH an image names (R170). -/
def State.authorityOf (s : State) (hash : List Byte) : Option (List Byte) :=
  (List.range 16).findSome? (fun i => (s.authority (0x600 + i)).filter (fun k => keyHash k == hash))

end Sys2Proof.Machine
end

