-- ==== Sys2Proof/Machine/Digest.lean ====
section
/-!
DEFINITION. The digest units (R318–R326): functions and contexts, save areas, slots with preemption and resumption, the four
operations and their done blocks.
-/
namespace Sys2Proof.Machine
open Sys2Proof

/-- The DIG page of a unit: units 2c and 2c + 1 of cluster c. -/
def digPage (u : Nat) : Nat := pageOf .dig u

/-- A digest unit, by its page. -/
def State.dig (s : State) (page : Nat) : DigUnit :=
  Sparse.get (fun _ => { last := 3, slots := [], susp := [], fifo := [], results := [], areas := [] }) s.digs page

/-- A digest unit replaced. -/
def State.setDig (s : State) (page : Nat) (d : DigUnit) : State :=
  { s with digs := Sparse.set (fun _ => { last := 3, slots := [], susp := [], fifo := [], results := [], areas := [] }) s.digs page d }

/-- The digest units as units with descriptors (R320, R325, R326). -/
def digKind : UnitKind :=
  { descLen := 64, doneAt := 40, tagAt := 48, blockLen := 32, blockTag := 8, errAt := 16, depth := 32, jobsDone := some 0x058,
    errOf := fun st => if st = stDescBad then some 0x0101 else if st = stAccess then some 0x0102
      else if st = stSubmitFull then some 0x0103 else if st = 0x0019 then some 0x0104 else none }

/-- The block length r of a function (R318). -/
def digRate (f : Nat) : Nat :=
  if f = 2 then 72 else if f = 3 ∨ f = 9 then 168 else if f = 5 ∨ f = 7 then 64 else if f = 6 ∨ f = 8 then 128 else 136

/-- The output length a function fixes, if it does (R318). -/
def digFixed (f : Nat) : Option Nat :=
  if f = 1 ∨ f = 5 ∨ f = 7 then some 32 else if f = 2 ∨ f = 6 ∨ f = 8 then some 64 else none

/-- SHA-256 or SHA-512 beneath a function, or neither (R318). -/
def digSha2 (f : Nat) : Option Sha2 := if f = 5 ∨ f = 7 then some sha256P else if f = 6 ∨ f = 8 then some sha512P else none

/-- HMAC and KMAC take a key (R318). -/
def digKeyed (f : Nat) : Bool := decide (7 ≤ f) && decide (f ≤ 10)

/-- A running context: the function's state words and the message bytes absorbed (R321). -/
structure DigCtx where
  st : List Nat
  absorbed : Nat
  deriving DecidableEq, Repr

/-- The context a message begins with (R318). -/
def digInit (f : Nat) (key cust : List Byte) : DigCtx :=
  { absorbed := 0,
    st := match digSha2 f with
      | some p => if f = 7 ∨ f = 8 then hmacInit p key else sha2Init p
      | none => if f = 9 ∨ f = 10 then kmacInit (digRate f) key cust else keccakZero }

/-- `n` whole blocks absorbed. -/
def digAbsorb (f : Nat) (c : DigCtx) (n : Nat) (m : List Byte) : DigCtx :=
  { absorbed := c.absorbed + n * digRate f,
    st := match digSha2 f with
      | some p => sha2N p n c.st m
      | none => absorbN (digRate f) n c.st m }

/-- The digest finished from a context and the rest of the message (R318). -/
def digFinal (f d : Nat) (key : List Byte) (c : DigCtx) (m : List Byte) : List Byte :=
  match digSha2 f with
  | some p => if f = 7 ∨ f = 8 then hmacFinish p key c.st c.absorbed m else sha2Finish p c.st c.absorbed m
  | none =>
    if f = 9 ∨ f = 10 then kmacFinish (digRate f) d c.st m
    else spongeFinish (digRate f) (if f = 3 ∨ f = 4 then 0x1F else 0x06) d c.st m

/-- The blocks a whole message of `n` bytes charges (R121). -/
def digCharge (f n d : Nat) : Nat :=
  let r := digRate f
  let b256 := fun x => (x + 8) / 64 + 1
  let b512 := fun x => (x + 16) / 128 + 1
  if f = 5 then b256 n else if f = 6 then b512 n
  else if f = 7 then b256 (r + n) + b256 (r + d) else if f = 8 then b512 (r + n) + b512 (r + d)
  else if f = 9 ∨ f = 10 then (n + 9) / r + 3
  else n / r + 1 + (if r < d then (d - 1) / r else 0)

/-- The blocks a context has absorbed before its message's first byte: HMAC 1, KMAC 2 (R324). -/
def digPre (f : Nat) : Nat := if f = 7 ∨ f = 8 then 1 else if f = 9 ∨ f = 10 then 2 else 0

/-- The DIGEST_BLOCKS a submission charges (R324); FINISH is charged for the whole message less what its context was. -/
def State.digCharges (s : State) (d : List Byte) : Nat :=
  let op := field d 0 1
  let f := field d 1 1
  let len := field d 4 4
  let r := digRate f
  let done := s.valAt (field d 32 8 + 8) 8
  if op = 0 then digCharge f len (field d 24 2)
  else if op = 1 then len / r + digPre f
  else if op = 2 then len / r
  else digCharge f (done + len) (field d 24 2) - (done / r + digPre f)

/-- The blocks of input a job absorbs: whole blocks, the padded last one, and what HMAC and KMAC put around (R325). -/
def digBlocks (op f d len : Nat) : Nat :=
  let r := digRate f
  let pre := if op = 0 ∨ op = 1 then digPre f else 0
  if op = 1 ∨ op = 2 then pre + len / r
  else
    let lenB := if f = 5 ∨ f = 7 then 8 else 16
    let tail := match digSha2 f with
      | some _ => (len + lenB) / r + 1 + (if f = 7 ∨ f = 8 then (r + d + lenB) / r + 1 else 0)
      | none => (len + (if f = 9 ∨ f = 10 then (rightEncode (8 * d)).length else 0)) / r + 1
    pre + tail

/-- PRIO of a digest job. -/
def DigJob.prio (j : DigJob) : Nat := field j.job.desc 2 1
/-- SAVE_ADDR of a digest job; 0 means none. -/
def DigJob.save (j : DigJob) : Nat := field j.job.desc 32 8

/-- The blocks of a digest job that the engine has still to absorb (R319, R325). -/
def DigJob.left (j : DigJob) : Nat :=
  let d := j.job.desc
  digBlocks (field d 0 1) (field d 1 1) (field d 24 2) (field d 4 4) - j.turns

/-- Whether a digest descriptor of a unit is refused with DESC_BAD (R318, R320). -/
def State.digDescBad (s : State) (page : Nat) (d : List Byte) : Bool :=
  let op := field d 0 1
  let f := field d 1 1
  let len := field d 4 4
  let out := field d 24 2
  let save := field d 32 8
  let cl := field d 60 1
  let own := match blkAt page with
    | some (_, u) => u / 2
    | none => 0
  decide (3 < op) || decide (f = 0) || decide (10 < f) || decide (7 < field d 2 1) || decide (64 < field d 3 1) ||
  (decide (field d 3 1 ≠ 0) && decide (f < 9)) || !allZero ((d.drop 28).take 4) || !allZero (d.drop 62) ||
  ((op == 1 || op == 2) && decide (len % digRate f ≠ 0)) ||
  (match digFixed f with
    | some n => decide (out ≠ n)
    | none => decide (out = 0) || decide (1024 < out)) ||
  (!digKeyed f && decide (field d 26 2 ≠ 0xFFFF)) ||
  !(decide (cl < 12) || cl == 0xFF) || (cl != 0xFF && decide (63 < field d 61 1)) ||
  (if save = 0 then op != 0 || decide (4096 < len) else decide (s.region save ≠ .green own))

/-- The key a job works with: none needed, or the slot's key if it fits kind, usage and length (R318, R325, R332). -/
def State.digKey (s : State) (d : List Byte) : Option (List Byte) :=
  let f := field d 1 1
  if !digKeyed f then some []
  else
    let top := if f = 8 then 128 else 64
    (s.symKey (field d 26 2) (if f < 9 then usageHmac else usageKmac)).filter
      (fun k => decide (1 ≤ k.length) && decide (k.length ≤ top))

/-! ## Save areas -/

/-- The state words as bytes of a save area (R321). -/
def digStateBytes (f : Nat) (c : DigCtx) : List Byte :=
  match digSha2 f with
  | some p => c.st.flatMap (fun x => Word.leBytes (p.w / 8) x)
  | none => laneBytes c.st

/-- The state words from the bytes of a save area. -/
def digStateOf (f : Nat) (bs : List Byte) : List Nat :=
  match digSha2 f with
  | some p => (List.range 8).map (fun i => Word.leValue ((bs.drop (p.w / 8 * i)).take (p.w / 8)))
  | none => lanesOf bs

/-- A context is written to a save area (R321). A keyed state is stored as bytes the spec does not give, which the unit knows
again; bytes it leaves undefined are free (Assumption 3). -/
def State.digSave (s : State) (page : Nat) (d : List Byte) (state : Nat) (c : DigCtx) : State :=
  let f := field d 1 1
  let a := field d 32 8
  let plain := digStateBytes f c
  let (fill, s1) := s.freeBytes 500
  let cipher := fill.take 240
  let body := if digKeyed f then cipher else (plain ++ cipher).take 240
  let bytes := Word.leBytes 1 f ++ Word.leBytes 1 state ++ (d.drop 24).take 2 ++ (fill.drop 496).take 4 ++
    Word.leBytes 8 c.absorbed ++ body ++ (fill.drop 240).take 256
  let s2 := s1.agentWrite a bytes
  if digKeyed f then
    let u := s2.dig page
    s2.setDig page { u with areas := (cipher, plain) :: u.areas }
  else s2

/-- A context is restored from a save area, or the status of the failure (R321). -/
def State.digRestore (s : State) (page : Nat) (d : List Byte) : Except Nat DigCtx :=
  let f := field d 1 1
  let b := s.bytesAt (field d 32 8) 256
  if field b 0 1 ≠ f ∨ field b 1 1 = 0 then .error stDescBad
  else
    let body := b.drop 16
    let plain := if digKeyed f then
        (((s.dig page).areas.find? (fun p => p.1 == body)).map Prod.snd)
      else some body
    match plain with
    | some p => .ok { st := digStateOf f p, absorbed := field b 8 8 }
    | none => .error 0x0019

/-! ## Running a job -/

/-- A settled job: its done block (R325). -/
def digEnd (j : DigJob) (status blocks errAddr : Nat) (out : List Byte) : DigJob :=
  { j with out := out,
           fin := some { status := status, info1 := 0, info2 := 0,
                         block := fit 32 (Word.leBytes 2 status ++ [0, 0] ++ Word.leBytes 4 blocks ++
                           (j.job.desc.drop 48).take 8 ++ Word.leBytes 8 errAddr) } }

/-- The checks of a job before it absorbs: its descriptor, its addresses, its key, its save area; or the context it starts from (R320–R325). -/
def State.digBegin (s : State) (page : Nat) (j : DigJob) : Except (Nat × Nat) (List Byte × DigCtx) :=
  let d := j.job.desc
  let op := field d 0 1
  let custLen := if op = 0 ∨ op = 1 then field d 3 1 else 0
  if s.digDescBad page d then .error (stDescBad, 0)
  else
    let save := field d 32 8
    let odd := fun (a : Nat) => if a % 64 = 0 then none else some (a, stAccess)
    let bad := [odd (field d 40 8), odd save, s.agentFault false (field d 8 8) (custLen + field d 4 4),
      (if op = 0 ∨ op = 3 then s.agentFault false (field d 16 8) (field d 24 2) else none),
      (if save = 0 then none else s.agentFault false save 512)].findSome? (fun x => x)
    match bad with
    | some f => .error (stAccess, f.1)
    | none =>
      match s.digKey d with
      | none => .error (0x0019, 0)
      | some key =>
        if j.restored || op == 2 || op == 3 then
          match s.digRestore page d with
          | .ok c => .ok (key, c)
          | .error st => .error (st, 0)
        else .ok (key, digInit (field d 1 1) key (s.bytesAt (field d 8 8) custLen))

/-- The message bytes of a job from a position on (R320). -/
def State.digMsg (s : State) (d : List Byte) (pos : Nat) : List Byte :=
  let custLen := if field d 0 1 = 0 ∨ field d 0 1 = 1 then field d 3 1 else 0
  s.bytesAt (field d 8 8 + custLen + pos) (field d 4 4 - pos)

/-- The unit absorbs a job's message and settles it: START and CONTINUE save the context, ONESHOT and FINISH write the digest
(R320, R321). -/
def State.digRun (s : State) (page : Nat) (j : DigJob) : State × DigJob :=
  let d := j.job.desc
  let op := field d 0 1
  let f := field d 1 1
  match s.digBegin page j with
  | .error (st, a) => (s, digEnd j st 0 a [])
  | .ok (key, c) =>
    let m := s.digMsg d j.pos
    let blocks := digBlocks op f (field d 24 2) (field d 4 4)
    if op = 1 ∨ op = 2 then
      (s.digSave page d 1 (digAbsorb f c (m.length / digRate f) m), digEnd j stOk blocks 0 [])
    else
      let out := digFinal f (field d 24 2) key c m
      (s.agentWrite (field d 16 8) out, digEnd j stOk blocks 0 out)

/-! ## Slots -/

/-- The lowest-numbered free slot of a unit. -/
def DigUnit.freeSlot (u : DigUnit) : Option Nat := (List.range 4).find? (fun i => !u.slots.any (fun x => x.1 == i))

/-- A job takes a slot; the digest the slot last showed is gone (R322, R323). -/
def DigUnit.place (u : DigUnit) (i : Nat) (j : DigJob) : DigUnit :=
  { u with slots := u.slots ++ [(i, j)], results := u.results.filter (fun x => x.1 ≠ i) }

/-- The occupant with a save area and the lowest priority, of equals the one that took its slot last. A settled occupant is about to free its
slot and is none (R322). -/
def DigUnit.lowest (u : DigUnit) : Option (Nat × DigJob) :=
  u.slots.foldl (fun best x =>
    if x.2.save = 0 || x.2.fin.isSome then best
    else match best with
      | none => some x
      | some b => if b.2.prio ≤ x.2.prio then some x else some b) none

/-- The victim of a job: the lowest occupant, if the job's priority is higher than that of every occupant (R322). -/
def DigUnit.victim (u : DigUnit) (prio : Nat) : Option (Nat × DigJob) :=
  if u.slots.all (fun x => decide (prio < x.2.prio)) then u.lowest else none

/-- Whether the engine serves a slot of a job's priority: no occupied slot of a higher one has a block to absorb (R319). -/
def DigUnit.served (u : DigUnit) (prio : Nat) : Bool :=
  !u.slots.any (fun x => decide (x.2.prio < prio) && x.2.fin.isNone && decide (0 < x.2.left))

/-- The engine absorbs the last block of the job in a slot, having served the occupied slots of its priority in turn, a block at a time, since the
slot it served last: each has absorbed as many blocks as the job, if it has so many, but one less if its turn comes after the job's (R319). -/
def DigUnit.turn (u : DigUnit) (slot : Nat) (j : DigJob) : DigUnit :=
  let n := j.left
  let rank := fun i => (i + 3 - u.last % 4) % 4
  { u with last := if n = 0 then u.last else slot,
           slots := u.slots.map (fun x =>
             if x.1 = slot then (x.1, { x.2 with turns := x.2.turns + n })
             else if x.2.prio = j.prio ∧ x.2.fin = none then
               (x.1, { x.2 with turns := x.2.turns + min x.2.left (if rank x.1 < rank slot then n else n - 1) })
             else x) }

/-- A victim is suspended: its context goes to its save area with STATE = 2 (R322). It has absorbed the blocks its turns gave it, and up to
`blocks` more if the engine served it. One whose job could not begin keeps its start for its resumption. -/
def State.digSuspend (s : State) (page : Nat) (v : Nat × DigJob) (blocks : Nat) : State :=
  let j := v.2
  let d := j.job.desc
  let f := field d 1 1
  let more := if (s.dig page).served j.prio then blocks else 0
  let pre := if field d 0 1 = 0 ∨ field d 0 1 = 1 then digPre f else 0
  let (s1, j1) := match s.digBegin page j with
    | .ok (_, c) =>
      let m := s.digMsg d j.pos
      let n := min (j.turns + more - pre - j.pos / digRate f) (m.length / digRate f)
      let at_ := j.pos + n * digRate f
      (s.digSave page d 2 (digAbsorb f c n m), { j with pos := at_, turns := pre + at_ / digRate f, restored := true })
    | .error _ => (s, j)
  let u := s1.dig page
  ((s1.setDig page { u with slots := u.slots.filter (fun x => x.1 ≠ v.1), susp := u.susp ++ [j1] }).addReg page 0x054 1).evt page 4

/-- The first of the best priority in a list of jobs. -/
def digPick (l : List DigJob) : Option DigJob :=
  l.foldl (fun b x => match b with
    | none => some x
    | some y => if x.prio < y.prio then some x else some y) none

/-- A job that has not begun. -/
def DigJob.fresh (j : UnitJob) : DigJob := { job := j, pos := 0, turns := 0, restored := false, fin := none, out := [] }

/-- A freed slot goes to the highest priority among suspended contexts and waiting jobs, a suspended one first (R322). -/
def State.digFillOne (s : State) (page : Nat) : State :=
  let u := s.dig page
  match s.unitEn page, u.freeSlot with
  | true, some i =>
    let a := digPick u.susp
    let b := digPick (u.fifo.map DigJob.fresh)
    let takeSusp := match a, b with
      | some x, some y => decide (x.prio ≤ y.prio)
      | some _, none => true
      | none, _ => false
    if takeSusp then
      match a with
      | some x => s.setDig page ({ u with susp := u.susp.erase x }.place i x)
      | none => s
    else
      match b with
      | some y =>
        let s1 := s.setDig page ({ u with fifo := u.fifo.erase y.job }.place i y)
        if 32 ≤ u.fifo.length then s1.evt page 2 else s1
      | none => s
  | _, _ => s

/-- Every free slot is given (R322). -/
def State.digFill (s : State) (page : Nat) : State := (List.range 4).foldl (fun t _ => t.digFillOne page) s

/-- A hash of the commit sweeper or the prompt book enters a unit above level 0: it takes a free slot or a victim's, is absorbed whole and frees
the slot; while every occupant lacks a save area, or no slot is granted, it waits (R322, R323). The blocks a victim has absorbed are a free
value (Assumption 3). -/
def State.digHash (s : State) (page : Nat) (h : DigHash) : State :=
  let u := s.dig page
  let show_ := fun (t : State) (i : Nat) =>
    let x := t.dig page
    (t.setDig page { x with results := x.results.filter (fun r => r.1 ≠ i) ++ [(i, h.out)] }).addWide page 0x04C h.blocks
  let wait : State := { s with hashes := s.hashes ++ [h] }
  if !s.unitEn page then wait
  else match u.freeSlot with
  | some i => show_ s i
  | none =>
    match u.lowest with
    | none => wait
    | some v =>
      let (w, s1) := s.freeW
      (show_ (s1.digSuspend page v w.toNat) v.1).digFill page

/-- The hashes on their way to a unit enter it, ahead of what its command does (R23, R322). -/
def State.digHashes (s : State) (page : Nat) : State :=
  let mine := fun (h : DigHash) => digPage h.unit == page
  (s.hashes.filter mine).foldl (fun t h => t.digHash page h) { s with hashes := s.hashes.filter (fun h => !mine h) }

/-- A submission answered at once, with its signal (R134, R320). -/
def State.digAnswered (s : State) (page status errAddr : Nat) (desc : List Byte) : State :=
  (s.doneBare digKind page status errAddr desc).unitSignal (field desc 60 1) (field desc 61 1) (field desc 56 4)

/-- DIG.SUBMIT (R322): a free slot, a victim's slot, or the FIFO. A full FIFO answers with SUBMIT_FULL (R134). -/
def State.digSubmit (s : State) (page addr blocks : Nat) (core : Option Nat) : State :=
  let s := s.digHashes page
  let desc := s.agentRead [] addr 64
  let u := s.dig page
  let j := DigJob.fresh { desc := desc, core := core }
  if s.submitBad digKind addr then s.submitRefused digKind page addr
  else if addr % 64 ≠ 0 then s.digAnswered page stAccess addr desc
  else match s.unitEn page, u.freeSlot with
  | true, some i => s.setDig page (u.place i j)
  | en, _ =>
    match if en then u.victim j.prio else none with
    | some v =>
      let s1 := s.digSuspend page v blocks
      s1.setDig page ((s1.dig page).place v.1 j)
    | none =>
      if 32 ≤ u.fifo.length then s.digAnswered page stSubmitFull 0 desc
      else s.setDig page { u with fifo := u.fifo ++ [j.job] }

/-- The unit completes the job in a slot, if it asks for the operation and is not settled, and if its engine serves the slot's priority (R319). A
job that cannot begin absorbs nothing and is settled by any operation. -/
def State.digOp (s : State) (page slot op : Nat) : State :=
  let s := s.digHashes page
  let u := s.dig page
  if s.l2Waits ((page - 0x100) / 0x20) then s
  else match u.slots.find? (fun x => x.1 == slot) with
  | none => s
  | some (_, j) =>
    let bad := s.digDescBad page j.job.desc
    let begins := (s.digBegin page j).isOk
    if j.fin.isSome || (!bad && field j.job.desc 0 1 != op) || (begins && !u.served j.prio) then s
    else
      let (s1, j1) := s.digRun page j
      let u0 := s1.dig page
      let u1 := if begins then u0.turn slot j else u0
      let put := u1.slots.map (fun x => if x.1 = slot then (slot, j1) else x)
      let res := if j1.out.isEmpty then u1.results else u1.results ++ [(slot, j1.out)]
      s1.setDig page { u1 with slots := put, results := res }

/-- A job ends: its done block, its signal and the blocks it absorbed (R320, R325). -/
def State.digFinish (s : State) (page : Nat) (j : DigJob) (e : JobEnd) : State :=
  let d := j.job.desc
  let s1 := s.doneBlock digKind page d e.block 0 0
  (s1.unitSignal (field d 60 1) (field d 61 1) (field d 56 4)).addWide page 0x04C (field e.block 4 4)

/-- The done block of the job in a slot, whose slot is then given again (R322, R325). -/
def State.digDone (s : State) (page slot : Nat) : State :=
  let s := s.digHashes page
  let u := s.dig page
  match u.slots.find? (fun x => x.1 == slot) with
  | none => s
  | some (_, j) =>
    match j.fin with
    | none => s
    | some e =>
      let s1 := s.setDig page { u with slots := u.slots.filter (fun x => x.1 ≠ slot) }
      (s1.digFinish page j e).digFill page

/-- A job ends with ABORTED, with the blocks it has absorbed (R325); one that is settled has absorbed what its end says. -/
def State.digAbortJob (s : State) (page : Nat) (j : DigJob) : State :=
  let blocks := match j.fin with
    | some e => field e.block 4 4
    | none => j.turns
  match (digEnd j stAborted blocks 0 []).fin with
  | some e => s.digFinish page j e
  | none => s

/-- ABORT ends the jobs in the slots; the slots are given again (the DIG page). -/
def State.digAbort (s : State) (page : Nat) : State :=
  let u := s.dig page
  (u.slots.foldl (fun t x => t.digAbortJob page x.2) (s.setDig page { u with slots := [] })).digFill page

/-- SOFT_RESET ends every queued, running and suspended job and clears the counters (the DIG page). -/
def State.digSoftReset (s : State) (page : Nat) : State :=
  let u := s.dig page
  let all := u.slots.map Prod.snd ++ u.susp ++ u.fifo.map DigJob.fresh
  let s1 := all.foldl (fun t j => t.digAbortJob page j) (s.setDig page { u with slots := [], susp := [], fifo := [] })
  let s1 := if 32 ≤ u.fifo.length then s1.evt page 2 else s1
  (s1.zeroRegs page [0x050, 0x054, 0x058]).setWide page 0x04C 0

/-- A word of RESULT: the digest of the selected slot from its finalization until the slot is reused; before it, 0 (R323). -/
def State.digResult (s : State) (page i : Nat) : Option Word32 :=
  ((s.dig page).results.find? (fun x => x.1 == s.fld page 0x048 1 0)).map
    (fun x => BitVec.ofNat 32 (field (fit 64 x.2) (4 * i) 4))

/-- A read of RESULT: before finalization it returns 0, sets EARLY_READ and raises its event (R323). -/
def State.digResultRead (s : State) (page i : Nat) : Word32 × State :=
  match s.digResult page i with
  | some v => (v, s)
  | none => (0, (s.err page 0x0105 (s.fld page 0x048 1 0) 0 0).evt page 3)

/-! ## The commands -/

/-- DIGEST_ONESHOT (R320). -/
def execDigestOneshot (u : Fin 24) (slot : Fin 4) (s : State) : Host.Outcome State Fault Refusal :=
  .next (s.digOp (digPage u.val) slot.val 0)

/-- DIGEST_START (R320, R321). -/
def execDigestStart (u : Fin 24) (slot : Fin 4) (s : State) : Host.Outcome State Fault Refusal :=
  .next (s.digOp (digPage u.val) slot.val 1)

/-- DIGEST_CONTINUE (R321). -/
def execDigestContinue (u : Fin 24) (slot : Fin 4) (s : State) : Host.Outcome State Fault Refusal :=
  .next (s.digOp (digPage u.val) slot.val 2)

/-- DIGEST_FINISH (R321). -/
def execDigestFinish (u : Fin 24) (slot : Fin 4) (s : State) : Host.Outcome State Fault Refusal :=
  .next (s.digOp (digPage u.val) slot.val 3)

/-- DIG_JOB_DONE (R325). -/
def execDigJobDone (u : Fin 24) (slot : Fin 4) (s : State) : Host.Outcome State Fault Refusal :=
  .next (s.digDone (digPage u.val) slot.val)

/-- DIG_RESULT_READ (R323). -/
def execDigResultRead (u : Fin 24) (n : Fin 16) (s : State) : Host.Outcome State Fault Refusal :=
  .next (s.digResultRead (digPage u.val) n.val).2

/-- DIG_ABORT (the DIG page). -/
def execDigAbort (u : Fin 24) (s : State) : Host.Outcome State Fault Refusal := .next (s.digAbort (digPage u.val))

/-- DIG_SOFT_RESET (the DIG page). -/
def execDigSoftReset (u : Fin 24) (s : State) : Host.Outcome State Fault Refusal := .next (s.digSoftReset (digPage u.val))

end Sys2Proof.Machine
end

