-- ==== Sys2Proof/Machine/Lsu.lean ====
section
/-!
DEFINITION. The Larkspur units (R327–R331): the two module queues, signing with the self-check, verification, done blocks, and the
signing of act seals.
-/
namespace Sys2Proof.Machine
open Sys2Proof

/-- The LSU page of a unit. -/
def lsuPage (u : Nat) : Nat := pageOf .lsu u

/-- The Larkspur units as units with descriptors (R329, R331). -/
def lsuKind : UnitKind :=
  { descLen := 64, doneAt := 32, tagAt := 40, blockLen := 32, blockTag := 8, errAt := 16, depth := 256, jobsDone := none,
    errOf := fun st => if st = stDescBad then some 0x0101 else if st = stAccess then some 0x0102
      else if st = stSubmitFull then some 0x0103 else none }

/-- VERIFY_FAIL as a unit-local status (R329). -/
def stVerifyFail : Nat := 0x0018
/-- KEY_REFUSED as a unit-local status (R325, R329). -/
def stKeyRefused : Nat := 0x0019

/-- The Larkspur queues replaced. -/
def State.setLsu (s : State) (x : Lsu) : State := { s with lsu := x }

/-- Whether a unit may take a request: enabled and not in FAULT (R328). -/
def State.lsuUsable (s : State) (u : Nat) : Bool := s.unitEn (lsuPage u) && !s.lsu.faulted.contains u

/-- The Larkspur units not in FAULT (R179, R328). -/
def State.lsuUnits (s : State) : Nat := 8 - s.lsu.faulted.length

/-- Whether a Larkspur descriptor is refused with DESC_BAD (R329). -/
def lsuDescBad (d : List Byte) : Bool :=
  let cl := field d 52 1
  decide (1 < field d 0 1) || decide (7 < field d 1 1) || decide (field d 4 4 = 0) || decide (16384 < field d 4 4) ||
    !allZero ((d.drop 26).take 6) || !allZero (d.drop 54) ||
    !(decide (cl < 12) || cl == 0xFF) || (cl != 0xFF && decide (63 < field d 53 1))

/-- A misaligned DONE_ADDR, an address that ends a request with ACCESS (R133, R329). -/
def lsuDoneOdd (d : List Byte) : Option (Nat × Nat) := if field d 32 8 % 64 = 0 then none else some (field d 32 8, stAccess)

/-- A done block is written with its signal and events (R329). -/
def State.lsuDoneBlock (s : State) (u : Nat) (d : List Byte) (status sigLen errAddr : Nat) : State :=
  let block := fit 32 (Word.leBytes 2 status ++ Word.leBytes 2 sigLen ++ List.replicate 4 0 ++ (d.drop 40).take 8 ++
    Word.leBytes 8 errAddr)
  (s.doneBlock lsuKind (lsuPage u) d block 0 0).unitSignal (field d 52 1) (field d 53 1) (field d 48 4)

/-- LSU.SUBMIT (R328): the descriptor enters the module's sign or verify queue; a full queue answers with SUBMIT_FULL. -/
def State.lsuSubmit (s : State) (u addr : Nat) (core : Option Nat) (mgr : Bool) : State :=
  let d := s.agentRead [] addr 64
  let job : UnitJob := { desc := d, core := core, mgr := mgr }
  let q := s.lsu
  if s.submitBad lsuKind addr then s.submitRefused lsuKind (lsuPage u) addr
  else if addr % 64 ≠ 0 then s.lsuDoneBlock u d stAccess 0 addr
  else if field d 0 1 = 1 then
    if 1024 ≤ q.verify.length then s.lsuDoneBlock u d stSubmitFull 0 0 else s.setLsu { q with verify := q.verify ++ [job] }
  else if 256 ≤ q.sign.length then s.lsuDoneBlock u d stSubmitFull 0 0
  else s.setLsu { q with sign := q.sign ++ [job] }

/-- The request a queue serves next: the stage manager's first, then PRIO, then order of submission (R328). -/
def lsuNext (q : List UnitJob) : Option UnitJob :=
  let rank := fun (j : UnitJob) => if j.mgr then 0 else 1 + field j.desc 1 1
  q.foldl (fun b x => match b with
    | none => some x
    | some y => if rank x < rank y then some x else some y) none

/-- A request ends with a status, as its done block will say. -/
def lsuEnd (j : UnitJob) (status sigLen errAddr : Nat) : JobEnd :=
  { status := status, info1 := sigLen, info2 := errAddr, block := j.desc }

/-- A request in service is settled. -/
def State.lsuRunning (s : State) (r : LsuRun) : State := s.setLsu { s.lsu with runs := s.lsu.runs ++ [r] }

/-- A signature fails its self-check: the unit faults, and its request returns to the queue for another unit (R328, R331). -/
def State.lsuFault (s : State) (u tag : Nat) : State :=
  let pg := lsuPage u
  ((s.setLsu { s.lsu with faulted := u :: s.lsu.faulted }).err pg 0x0104 tag 0 0).evt pg 3

/-- The public key whose signature a SIGN request asks for: a customer pair's, or for the stage manager also the identity's (R332). -/
def State.lsuSignKey (s : State) (j : UnitJob) : Option (List Byte) :=
  let slot := field j.desc 2 2
  if slot = 0 ∧ j.mgr = true then some Config.identityPub else s.signKey slot

/-- A unit signs: the descriptor and the key are checked, the signature is made and checked, and it is written to SIG_ADDR, but
for an item, whose signature goes to its signature buffer (R327–R330). While an act seal waits, a unit signs only if another one is free for
the seal, which goes first (R23). -/
def State.lsuSign (s : State) (u : Nat) : State :=
  let busy := s.lsu.runs.any (fun r => r.unit == u && !r.verify)
  let others := (List.range 8).any (fun v => decide (v ≠ u) && s.lsuUsable v && !s.lsu.runs.any (fun r => r.unit == v && !r.verify))
  if !s.lsuUsable u || busy || (s.pbook.nextSeal.isSome && !others) then s
  else match lsuNext s.lsu.sign with
    | none => s
    | some j =>
      let d := j.desc
      let full := decide (256 ≤ s.lsu.sign.length)
      let s0 := s.setLsu { s.lsu with sign := s.lsu.sign.erase j }
      let s1 := if full then s0.evt (lsuPage u) 2 else s0
      let settle := fun (t : State) (e : JobEnd) => t.lsuRunning { unit := u, verify := false, job := j, fin := some e }
      if lsuDescBad d then settle s1 (lsuEnd j stDescBad 0 0)
      else
        let sigBad := (lsuDoneOdd d).or (if j.core.isSome then none else s1.agentFault false (field d 16 8) 1462)
        match s1.agentFault false (field d 8 8) (field d 4 4), sigBad with
        | some f, _ => settle s1 (lsuEnd j stAccess 0 f.1)
        | none, some f => settle s1 (lsuEnd j stAccess 0 f.1)
        | none, none =>
          match s1.lsuSignKey j with
          | none => settle s1 (lsuEnd j stKeyRefused 0 0)
          | some pk =>
            match s1.freshSig pk (s1.bytesAt (field d 8 8) (field d 4 4)) with
            | (some sig, s2) =>
              let s3 := if j.core.isSome then s2 else s2.agentWrite (field d 16 8) sig
              settle (s3.addReg (lsuPage u) 0x04C 1) (lsuEnd j stOk sig.length 0)
            | (none, s2) => (s2.setLsu { s2.lsu with sign := j :: s2.lsu.sign }).lsuFault u (field d 40 4)

/-- A verify lane checks a signature (R327, R329). -/
def State.lsuVerify (s : State) (u : Nat) : State :=
  let busy := (s.lsu.runs.filter (fun r => r.unit == u && r.verify)).length
  if !s.lsuUsable u || decide (4 ≤ busy) then s
  else match lsuNext s.lsu.verify with
    | none => s
    | some j =>
      let d := j.desc
      let full := decide (1024 ≤ s.lsu.verify.length)
      let s0 := s.setLsu { s.lsu with verify := s.lsu.verify.erase j }
      let s1 := if full then s0.evt (lsuPage u) 2 else s0
      let settle := fun (t : State) (e : JobEnd) => t.lsuRunning { unit := u, verify := true, job := j, fin := some e }
      if lsuDescBad d then settle s1 (lsuEnd j stDescBad 0 0)
      else match s1.agentFault false (field d 8 8) (field d 4 4), (lsuDoneOdd d).or (s1.agentFault false (field d 16 8) (field d 24 2)) with
        | some f, _ => settle s1 (lsuEnd j stAccess 0 f.1)
        | none, some f => settle s1 (lsuEnd j stAccess 0 f.1)
        | none, none =>
          match s1.verifyKey (field d 2 2) with
          | none => settle s1 (lsuEnd j stKeyRefused 0 0)
          | some pk =>
            let s2 := s1.addReg (lsuPage u) 0x050 1
            if falconVerify pk (s1.bytesAt (field d 8 8) (field d 4 4)) (s1.bytesAt (field d 16 8) (field d 24 2)) then
              settle s2 (lsuEnd j stOk 0 0)
            else settle (s2.addReg (lsuPage u) 0x054 1) (lsuEnd j stVerifyFail 0 0)

/-- The oldest settled request of a unit's signer or verify lanes writes its done block (R329). -/
def State.lsuDone (s : State) (u : Nat) (verify : Bool) : State :=
  match s.lsu.runs.find? (fun r => r.unit == u && r.verify == verify && r.fin.isSome) with
  | none => s
  | some r =>
    let s1 := s.setLsu { s.lsu with runs := s.lsu.runs.erase r }
    match r.fin with
    | some e => s1.lsuDoneBlock u r.job.desc e.status e.info1 e.info2
    | none => s1

/-- SOFT_RESET ends the unit's running requests and clears the counters; the queues are unchanged (the LSU page). -/
def State.lsuSoftReset (s : State) (u : Nat) : State :=
  let mine := s.lsu.runs.filter (fun r => r.unit == u)
  let s1 := s.setLsu { s.lsu with runs := s.lsu.runs.filter (fun r => r.unit ≠ u) }
  (mine.foldl (fun t r => t.lsuDoneBlock u r.job.desc stAborted 0 0) s1).zeroRegs (lsuPage u) [0x04C, 0x050, 0x054, 0x058]

/-- The oldest unsigned act seal is signed by a unit; a signature that fails its self-check faults the unit, and another signs (R328, R354). -/
def State.sealSign (s : State) (u : Nat) : State :=
  if !s.lsuUsable u || !s.pbook.alloc then s
  else match s.pbook.nextSeal with
    | none => s
    | some a =>
      match s.freshSig Config.identityPub (s.sealHead a) with
      | (some sig, s1) => s1.sealDone a sig u
      | (none, s1) => s1.lsuFault u 0

/-- Every act seal that waits is signed ahead of a signature that is to be made now (R23). -/
def State.sealsFirst (s : State) : State :=
  s.pbook.acts.foldl (fun t _ => match (List.range 8).find? t.lsuUsable with
    | some u => t.sealSign u
    | none => t) s

/-! ## The commands -/

/-- LARKSPUR_SIGN (R327). -/
def execLarkspurSign (u : Fin 8) (s : State) : Host.Outcome State Fault Refusal := .next (s.lsuSign u.val)

/-- LARKSPUR_VERIFY (R327). -/
def execLarkspurVerify (u : Fin 8) (s : State) : Host.Outcome State Fault Refusal := .next (s.lsuVerify u.val)

/-- LSU_JOB_DONE (R329). -/
def execLsuJobDone (u : Fin 8) (verify : Bool) (s : State) : Host.Outcome State Fault Refusal := .next (s.lsuDone u.val verify)

/-- LSU_SOFT_RESET (the LSU page). -/
def execLsuSoftReset (u : Fin 8) (s : State) : Host.Outcome State Fault Refusal := .next (s.lsuSoftReset u.val)

/-- ACT_SEAL_SIGNED (R354). -/
def execActSealSigned (u : Fin 8) (s : State) : Host.Outcome State Fault Refusal := .next (s.sealSign u.val)

end Sys2Proof.Machine
end

