-- ==== Sys2Proof/Machine/Cam.lean ====
section
/-!
DEFINITION. The search arrays (R298–R317): matching, search jobs on one array, the chained pair or the cascade, the diagnostic
search, and the writing of contents.
-/
namespace Sys2Proof.Machine
open Sys2Proof

/-- The CAM page of an array. -/
def camPage (a : Nat) : Nat := pageOf .cam a

/-- The entries of one array (R298). -/
def camSize : Nat := 131072

/-- A search array. -/
def State.cam (s : State) (a : Nat) : Cam := Sparse.get (fun _ => { ents := [], mode := 0 }) s.cams a

/-- A search array replaced; MODE of its CTL follows. -/
def State.setCam (s : State) (a : Nat) (x : Cam) : State :=
  { s with cams := Sparse.set (fun _ => { ents := [], mode := 0 }) s.cams a x }.setFld (camPage a) 0x008 7 4 x.mode

/-- The search arrays as units with descriptors (R302, R305, R317). -/
def camKind : UnitKind :=
  { descLen := 64, doneAt := 24, tagAt := 32, blockLen := 64, blockTag := 8, errAt := 24, depth := 64, jobsDone := none,
    errOf := fun st => if st = stDescBad then some 0x0101 else if st = stAccess then some 0x0102
      else if st = stSubmitFull then some 0x0103 else if st = 0x0017 then some 0x0104 else none,
    calm := [0, 2], space := false }

/-- Whether an entry matches a key under a mode (R299). -/
def camMatch (mode : Nat) (key mask : BitVec 160) (e : CamEnt) : Bool :=
  ((e.key ^^^ key) &&& (if mode = 1 then mask else e.care)) == 0

/-- What one search gives (R300): the winning index with its DATA, the number of matches, and the matching indices. -/
structure CamHit where
  win : Option (Nat × Word64)
  count : Nat
  all : List Nat
  deriving DecidableEq, Repr

/-- One search of one array under the contents in force. -/
def Cam.search (c : Cam) (key mask : BitVec 160) : CamHit :=
  let m := c.ents.filterMap (fun p => match p.2 with
    | some e => if camMatch c.mode key mask e then some (p.1, e.data) else none
    | none => none)
  { win := m.head?, count := m.length, all := m.map Prod.fst }

/-- A search of a handle (R301): one array, or the chained pair with CAM1's indices behind CAM0's. -/
def State.camSearch (s : State) (handle : Nat) (key mask : BitVec 160) : CamHit :=
  if handle < 2 then (s.cam handle).search key mask
  else
    let a := (s.cam 0).search key mask
    let b := (s.cam 1).search key mask
    let up := fun (i : Nat) => i + camSize
    { win := match a.win with
        | some w => some w
        | none => b.win.map (fun w => (up w.1, w.2)),
      count := a.count + b.count, all := a.all ++ b.all.map up }

/-- The entries a handle's index space holds. -/
def handleSize (h : Nat) : Nat := if h = 2 then 2 * camSize else camSize

/-- The arrays a handle covers. -/
def handleArrays (h : Nat) : List Nat := if h = 2 then [0, 1] else [h]

/-- Whether handle 2 searches the cascade (R301). -/
def State.cascaded (s : State) : Bool := decide (s.fld (camPage 0) 0x008 9 9 = 1)

/-- A result entry (R303). -/
def camResult (win : Option (Nat × Word64)) (count rank vec : Nat) : List Byte :=
  (match win with
    | some w => Word.leBytes 4 w.1
    | none => Word.leBytes 4 0xFFFFFFFF) ++
  Word.leBytes 1 ((if win.isSome then 1 else 0) + (if 2 ≤ count then 2 else 0)) ++
  Word.leBytes 1 (if win.isSome then rank else 0) ++ [0, 0] ++ Word.leBytes 4 count ++ [0, 0, 0, 0] ++
  (match win with
    | some w => Word.leBytes 8 w.2.toNat
    | none => Word.leBytes 8 0) ++ Word.leBytes 8 vec

/-- MATCH_VEC of a window (R303). -/
def matchVec (all : List Nat) (base : Nat) : Nat :=
  (List.range 64).foldl (fun v j => if all.contains (base + j) then v + 2 ^ j else v) 0

/-- Every array a search uses counts it, its hit and its multi-match (the CAM page). -/
def State.camCount (s : State) (handle : Nat) (h : CamHit) : State :=
  (handleArrays handle).foldl (fun t a =>
    let t1 := t.addWide (camPage a) 0x04C 1
    let t2 := if h.win.isSome then t1.addReg (camPage a) 0x054 1 else t1
    if 2 ≤ h.count then t2.addReg (camPage a) 0x058 1 else t2) s

/-! ## Search jobs -/

/-- Whether a search descriptor is refused when its job starts (R301, R302, R304). -/
def State.camDescBad (s : State) (a : Nat) (d : List Byte) : Bool :=
  let h := field d 0 1
  !(if a = 0 then h == 0 || h == 2 else h == 1) || decide (1 < field d 1 1) || decide (field d 2 2 = 0) ||
    decide (256 < field d 2 2) || !allZero ((d.drop 4).take 4) || !allZero (d.drop 40) ||
    (h == 2 && decide ((s.cam 0).mode ≠ (s.cam 1).mode)) || (h == 2 && s.cascaded && field d 1 1 == 1)

/-- The first misaligned address of a search descriptor, which ends the job with ACCESS (R133, R304, R305). -/
def camOdd (d : List Byte) : Option Nat :=
  [(field d 8 8, 16), (field d 16 8, 32), (field d 24 8, 64)].findSome? (fun p => if p.1 % p.2 = 0 then none else some p.1)

/-- A job that is settled: `at_` counts its keys, `hits` those with HIT (R305). -/
def camEnd (r : RunJob) (status errAddr : Nat) : RunJob :=
  { r with pages := [],
           fin := some { status := status, info1 := r.at_, info2 := errAddr % 2 ^ 32,
                         block := Word.leBytes 2 status ++ [0, 0] ++ Word.leBytes 4 r.at_ ++ (r.job.desc.drop 32).take 8 ++
                           Word.leBytes 4 r.hits ++ [0, 0, 0, 0] ++ Word.leBytes 8 errAddr ++ List.replicate 32 0 } }

/-- A key is finished: its result entry is written, and the job is settled after its last key (R303). -/
def State.camKeyDone (s : State) (r : RunJob) (entry : List Byte) : State × RunJob :=
  let d := r.job.desc
  let a := field d 16 8 + 32 * r.at_
  match s.agentFault false a 32 with
  | some f => (s, camEnd r stAccess f.1)
  | none =>
    let hit := Word.bit 0 (field entry 4 1)
    let r1 := { r with at_ := r.at_ + 1, hits := if hit then r.hits + 1 else r.hits, pages := [] }
    (s.agentWrite a entry, if field d 2 2 ≤ r1.at_ then camEnd r1 stOk 0 else r1)

/-! ## The cascade (R308) -/

/-- The ACTIVE port that leads to a rank, as its HELLO says. -/
def State.portToRank (s : State) (r : Nat) : Option Nat :=
  (s.portsIn [2] 5).find? (fun p => ((s.wing p).peerHello.drop 8).headD 0xFF == BitVec.ofNat 8 r)

/-- The ranks of the cascade that are in force, but this module's own (R467). -/
def State.otherRanks (s : State) : List Nat :=
  (List.range s.members).filter (fun r => r ≠ s.rank && !s.company.dropped.contains r)

/-- Cascade searches replaced. -/
def State.setSearches (s : State) (l : List Search) : State := { s with company := { s.company with searches := l } }

/-- A frame payload that begins with a search number and an issuer rank (R439). -/
def searchHead (num issuer : Nat) : List Byte := Word.leBytes 2 num ++ Word.leBytes 1 issuer ++ List.replicate 5 0

/-- A member's own result as a SEARCH_RESULT carries it: INDEX, MATCH_COUNT, DATA. -/
def searchResult (h : CamHit) : List Byte :=
  match h.win with
  | some w => Word.leBytes 4 w.1 ++ Word.leBytes 4 h.count ++ Word.leBytes 8 w.2.toNat
  | none => Word.leBytes 4 0xFFFFFFFF ++ Word.leBytes 4 0 ++ Word.leBytes 8 0

/-- A member other than rank 0 reports its local result: a MATCH bit, and a result frame on a hit (R308, R444). -/
def State.camReport (s : State) (issuer num : Nat) (h : CamHit) : State :=
  let s1 : State := { s with company := { s.company with report := some (issuer, num, h.win.isSome) } }
  match h.win, s.portToRank 0 with
  | some _, some p => s1.wingSend p 0x41 5 (searchHead num issuer ++ searchResult h)
  | _, _ => s1

/-- A resolved result's first 24 bytes written at this module's running job, if it waits for the search (R308). -/
def State.camResolved (s : State) (num : Nat) (first24 : List Byte) : State :=
  let pg := camPage 0
  match (s.unit pg).run with
  | some r =>
    if r.pages = [num] ∧ r.fin = none then
      let (s1, r1) := s.camKeyDone r (fit 32 first24)
      s1.setRun pg (some r1)
    else s
  | none => s

/-- Rank 0 resolves every search for which it has all it waits for: the lowest rank with a hit wins, MATCH_COUNT is the sum
over all ranks (R308). -/
def State.camResolve (s : State) : State :=
  s.company.searches.foldl (fun t x =>
    let need := t.otherRanks
    let ready := !x.own.isEmpty && need.all (fun r => match x.bits.find? (fun b => b.1 == r) with
      | some b => !b.2 || x.results.any (fun y => y.1 == r)
      | none => false)
    if !ready || x.lost then t
    else
      let ranks := (0, x.own) :: x.results
      let hits := ranks.filter (fun y => decide (field y.2 0 4 ≠ 0xFFFFFFFF))
      let best := hits.foldl (fun (b : Option (Nat × List Byte)) y => match b with
        | none => some y
        | some z => if y.1 < z.1 then some y else some z) none
      let count := (ranks.map (fun y => field y.2 4 4)).sum
      let e := match best with
        | some (r, b) => camResult (some (field b 0 4, BitVec.ofNat 64 (field b 8 8))) count r 0
        | none => camResult none 0 0 0
      let t1 := t.setSearches (t.company.searches.filter (fun y => y ≠ x))
      if x.issuer = 0 then t1.camResolved x.num e
      else match t1.portToRank x.issuer with
        | some p => t1.wingSend p 0x42 5 (searchHead x.num x.issuer ++ e.take 24)
        | none => t1) s

/-- A search of the cascade begins at this module: it searches its own pair, sends the key to every other member, and reports or,
as rank 0, waits for the others (R308). -/
def State.camCascade (s : State) (r : RunJob) (key mask : BitVec 160) : State × RunJob :=
  let num := s.company.searchNum
  let h := s.camSearch 2 key mask
  let me := s.rank
  let msg := searchHead num me ++ Word.leBytes 20 key.toNat ++ Word.leBytes 20 mask.toNat ++ List.replicate 8 0
  let s1 : State := { s with company := { s.company with searchNum := (num + 1) % 2048 } }
  let s2 := (s1.wingSendAll (s1.portsIn [2] 5) 0x40 5 msg).camCount 2 h
  let s3 := if me = 0 then
      s2.setSearches (s2.company.searches ++ [{ issuer := 0, num := num, own := searchResult h, bits := [], results := [], lost := false }])
    else s2.camReport me num h
  (s3, { r with pages := [num] })

/-- Rank 0's record of a search changed; a MATCH bit or a result may reach it before the key, with which it has no order, and then begins the
record, without a result of its own (R308, R440). -/
def State.camSearchOn (s : State) (issuer num : Nat) (f : Search → Search) : State :=
  let mine := fun (x : Search) => x.issuer == issuer && x.num == num
  let l := s.company.searches
  s.setSearches (if l.any mine then l.map (fun x => if mine x then f x else x)
    else l ++ [f { issuer := issuer, num := num, own := [], bits := [], results := [], lost := false }])

/-- A member receives a key and searches its pair (R308): rank 0 begins to resolve it, any other reports. -/
def State.camKeyReceived (s : State) (num issuer : Nat) (key mask : BitVec 160) : State :=
  let h := s.camSearch 2 key mask
  let s1 := s.camCount 2 h
  if s.rank = 0 then
    (s1.camSearchOn issuer num (fun x => { x with own := searchResult h })).camResolve
  else s1.camReport issuer num h

/-- Rank 0 takes a MATCH bit of a member; a report without VALID or with bad parity counts as absent (R444). -/
def State.camMatchBit (s : State) (rank issuer num : Nat) (hit : Bool) : State :=
  (s.camSearchOn issuer num (fun x =>
    if x.bits.all (fun b => b.1 ≠ rank) then { x with bits := x.bits ++ [(rank, hit)] } else x)).camResolve

/-- Rank 0 takes a member's hit result (R308). -/
def State.camResultFrame (s : State) (rank issuer num : Nat) (res : List Byte) : State :=
  (s.camSearchOn issuer num (fun x =>
    if x.results.all (fun b => b.1 ≠ rank) then { x with results := x.results ++ [(rank, res)] } else x)).camResolve

/-- A search is resolved as lost (R310): rank 0 forgets it, and the issuer's job ends with CASCADE_LOST. -/
def State.camLost (s : State) (issuer num : Nat) : State :=
  let s1 := s.setSearches (s.company.searches.filter (fun x => !(x.issuer = issuer && x.num = num)))
  let pg := camPage 0
  if issuer = s.rank then
    match (s1.unit pg).run with
    | some r => if r.pages = [num] ∧ r.fin = none then (s1.setRun pg (some (camEnd r 0x0017 0))).evt pg 3 else s1
    | none => s1
  else s1

/-! ## Running -/

/-- An array runs one search of its job: the next key of the running job, or the first of the next one (R302–R304). -/
def State.camStep (s : State) (a : Nat) : State :=
  let pg := camPage a
  let started := match (s.unit pg).run with
    | some r => some (r, s)
    | none => (s.popJob camKind pg false).map (fun (p : UnitJob × State) => (RunJob.start p.1 false, p.2))
  match started with
  | none => s
  | some (r, s1) =>
    let d := r.job.desc
    let h := field d 0 1
    if r.fin.isSome ∨ r.pages ≠ [] then s1
    else if s1.camDescBad a d then s1.setRun pg (some (camEnd r stDescBad 0))
    else
      let ka := field d 8 8 + 48 * r.at_
      match (camOdd d).or ((s1.agentFault false ka 48).map Prod.fst) with
      | some a => s1.setRun pg (some (camEnd r stAccess a))
      | none =>
        let k := s1.bytesAt ka 48
        let key := BitVec.ofNat 160 (field k 0 20)
        let mask := BitVec.ofNat 160 (field k 20 20)
        let win := field k 40 4
        let useWin := field d 1 1 == 1
        if (useWin && (decide (win % 64 ≠ 0) || decide (handleSize h ≤ win))) || decide (field k 44 4 ≠ 0) then
          s1.setRun pg (some (camEnd r stDescBad 0))
        else if h = 2 ∧ s1.cascaded = true then
          let (s2, r1) := s1.camCascade r key mask
          (s2.setRun pg (some r1)).camResolve
        else
          let hit := s1.camSearch h key mask
          let vec := if useWin then matchVec hit.all win else 0
          let (s2, r1) := (s1.camCount h hit).camKeyDone r (camResult hit.win hit.count 0 vec)
          s2.setRun pg (some r1)

/-- The running job's done block, once it is settled (R305). -/
def State.camDone (s : State) (a : Nat) : State :=
  let pg := camPage a
  match (s.unit pg).run with
  | some r => match r.fin with
    | some e => (s.setRun pg none).doneBlock camKind pg r.job.desc e.block e.info1 e.info2
    | none => s
  | none => s

/-- The running job ends with ABORTED. -/
def State.camAbort (s : State) (a : Nat) : State :=
  let pg := camPage a
  match (s.unit pg).run with
  | some r =>
    match (camEnd r stAborted 0).fin with
    | some e => (s.setRun pg none).doneBlock camKind pg r.job.desc e.block 0 0
    | none => s
  | none => s

/-- SOFT_RESET ends jobs and clears the counters; the contents stay (the CAM page). -/
def State.camSoftReset (s : State) (a : Nat) : State :=
  let pg := camPage a
  let s1 := s.camAbort a
  let s2 := (s1.emptyFifos camKind pg).abortJobs camKind pg (s1.unit pg).fifo
  (s2.zeroRegs pg [0x050, 0x054, 0x058]).setWide pg 0x04C 0

/-- DIAG_CTL: WINDOW is stored, and GO runs one local search into the diagnostic registers (R316). -/
def State.camDiag (s : State) (a : Nat) (v : Word32) : State :=
  let pg := camPage a
  let w := Word.bits 16 0 v.toNat
  let s1 := if w % 64 = 0 then s.setReg pg 0x428 (BitVec.ofNat 32 w) else s.err pg 0x0105 0x428 0 0
  if Word.bit 31 v.toNat then
    let num := fun (o : Nat) => (List.range 5).foldl (fun x k => x + (s1.reg pg (o + 4 * k)).toNat * 2 ^ (32 * k)) 0
    let h := (s1.cam a).search (BitVec.ofNat 160 (num 0x400)) (BitVec.ofNat 160 (num 0x414))
    let vec := matchVec h.all (s1.fld pg 0x428 16 0)
    let data := match h.win with
      | some x => x.2.toNat
      | none => 0
    let idx := match h.win with
      | some x => x.1
      | none => 0xFFFFFFFF
    let words := [(0x42C, idx), (0x430, h.count * 4 + (if h.win.isSome then 1 else 0) + (if 2 ≤ h.count then 2 else 0)),
      (0x434, vec), (0x438, vec / 2 ^ 32), (0x43C, data), (0x440, data / 2 ^ 32)]
    (words.foldl (fun t p => t.setReg pg p.1 (BitVec.ofNat 32 p.2)) s1).camCount a h
  else s1

/-! ## Contents (R311–R314) -/

/-- Lines of an image written into the arrays of a handle; a FULL image first clears them, and sets their mode (R312, R313). -/
def State.camWrite (s : State) (handle : Nat) (full : Bool) (mode : Nat) (lines : List CamLine) : State :=
  (handleArrays handle).foldl (fun t a =>
    let c := t.cam a
    let base := if handle = 2 ∧ a = 1 then camSize else 0
    let mine := lines.filter (fun l => decide (base ≤ l.idx) && decide (l.idx < base + camSize))
    let ents := mine.foldl (fun e l => Sparse.set (fun _ => none) e (l.idx - base) (if l.valid then some l.ent else none))
      (if full then [] else c.ents)
    t.setCam a { ents := ents, mode := if full then mode else c.mode }) s

/-- A change has taken effect in the arrays of a handle: CHANGES, CHANGE_CUE and CHANGED (the CAM page). -/
def State.camChanged (s : State) (handle cue : Nat) : State :=
  (handleArrays handle).foldl (fun t a =>
    (((t.addReg (camPage a) 0x05C 1).setWide (camPage a) 0x060 cue).evt (camPage a) 2)) s

/-! ## The commands -/

/-- CAM_SEARCH (R300–R304, R308). -/
def execCamSearch (a : Fin 2) (s : State) : Host.Outcome State Fault Refusal := .next (s.camStep a.val)

/-- CAM_JOB_DONE (R305). -/
def execCamJobDone (a : Fin 2) (s : State) : Host.Outcome State Fault Refusal := .next (s.camDone a.val)

/-- CAM_ABORT (the CAM page). -/
def execCamAbort (a : Fin 2) (s : State) : Host.Outcome State Fault Refusal := .next (s.camAbort a.val)

/-- CAM_SOFT_RESET (the CAM page). -/
def execCamSoftReset (a : Fin 2) (s : State) : Host.Outcome State Fault Refusal := .next (s.camSoftReset a.val)

/-- CASCADE_SEARCH_LOST (R310). -/
def execCascadeSearchLost (issuer : Fin 4) (num : Fin 2048) (s : State) : Host.Outcome State Fault Refusal :=
  .next (s.camLost issuer.val num.val)

end Sys2Proof.Machine
end

