-- ==== Sys2Proof/Machine/TableBase.lean ====
section
/-!
DEFINITION. The table store (R78–R87, R92–R98, R109, R110): table descriptors, row versions and what a snapshot sees of them,
hash indexes, ring records, and the space that tables reserve and use (R101, R104).
-/
namespace Sys2Proof.Machine
open Sys2Proof

/-- The STRIKE page. -/
def strikePage : Nat := pageOf .strike 0
/-- The CUE page. -/
def cuePage : Nat := pageOf .cue 0
/-- The COMMIT page. -/
def commitPage : Nat := pageOf .commit 0
/-- The MODCTL page. -/
def modctlPage : Nat := pageOf .modctl 0

/-- An attached table. -/
def State.table (s : State) (t : Nat) : Option Table := Sparse.get (fun _ => none) s.tables t

/-- An attached table replaced, or its number freed. -/
def State.setTable (s : State) (t : Nat) (x : Option Table) : State :=
  { s with tables := Sparse.set (fun _ => none) s.tables t x }

/-- The attached tables in ascending number. -/
def State.tableList (s : State) : List (Nat × Table) := s.tables.filterMap (fun p => p.2.map (fun t => (p.1, t)))

/-- The attached ordinary tables in ascending number (R81). -/
def State.ordinary (s : State) : List (Nat × Table) := s.tableList.filter (fun p => !p.2.desc.scratch)

/-! ## Descriptors -/

/-- Bytes of one value of a column (R79). -/
def ColDef.size (c : ColDef) : Nat := if c.typ = 1 then c.bytesLen else 2 ^ c.width

/-- Whether a column is a ring column. -/
def ColDef.isRing (c : ColDef) : Bool := c.typ == 2

/-- A column entry of a descriptor (R109). -/
def colOf (bs : List Byte) : ColDef :=
  { typ := field bs 0 1, width := field bs 1 1, signed := Word.bit 0 (field bs 2 1), writable := Word.bit 1 (field bs 2 1),
    placement := field bs 3 1, bytesLen := field bs 4 2, ringW := field bs 6 1, ringSpan := field bs 8 2 }

/-- An index entry of a descriptor (R109). -/
def idxOf (bs : List Byte) : IdxDef :=
  { keys := (List.range (min 4 (field bs 0 1))).map (fun i => field bs (4 + 2 * i) 2), unique := Word.bit 0 (field bs 1 1),
    log2 := field bs 2 1, seed := field bs 16 8 }

/-- A table descriptor as its bytes give it (R109). -/
def tableDefOf (bs : List Byte) : TableDef :=
  let nc := field bs 4 2
  { num := field bs 0 2, scratch := field bs 2 1 == 1, domain := if Word.bit 0 (field bs 3 1) then some (field bs 8 2) else none,
    cols := (List.range nc).map (fun i => colOf ((bs.drop (64 + 16 * i)).take 16)),
    idxs := (List.range (field bs 6 1)).map (fun i => idxOf ((bs.drop (64 + 16 * nc + 32 * i)).take 32)),
    maxSlots := field bs 16 8, ringRecords := field bs 24 8, bytes := bs }

/-- The ring columns of a descriptor, in descriptor order. -/
def TableDef.rings (d : TableDef) : List (Nat × ColDef) :=
  (d.cols.zipIdx.filter (fun p => p.1.isRing)).map (fun p => (p.2, p.1))

/-- Whether a table has ring columns. -/
def TableDef.hasRing (d : TableDef) : Bool := d.cols.any ColDef.isRing

/-- A column of a descriptor. -/
def TableDef.col (d : TableDef) (c : Nat) : Option ColDef := d.cols[c]?

/-- Whether a column is a key column of some index. -/
def TableDef.isKey (d : TableDef) (c : Nat) : Bool := d.idxs.any (fun i => i.keys.contains c)

/-- The rules a column entry keeps (R79, R99, R109). -/
def colOk (bs : List Byte) : Bool :=
  let c := colOf bs
  decide (c.typ ≤ 2) && (c.typ == 1 || decide (c.width ≤ 3)) && decide (field bs 2 1 < 4) && decide (c.placement ≤ 2) &&
    (!c.isRing || (c.placement == 0 && decide (1 ≤ c.ringW) && decide (c.ringW ≤ 64))) &&
    (c.typ != 1 || (decide (1 ≤ c.bytesLen) && decide (c.bytesLen ≤ 256))) &&
    !(c.placement == 2 && c.writable) && field bs 7 1 == 0 && allZero ((bs.drop 10).take 6)

/-- The rules an index entry keeps (R78, R93, R109). -/
def idxOk (d : TableDef) (bs : List Byte) : Bool :=
  let i := idxOf bs
  decide (1 ≤ field bs 0 1) && decide (field bs 0 1 ≤ 4) && decide (field bs 1 1 < 2) && decide (10 ≤ i.log2) &&
    decide (i.log2 ≤ 32) && field bs 3 1 == 0 &&
    i.keys.all (fun k => match d.col k with
      | some c => !c.isRing
      | none => false) &&
    ((List.range 4).drop i.keys.length).all (fun j => field bs (4 + 2 * j) 2 == 0xFFFF) &&
    allZero ((bs.drop 12).take 4) && allZero ((bs.drop 24).take 8)

/-- Whether a descriptor keeps R78, R79, R99, R109 and R110. -/
def descOk (bs : List Byte) : Bool :=
  let d := tableDefOf bs
  let nc := field bs 4 2
  let ni := field bs 6 1
  bs.length == 64 + 16 * nc + 32 * ni && decide (d.num < 4096) && decide (field bs 2 1 ≤ 1) && decide (field bs 3 1 ≤ 1) &&
    decide (1 ≤ nc) && decide (nc ≤ 1024) && decide (ni ≤ 8) && field bs 7 1 == 0 && allZero ((bs.drop 10).take 6) &&
    decide (1 ≤ d.maxSlots) && decide (d.maxSlots < 2 ^ 48) && (d.hasRing || d.ringRecords == 0) &&
    (List.range nc).all (fun i => colOk ((bs.drop (64 + 16 * i)).take 16)) &&
    (List.range ni).all (fun i => idxOk d ((bs.drop (64 + 16 * nc + 32 * i)).take 32)) &&
    decide (d.rings.length ≤ 16) &&
    (match d.domain with
      | some c => (match d.col c with
        | some x => x.typ == 0 && x.width == 3
        | none => false)
      | none => true) &&
    (if d.scratch then !d.hasRing && d.idxs.isEmpty
     else d.cols.zipIdx.all (fun p => !(p.1.writable && d.isKey p.2)))

/-- DESC_CHECK of a descriptor: its SHAKE256, 8-byte output (R111). -/
def TableDef.check (d : TableDef) : List Byte := shake256 8 d.bytes

/-- An empty table (R110). -/
def Table.empty (d : TableDef) : Table :=
  { desc := d, slots := [], newest := [], free := [], used := 0, nextRow := 0, rings := [],
    indexes := d.idxs.map (fun _ => { chains := [] }), pages := [], loadedEnd := 0 }

/-! ## Rows and versions -/

/-- The version in a slot, if the slot holds one. -/
def Table.version (t : Table) (slot : Nat) : Option Version := Sparse.get (fun _ => none) t.slots slot

/-- The slot of the newest version of a row that still has one. -/
def Table.newestOf (t : Table) (row : Nat) : Option Nat := Sparse.get (fun _ => none) t.newest row

/-- Whether a snapshot selects a version (R84). -/
def Version.visible (v : Version) (s : Nat) : Bool :=
  (match v.beg with
    | some b => decide (b ≤ s)
    | none => false) &&
  (match v.fin with
    | some e => decide (s < e)
    | none => true)

/-- The walk of a lookup: from a slot along PREV_SLOT to the first version with BEGIN_CUE ≤ s (R86). -/
def Table.walk (t : Table) (s : Nat) : Nat → Option Nat → Option (Nat × Version)
  | 0, _ => none
  | _, none => none
  | n + 1, some slot =>
    match t.version slot with
    | none => none
    | some v =>
      match v.beg with
      | some b => if b ≤ s then (if v.visible s then some (slot, v) else none) else t.walk s n v.prev
      | none => t.walk s n v.prev

/-- The version of a row that a snapshot sees, from the slot an index names (R86). -/
def Table.lookup (t : Table) (s slot : Nat) : Option (Nat × Version) := t.walk s (t.slots.length + 1) (some slot)

/-- The version of a row that a snapshot sees (R84). -/
def Table.rowAt (t : Table) (s row : Nat) : Option (Nat × Version) := t.walk s (t.slots.length + 1) (t.newestOf row)

/-- The rows a snapshot sees, in ascending row number (R87). -/
def Table.rowsAt (t : Table) (s : Nat) : List Version := t.newest.filterMap (fun p => (t.rowAt s p.1).map Prod.snd)

/-- A value of a version's column; a ring column's is empty. -/
def Version.cell (v : Version) (c : Nat) : List Byte := v.cells.getD c []

/-- The number a cell holds under its column's type (R79). -/
def ColDef.num (c : ColDef) (bs : List Byte) : Int :=
  if c.signed then Word.signed (8 * c.size) (Word.leValue bs) else (Word.leValue bs : Int)

/-! ## Hash indexes (R92–R95) -/

/-- The 8-byte groups of a key, padded with zeros. -/
def keyGroups : Nat → List Byte → List Nat
  | 0, _ => []
  | n + 1, bs => Word.leValue (bs.take 8) :: keyGroups n (bs.drop 8)

/-- The index hash of a key (R93). -/
def indexHash (seed : Nat) (key : List Byte) : Nat :=
  let m := 2 ^ 64
  let h0 := Nat.xor seed (key.length * 0x9E3779B97F4A7C15 % m)
  let h1 := (keyGroups ((key.length + 7) / 8) key).foldl (fun h k =>
    let k1 := k * 0xC2B2AE3D27D4EB4F % m
    let k2 := rotl64 k1 31 * 0x9E3779B97F4A7C15 % m
    (rotl64 (Nat.xor h k2) 27 * 5 + 0x52DCE729) % m) h0
  let h2 := Nat.xor h1 (h1 / 2 ^ 33) * 0xFF51AFD7ED558CCD % m
  let h3 := Nat.xor h2 (h2 / 2 ^ 33) * 0xC4CEB9FE1A85EC53 % m
  Nat.xor h3 (h3 / 2 ^ 33)

/-- The bucket of a hash (R93). -/
def hashBucket (log2 h : Nat) : Nat := h % 2 ^ log2
/-- The TAG of a hash (R93). -/
def hashTag (h : Nat) : Nat := if Word.bits 63 48 h = 0 then 1 else Word.bits 63 48 h

/-- The key of a version under an index (R93). -/
def IdxDef.keyOf (i : IdxDef) (v : Version) : List Byte := i.keys.flatMap v.cell

/-- A chain with an entry put into its first bucket that has room, or a new one at its end (R94). -/
def chainInsert : List (List (Nat × Nat)) → Nat × Nat → List (List (Nat × Nat))
  | [], e => [[e]]
  | b :: r, e => if b.length < 7 then (b ++ [e]) :: r else b :: chainInsert r e

/-- A bucket with one entry replaced by its last (R94). -/
def bucketRemove (b : List (Nat × Nat)) (slot : Nat) : List (Nat × Nat) :=
  match b.findIdx? (fun e => e.2 == slot) with
  | some i => match b.getLast? with
    | some l => (b.set i l).dropLast
    | none => b
  | none => b

/-- A chain without the entry of a slot; an overflow bucket left empty is unlinked (R94). -/
def chainRemove (c : List (List (Nat × Nat))) (slot : Nat) : List (List (Nat × Nat)) :=
  match c.map (fun b => bucketRemove b slot) with
  | [] => []
  | b :: r =>
    let r1 := r.filter (fun x => !x.isEmpty)
    if b.isEmpty && r1.isEmpty then [] else b :: r1

/-- A chain with a slot replaced in its entry (R85). -/
def chainMove (c : List (List (Nat × Nat))) (old new : Nat) : List (List (Nat × Nat)) :=
  c.map (fun b => b.map (fun e => if e.2 = old then (e.1, new) else e))

/-- The chain of a bucket. -/
def IndexState.chain (x : IndexState) (b : Nat) : List (List (Nat × Nat)) := Sparse.get (fun _ => []) x.chains b

/-- A chain replaced. -/
def IndexState.setChain (x : IndexState) (b : Nat) (c : List (List (Nat × Nat))) : IndexState :=
  { x with chains := Sparse.set (fun _ => []) x.chains b c }

/-- The overflow buckets an index uses (R104). -/
def IndexState.overflow (x : IndexState) : Nat := (x.chains.map (fun p => p.2.length - 1)).sum

/-- A change of the chain of a version's key, in every index. -/
def Table.onChains (t : Table) (v : Version) (f : Nat → List (List (Nat × Nat)) → List (List (Nat × Nat))) : Table :=
  { t with indexes := (t.indexes.zip t.desc.idxs).map (fun p =>
      let h := indexHash p.2.seed (p.2.keyOf v)
      let b := hashBucket p.2.log2 h
      p.1.setChain b (f (hashTag h) (p.1.chain b))) }

/-- The versions that a key under an index matches at a snapshot, in ascending row number (R86, R87, R95). -/
def Table.probe (t : Table) (idx s : Nat) (key : List Byte) : List (Nat × Version) :=
  match t.desc.idxs[idx]?, t.indexes[idx]? with
  | some d, some x =>
    let h := indexHash d.seed key
    let hits := ((x.chain (hashBucket d.log2 h)).flatten.filter (fun e => e.1 == hashTag h)).filterMap (fun e => t.lookup s e.2)
    let ok := hits.filter (fun p => d.keyOf p.2 == key)
    ok.mergeSort (fun a b => decide (a.2.row ≤ b.2.row))
  | _, _ => []

/-! ## Ring records (R96–R98) -/

/-- RING_REF of a row: that of its newest version (R82, R96). -/
def Table.ringRef (t : Table) (row : Nat) : Option Nat := ((t.newestOf row).bind t.version).bind Version.ring

/-- The ring record that RING_REF names, one block per ring column; none is no record. -/
def Table.ringsOf (t : Table) (row : Nat) : List Ring := match t.ringRef row with
  | some k => Sparse.get (fun _ => []) t.rings k
  | none => []

/-- The ring record of a row replaced; an empty one is freed (R98). -/
def Table.setRings (t : Table) (row : Nat) (r : List Ring) : Table := match t.ringRef row with
  | some k => { t with rings := Sparse.set (fun _ => []) t.rings k r }
  | none => t

/-- The ring record that a new row is given: the lowest free one (R70, R98). -/
def Table.freeRing (t : Table) : Nat :=
  ((List.range (t.rings.length + 1)).find? (fun k => (Sparse.get (fun _ => []) t.rings k).isEmpty)).getD 0

/-- A new ring record: every ring empty (R80, R98). -/
def TableDef.newRings (d : TableDef) : List Ring := d.rings.map (fun p => { col := p.1, head := 0, pairs := [] })

/-- The pairs an item of a cue sees of a ring (R97). -/
def ringWindow (c : ColDef) (cue : Nat) (pairs : List (Nat × List Byte)) : List (Nat × List Byte) :=
  if c.ringSpan = 0 then pairs else pairs.filter (fun p => decide (cue ≤ p.1 + c.ringSpan) && decide (p.1 < cue))

/-- The oldest pairs of a ring dropped: HEAD moves on, modulo W (R96). -/
def Ring.dropOld (g : Ring) (w n : Nat) : Ring := { g with head := (g.head + n) % w, pairs := g.pairs.drop n }

/-- A ring with the pushes of a cue: pairs outside SPAN leave from the oldest end, then each push replaces the oldest pair of a
full ring (R97). -/
def ringPush (c : ColDef) (cue : Nat) (g : Ring) (vals : List (List Byte)) : Ring :=
  let old := if c.ringSpan = 0 then 0 else (g.pairs.takeWhile (fun p => decide (p.1 + c.ringSpan ≤ cue))).length
  vals.foldl (fun r v =>
    let r1 := if r.pairs.length < c.ringW then r else r.dropOld c.ringW 1
    { r1 with pairs := r1.pairs ++ [(cue, v)] }) (g.dropOld c.ringW old)

/-! ## Changes the commit sweeper makes (R53, R85) -/

/-- The slot the sweep of a cue gives out: the lowest that strike freed before the cue, else the first never used (R103). -/
def Table.takeSlot (t : Table) (cue : Nat) : Nat × Table :=
  match t.free.find? (fun p => decide (p.2 < cue)) with
  | some p => (p.1, { t with free := t.free.filter (fun q => decide (q.1 ≠ p.1)) })
  | none => (t.used, { t with used := t.used + 1 })

/-- A version put into a slot. -/
def Table.setVersion (t : Table) (slot : Nat) (v : Option Version) : Table :=
  { t with slots := Sparse.set (fun _ => none) t.slots slot v }

/-- The page of a column that the sweeper writes a slot in is a tail page: it has no zone (R89). -/
def LoadedPage.written (p : LoadedPage) (slot : Nat) : LoadedPage :=
  if p.first ≤ slot ∧ slot < p.first + p.count then { p with zone := none, tail := true } else p

/-- A version written into a slot by the sweeper: the pages it lies in are tail pages from then on (R89). -/
def Table.writeVersion (t : Table) (slot : Nat) (v : Version) : Table :=
  { t.setVersion slot (some v) with pages := t.pages.map (fun p => p.written slot) }

/-- The newest slot of a row recorded. -/
def Table.setNewest (t : Table) (row : Nat) (slot : Option Nat) : Table :=
  { t with newest := Sparse.set (fun _ => none) t.newest row slot }

/-- END_CUE of the version in a slot. -/
def Table.endVersion (t : Table) (slot cue : Nat) : Table :=
  match t.version slot with
  | some v => t.setVersion slot (some { v with fin := some cue })
  | none => t

/-- A row inserted by the sweep of a cue, with its ring record and index entries; `dead` ends it in the same cue (R53, R85). -/
def Table.insertRow (t : Table) (cue row : Nat) (cells : List (List Byte)) (dead : Bool) : Table :=
  let (slot, t1) := t.takeSlot cue
  let v : Version := { row := row, beg := some cue, fin := if dead then some cue else none, prev := none,
                       ring := if t.desc.hasRing then some t.freeRing else none, cells := cells }
  let t2 := (t1.writeVersion slot v).setNewest row (some slot)
  let t3 := if t.desc.hasRing then t2.setRings row t.desc.newRings else t2
  t3.onChains v (fun tag c => chainInsert c (tag, slot))

/-- A new version of a row written by the sweep of a cue: it replaces the newest one, whose index entries move to it (R85). -/
def Table.updateRow (t : Table) (cue row : Nat) (cells : List (List Byte)) : Table :=
  match t.newestOf row with
  | none => t
  | some old =>
    let (slot, t1) := t.takeSlot cue
    let v : Version := { row := row, beg := some cue, fin := none, prev := some old, ring := t.ringRef row, cells := cells }
    let t2 := ((t1.writeVersion slot v).endVersion old cue).setNewest row (some slot)
    t2.onChains v (fun _ c => chainMove c old slot)

/-- A row ended by the sweep of a cue (R85). -/
def Table.endRow (t : Table) (cue row : Nat) : Table :=
  match t.newestOf row with
  | none => t
  | some slot => t.endVersion slot cue

/-! ## Space -/

/-- Values a plain page holds (R88). -/
def plainPerPage (size : Nat) : Nat := 65472 / size

/-- Bytes of a ring record (R96). -/
def TableDef.ringRecBytes (d : TableDef) : Nat := (d.rings.map (fun p => 8 + 16 * p.2.ringW)).sum

/-- The bytes a descriptor's columns of a placement take in plain pages (R101). -/
def TableDef.pageBytes (d : TableDef) (ddr : Bool) : Nat :=
  (d.cols.map (fun c =>
    if c.isRing || (c.placement != 0) != ddr then 0
    else Word.ceilDiv d.maxSlots (plainPerPage c.size) * 65536)).sum

/-- The HBM a table reserves (R101). -/
def TableDef.hbmBytes (d : TableDef) : Nat :=
  d.pageBytes false + 8 * d.maxSlots * (if d.hasRing then 5 else 4) + (d.idxs.map (fun i => 80 * 2 ^ i.log2)).sum +
    d.ringRecords * d.ringRecBytes

/-- The DDR5 a table reserves (R101). -/
def TableDef.ddrBytes (d : TableDef) : Nat := d.pageBytes true

/-- Whether reservations and areas fit, with the staging area sized for a number of staged writes (R76, R101). The bytes
one staged write takes are the build's own (Assumption 13). -/
def State.fits (s : State) (defs : List TableDef) (writes : Nat) : Bool :=
  let hbm := (defs.map TableDef.hbmBytes).sum + 2 ^ 30 + Config.stagingMib writes * 2 ^ 20 + s.poolGib * 2 ^ 30 +
    64 * 2 ^ 20
  let ddr := (defs.map TableDef.ddrBytes).sum + 16 * 2 ^ 30 + s.pbBytes
  decide (hbm ≤ 0x003600000000) && decide (ddr ≤ s.build.ddrBytes)

/-- The largest WRITES budget of a set's transaction pipelines (R104). -/
def wmaxOf (ps : List Pipe) : Nat := ((ps.filter (fun p => p.cls == 0)).map (fun p => p.budgets.getD 7 0)).foldl max 0

/-- Slots of a table that are not free (R104). -/
def Table.usedSlots (t : Table) : Nat := t.used - t.free.length
/-- Free slots (R104). -/
def Table.freeSlots (t : Table) : Nat := t.desc.maxSlots - t.usedSlots

/-- The ratios of R104 for a table, as pairs of used and whole. -/
def Table.ratios (t : Table) : List (Nat × Nat) :=
  [(t.usedSlots, t.desc.maxSlots)] ++ (if t.desc.hasRing then [(t.rings.length, t.desc.ringRecords)] else []) ++
    (t.indexes.zip t.desc.idxs).map (fun p => (p.1.overflow, 2 ^ (p.2.log2 - 2)))

/-- The free margins of R104 for a table. -/
def Table.margins (t : Table) : List Nat :=
  [t.freeSlots] ++ (if t.desc.hasRing then [t.desc.ringRecords - t.rings.length] else []) ++
    (t.indexes.zip t.desc.idxs).map (fun p => (2 ^ (p.2.log2 - 2) - p.1.overflow) * 7)

/-- U of a table, in percent (R104). -/
def Table.usage (t : Table) : Nat := (t.ratios.map (fun p => if p.2 = 0 then 0 else 100 * p.1 / p.2)).foldl max 0

/-- U and the table that sets it; of equals the lowest-numbered (R104). -/
def State.usage (s : State) : Nat × Nat :=
  s.ordinary.foldl (fun best p => if best.1 < p.2.usage then (p.2.usage, p.1) else best) (0, 0)

/-- F: the smallest free margin, none with no ordinary table (R104). -/
def State.margin (s : State) : Option Nat :=
  (s.ordinary.flatMap (fun p => p.2.margins)).foldl (fun best m => match best with
    | none => some m
    | some b => some (min b m)) none

end Sys2Proof.Machine
end

