-- ==== Sys2Proof/Machine/TableImage.lean ====
section
/-!
DEFINITION. Table images (R88–R91, R111–R113, R416): signature blocks, the column pages and their encodings, the checks of
TABLE_LOAD, and the image that SNAPSHOT_EXPORT writes.
-/
namespace Sys2Proof.Machine
open Sys2Proof

/-! ## Images in general -/

/-- A run of bytes of an image. -/
def slice (bs : List Byte) (o n : Nat) : List Byte := (bs.drop o).take n

/-- The reason for which a signature block fails, from an image, its signed label and the authorities (R170, R181); 0 is none.
The tests are taken in the order of their reasons. -/
def State.sigBlock (s : State) (label : String) (img : List Byte) : Nat :=
  let n := img.length
  let b := img.drop (n - 1600)
  let sigLen := field b 12 4
  if !((b.take 8 == ascii "STXSIGBK") && field b 8 4 == 1 && decide (1 ≤ sigLen) && decide (sigLen ≤ 1462) &&
      allZero (slice b 112 16) && allZero (slice b 1590 10) && allZero (slice b (128 + sigLen) (1462 - sigLen))) then 2
  else match s.authorityOf (slice b 16 32) with
    | none => 3
    | some pk =>
      let dig := slice b 48 64
      if dig != shake256 64 (img.take (n - 1600)) then 4
      else if falconVerify pk (ascii label ++ dig) (slice b 128 sigLen) then 0 else 5

/-- A signature block over an image body with a signature (R170). -/
def sigBlockBytes (pk : List Byte) (body sig : List Byte) : List Byte :=
  fit 128 (ascii "STXSIGBK" ++ Word.leBytes 4 1 ++ Word.leBytes 4 sig.length ++ keyHash pk ++ shake256 64 body) ++
    fit 1472 sig

/-- A failed check: its status, reason, section index and page or byte offset (R112). -/
structure ImgFail where
  status : Nat
  reason : Nat
  sect : Nat
  off : Nat
  deriving DecidableEq, Repr

/-- CQE bytes 16–31 of a failed check (R112). -/
def ImgFail.info (f : ImgFail) : List Byte := Word.leBytes 4 f.reason ++ Word.leBytes 4 f.sect ++ Word.leBytes 8 f.off

/-- TABLE_IMAGE_BAD for a reason. -/
def badImage (reason sect off : Nat) : ImgFail := { status := 0x0106, reason := reason, sect := sect, off := off }

/-- A directory entry (R111, R165). -/
structure Sect where
  kind : Nat
  num : Nat
  count : Nat
  off : Nat
  len : Nat
  crc : Nat
  deriving DecidableEq, Repr

/-- A directory entry read (R111, R165). -/
def sectOf (b : List Byte) : Sect :=
  { kind := field b 0 1, num := field b 2 2, count := field b 4 4, off := field b 8 8, len := field b 16 8, crc := field b 24 4 }

/-- The directory of an image. -/
def sectsOf (img : List Byte) (n : Nat) : List Sect := (List.range n).map (fun i => sectOf (slice img (128 + 32 * i) 32))

/-- A section's bytes. -/
def Sect.bytes (x : Sect) (img : List Byte) : List Byte := slice img x.off x.len

/-- Whether two sections lie apart. -/
def sectsApart : List Sect → Bool
  | [] => true
  | x :: r => r.all (fun y => !rangesMeet x.off x.len y.off y.len) && sectsApart r

/-! ## Column pages -/

/-- The TYPE byte of a page of a column (R88). -/
def typeByte (c : ColDef) : Nat := if c.typ = 1 then 4 else c.width + (if c.signed then 16 else 0)

/-- ceil(log2 n), at least 1 (R91). -/
def dictBits : Nat → Nat → Nat
  | 0, _ => 1
  | k + 1, n => if n ≤ 2 ^ (k + 1) then (if k = 0 then 1 else dictBits k n) else k + 2

/-- Whether a list of values rises strictly under a column's type (R91). -/
def risesUnder (c : ColDef) : List (List Byte) → Bool
  | a :: b :: r =>
    (if c.typ = 1 then decide (Word.beValue a < Word.beValue b) else decide (c.num a < c.num b)) && risesUnder c (b :: r)
  | _ => true

/-- Whether a list of numbers rises strictly. -/
def risesNat : List Nat → Bool
  | a :: b :: r => decide (a < b) && risesNat (b :: r)
  | _ => true

/-- Values of a width cut from bytes. -/
def cutVals (w : Nat) : Nat → List Byte → List (List Byte)
  | 0, _ => []
  | n + 1, bs => bs.take w :: cutVals w n (bs.drop w)

/-- The values of a page's slots under its encoding, or none where the page is malformed (R90, R91). -/
def pageValues (c : ColDef) (pg : List Byte) : Option (List (List Byte)) :=
  let enc := field pg 5 1
  let b := field pg 7 1
  let rows := field pg 16 4
  let plen := field pg 20 4
  let aux := field pg 26 2
  let aoff := field pg 28 4
  let w := c.size
  let pay := pg.drop 64
  let elems := fun (_ : Unit) => unpack b rows (pay.flatMap bitsLsb)
  match enc with
  | 0 => if plen < rows * w then none else some (cutVals w rows pay)
  | 1 =>
    let dict := cutVals w aux (pg.drop aoff)
    if aoff < 64 ∨ aoff % w ≠ 0 ∨ plen + 64 < aoff + aux * w ∨ plen < (rows * b + 7) / 8 ∨ b ≠ dictBits 16 aux ∨ 8 * w < b then none
    else
      let ix := elems ()
      if risesUnder c dict && ix.all (fun i => decide (i < aux)) then some (ix.map (fun i => dict.getD i [])) else none
  | 2 =>
    let vals := cutVals w aux pay
    let ends := (cutVals 4 aux (pg.drop aoff)).map Word.leValue
    if aoff < 64 ∨ aoff % 4 ≠ 0 ∨ plen < aux * w ∨ plen + 64 < aoff + 4 * aux then none
    else if risesNat ends && (ends.getLast?.getD 0 == rows) then
      some ((List.range rows).map (fun i => match ends.findIdx? (fun e => decide (i < e)) with
        | some j => vals.getD j []
        | none => []))
    else none
  | 3 =>
    if c.signed ∨ plen < (rows * b + 7) / 8 ∨ 8 * w < b ∨ b = 0 then none
    else some ((elems ()).map (fun e => Word.leBytes w e))
  | _ =>
    if plen < (rows * b + 7) / 8 ∨ 8 * w < b ∨ b = 0 then none
    else
      let base := field pg 40 8
      some ((elems ()).map (fun e => Word.leBytes w ((base + e) % 2 ^ (8 * w))))

/-- Whether a page header's fields are those of a column's page that begins at a slot (R88, R89). COLD is set in the loaded pages of a COLD
column only (Assumption 145). -/
def pageHeadOk (d : TableDef) (num first : Nat) (c : ColDef) (pg : List Byte) : Bool :=
  let enc := field pg 5 1
  let flags := field pg 24 2
  let zone := Word.bit 1 flags
  let tail := Word.bit 0 flags
  field pg 60 4 == crc32c (pg.take 60) && field pg 0 2 == d.num && field pg 2 2 == num && field pg 4 1 == 1 &&
    decide (enc ≤ (if c.typ = 1 then 1 else 4)) && field pg 6 1 == typeByte c &&
    (if enc = 0 ∨ enc = 2 then field pg 7 1 == 0 else decide (1 ≤ field pg 7 1) && decide (field pg 7 1 ≤ 64)) &&
    field pg 8 8 == first && decide (0 < field pg 16 4) && decide (field pg 20 4 ≤ 65472) && decide (flags < 8) &&
    (enc == 1 || enc == 2 || (field pg 26 2 == 0 && field pg 28 4 == 0)) &&
    field pg 32 4 == (if c.typ = 1 then c.bytesLen else 0) && field pg 36 4 == 0 &&
    (if enc = 4 then field pg 40 8 == Word.wrap 64 (c.num (slice pg 40 c.size)) else field pg 40 8 == 0) &&
    (!zone || (c.typ == 0 && decide (c.width ≤ 2))) && (!tail || (enc == 0 && !zone && field pg 52 4 == 0)) &&
    Word.bit 2 flags == (c.placement == 2 && !tail)

/-- The pages of a column decoded from a slot on: the values and the pages as they are kept, or the failed check (R112). -/
def colPages (d : TableDef) (num sect : Nat) (c : ColDef) :
    List (List Byte) → Nat → Nat → Except ImgFail (List (List Byte) × List LoadedPage)
  | [], _, _ => .ok ([], [])
  | pg :: r, i, first =>
    if !pageHeadOk d num first c pg then .error (badImage 4 sect i)
    else if !Word.bit 0 (field pg 24 2) && field pg 52 4 != crc32c (slice pg 64 (field pg 20 4)) then .error (badImage 5 sect i)
    else match pageValues c pg with
      | none => .error (badImage 6 sect i)
      | some vals =>
        match colPages d num sect c r (i + 1) (first + field pg 16 4) with
        | .error e => .error e
        | .ok (vs, ps) =>
          .ok (vals ++ vs, { col := num, first := first, count := field pg 16 4, enc := field pg 5 1,
                             zone := if Word.bit 1 (field pg 24 2) then some (field pg 48 4, field pg 56 4) else none,
                             tail := Word.bit 0 (field pg 24 2),
                             cold := if Word.bit 2 (field pg 24 2) then cmpBlock 2 0 0 pg else [] } :: ps)

/-- A column of an image (R111): every page of its section, covering ROW_COUNT slots. A section that is missing is reported at the index after
the last (Assumption 145). -/
def imageColumn (d : TableDef) (img : List Byte) (rows num : Nat) (c : ColDef) (sects : List Sect) :
    Except ImgFail (List (List Byte) × List LoadedPage) :=
  match sects.findIdx? (fun x => x.kind == 1 && x.num == num) with
  | none => .error (badImage 4 sects.length 0)
  | some i =>
    let x := sects.getD i (sectOf [])
    match colPages d num i c (cutVals 65536 x.count (x.bytes img)) 0 0 with
    | .error e => .error e
    | .ok (vs, ps) => if vs.length = rows then .ok (vs, ps) else .error (badImage 4 i x.count)

/-- Every column of an image, ring columns empty. -/
def imageColumns (d : TableDef) (img : List Byte) (rows : Nat) (sects : List Sect) :
    List (ColDef × Nat) → Except ImgFail (List (List (List Byte)) × List LoadedPage)
  | [] => .ok ([], [])
  | (c, k) :: r =>
    if c.isRing then
      match imageColumns d img rows sects r with
      | .error e => .error e
      | .ok (vs, ps) => .ok (List.replicate rows [] :: vs, ps)
    else match imageColumn d img rows k c sects with
      | .error e => .error e
      | .ok (v, p) => match imageColumns d img rows sects r with
        | .error e => .error e
        | .ok (vs, ps) => .ok (v :: vs, p ++ ps)

/-- One block of a ring record (R96), or none where its header is malformed. -/
def ringOf (num : Nat) (c : ColDef) (b : List Byte) : Option Ring :=
  let fill := field b 1 1
  let head := field b 0 1
  if c.ringW < fill ∨ c.ringW ≤ head ∨ field b 2 6 ≠ 0 then none
  else some { col := num, head := head, pairs := (List.range fill).map (fun i =>
    let o := 8 + 16 * ((head + i) % c.ringW)
    (field b o 8, slice b (o + 8) c.size)) }

/-- A ring record (R96). -/
def ringRecOf : List (Nat × ColDef) → List Byte → Option (List Ring)
  | [], _ => some []
  | (k, c) :: r, b =>
    match ringOf k c b, ringRecOf r (b.drop (8 + 16 * c.ringW)) with
    | some x, some xs => some (x :: xs)
    | _, _ => none

/-! ## Indexes of an image -/

/-- A bucket's occupied entries, and its link, if its layout is right (R92). -/
def bucketOf (b : List Byte) : Option (List (Nat × Nat) × Option Nat) :=
  let h := field b 0 8
  let n := h % 8
  if Word.bits 31 4 h ≠ 0 ∨ !allZero (b.drop (8 + 8 * n)) then none
  else some ((List.range n).map (fun i => let e := field b (8 + 8 * i) 8; (Word.bits 63 48 e, e % 2 ^ 48)),
    if Word.bit 3 h then some (h / 2 ^ 32) else none)

/-- A chain of an index image, followed through the overflow section (R94). -/
def chainOf (above : List Byte) : Nat → List Byte → Option (List (List (Nat × Nat)))
  | 0, _ => none
  | n + 1, b =>
    match bucketOf b with
    | none => none
    | some (es, none) => some [es]
    | some (es, some k) =>
      if above.length < 64 * (k + 1) then none
      else (chainOf above n (slice above (64 * k) 64)).map (fun r => es :: r)

/-- The chains of an index image by bucket, empty ones left out, or the first bucket whose chain is malformed. -/
def chainsOf (prim above : List Byte) (buckets : Nat) : Except Nat (List (Nat × List (List (Nat × Nat)))) :=
  (List.range buckets).foldr (fun i acc =>
    match acc, chainOf above (above.length / 64 + 1) (slice prim (64 * i) 64) with
    | .ok r, some c => .ok (if c.flatten.isEmpty then r else (i, c) :: r)
    | _, none => .error i
    | .error j, _ => .error j) (.ok [])

/-- An index built from the loaded rows, in row order (R111). -/
def builtIndex (i : IdxDef) (vs : List Version) : IndexState :=
  vs.foldl (fun x v =>
    let h := indexHash i.seed (i.keyOf v)
    let b := hashBucket i.log2 h
    x.setChain b (chainInsert (x.chain b) (hashTag h, v.row))) { chains := [] }

/-- The first bucket of a supplied index whose chain does not hold exactly one right entry for each row of the bucket (R94, R112). -/
def indexFault (i : IdxDef) (x : IndexState) (vs : List Version) : Option Nat :=
  let hashed := vs.map (fun v => (indexHash i.seed (i.keyOf v), v.row))
  (List.range (2 ^ i.log2)).find? (fun b =>
    let es := (x.chain b).flatten
    let mine := hashed.filter (fun p => hashBucket i.log2 p.1 == b)
    es.length != mine.length || !mine.all (fun p => es.filter (fun e => e.2 == p.2) == [(hashTag p.1, p.2)]))

/-- A key that two rows share, if any. -/
def dupKey : List (List Byte) → Option (List Byte)
  | [] => none
  | k :: r => if r.contains k then some k else dupKey r

/-- The indexes of an image, supplied or built, or the failed check with the byte offset of its bucket (R111, R112). An index without a section is
reported at the index after the last; one that would need more overflow buckets than R92 gives fails as one whose entries are missing
(Assumption 145). -/
def imageIndexes (img : List Byte) (sects : List Sect) (vs : List Version) :
    List (IdxDef × Nat) → Except ImgFail (List IndexState)
  | [] => .ok []
  | (d, k) :: r =>
    let si := (sects.findIdx? (fun x => x.kind == 2 && x.num == k)).getD sects.length
    let one : Except ImgFail IndexState :=
      match sects.find? (fun x => x.kind == 2 && x.num == k) with
      | none =>
        let x := builtIndex d vs
        if 2 ^ (d.log2 - 2) < x.overflow then .error (badImage 7 si 0) else .ok x
      | some p =>
        let above := match sects.find? (fun x => x.kind == 3 && x.num == k) with
          | some o => o.bytes img
          | none => []
        if p.len ≠ 64 * 2 ^ d.log2 ∨ 64 * 2 ^ (d.log2 - 2) < above.length then .error (badImage 7 si 0)
        else match chainsOf (p.bytes img) above (2 ^ d.log2) with
          | .error b => .error (badImage 7 si (64 * b))
          | .ok cs => match indexFault d { chains := cs } vs with
            | none => .ok { chains := cs }
            | some b => .error (badImage 7 si (64 * b))
    match one with
    | .error e => .error e
    | .ok x =>
      match if d.unique then dupKey (vs.map d.keyOf) else none with
      | some key => .error (badImage 8 si (64 * hashBucket d.log2 (indexHash d.seed key)))
      | none => match imageIndexes img sects vs r with
        | .error e => .error e
        | .ok xs => .ok (x :: xs)

/-! ## TABLE_LOAD -/

/-- The rows of an image: column values turned into rows. -/
def rowsOfCols (rows : Nat) (cols : List (List (List Byte))) : List (List (List Byte)) :=
  (List.range rows).map (fun r => cols.map (fun c => c.getD r []))

/-- Whether a table directory's entries are in order: kinds, numbers, reserved bytes, alignment, counts, and nothing overlaps (R111). -/
def tableDirOk (d : TableDef) (rows : Nat) (img : List Byte) (sects : List Sect) : Bool :=
  let n := sects.length
  let head : Sect := { kind := 0, num := 0, count := 0, off := 0, len := 128 + 32 * n, crc := 0 }
  let sig : Sect := { kind := 0, num := 0, count := 0, off := img.length - 1600, len := 1600, crc := 0 }
  sects.zipIdx.all (fun p =>
    let x := p.1
    let raw := slice img (128 + 32 * p.2) 32
    decide (1 ≤ x.kind) && decide (x.kind ≤ 4) && field raw 1 1 == 0 && field raw 28 4 == 0 &&
      decide (x.off + x.len ≤ img.length) && x.off % (if x.kind = 1 then 65536 else 64) == 0 &&
      (match x.kind with
        | 1 => x.len == 65536 * x.count && (match d.col x.num with
          | some c => !c.isRing
          | none => false)
        | 4 => x.num == 0 && x.count == rows && d.hasRing
        | _ => x.len == 64 * x.count && decide (x.num < d.idxs.length))) &&
    decide ((sects.filter (fun x => x.kind == 1 || x.kind == 4)).length ≤ 1024) &&
    decide ((sects.filter (fun x => x.kind == 2 || x.kind == 3)).length ≤ 16) &&
    sectsApart (head :: sig :: sects) &&
    (sects.map (fun x => (x.kind, x.num))).eraseDups.length == n

/-- The table that a TABLE_LOAD leaves (R112, R113), with the versions' BEGIN_CUE still to be set, or the failed check. -/
def State.tableImage (s : State) (t : Table) (img : List Byte) : Except ImgFail Table :=
  let d := t.desc
  let n := field img 14 2
  let rows := field img 16 8
  let refused := fun (r : Nat) => ({ status := 0x0401, reason := r, sect := 0, off := 0 } : ImgFail)
  if img.length < 128 then .error (refused 2)
  else if field img 8 2 ≠ 0x9192 ∨ field img 10 1 ≠ 0xB0 then .error (refused 1)
  else if field img 24 8 ≠ img.length ∨ img.length < 1760 then .error (refused 2)
  else if s.sigBlock "STXTBLI1" img ≠ 0 then .error (refused (s.sigBlock "STXTBLI1" img))
  else if field img 124 4 ≠ crc32c (img.take 124) ∨ img.take 8 ≠ ascii "STXTBLIM" ∨ field img 11 1 ≠ 1 ∨
      field img 12 2 ≠ d.num ∨ n = 0 ∨ 1040 < n then .error (badImage 1 0 0)
  else
    let sects := sectsOf img n
    if !tableDirOk d rows img sects then .error (badImage 1 0 0)
    else if slice img 32 64 ≠ shake256 64 (slice img 128 (32 * n) ++ sects.flatMap (fun x => x.bytes img)) then
      .error (badImage 2 0 0)
    else match sects.findIdx? (fun x => x.crc != crc32c (x.bytes img)) with
      | some i => .error (badImage 2 i 0)
      | none =>
        if slice img 96 8 ≠ d.check then .error (badImage 3 0 0)
        else if d.maxSlots < rows ∨ (d.hasRing && decide (d.ringRecords < rows)) then
          .error { status := 0x0202, reason := 0, sect := 0, off := 0 }
        else match imageColumns d img rows sects d.cols.zipIdx with
          | .error e => .error e
          | .ok (cols, pages) =>
            let ringSect := sects.findIdx? (fun x => x.kind == 4)
            let recs : Except ImgFail (List (List Ring)) :=
              if !d.hasRing then .ok []
              else match ringSect with
                | none => .error (badImage 4 n 0)
                | some i =>
                  let x := sects.getD i (sectOf [])
                  if x.len ≠ rows * d.ringRecBytes then .error (badImage 4 i (min x.len (rows * d.ringRecBytes)))
                  else
                    let all := (cutVals d.ringRecBytes rows (x.bytes img)).map (ringRecOf d.rings)
                    match all.findIdx? Option.isNone with
                    | some k => .error (badImage 4 i (k * d.ringRecBytes))
                    | none => .ok (all.filterMap (fun r => r))
            match recs with
            | .error e => .error e
            | .ok rr =>
              let vs := (rowsOfCols rows cols).zipIdx.map (fun p => ({ row := p.2, beg := some 0, fin := none, prev := none,
                                                                       ring := if d.hasRing then some p.2 else none, cells := p.1 } : Version))
              match imageIndexes img sects vs d.idxs.zipIdx with
              | .error e => .error e
              | .ok ix =>
                .ok { desc := d, slots := vs.map (fun v => (v.row, some v)), newest := vs.map (fun v => (v.row, some v.row)),
                      free := [], used := rows, nextRow := rows, rings := rr.zipIdx.map (fun p => (p.2, p.1)), indexes := ix,
                      pages := pages, loadedEnd := rows }

/-- A loaded table's versions take BEGIN_CUE = n − 1 (R113). -/
def Table.begun (t : Table) (cue : Nat) : Table :=
  { t with slots := t.slots.map (fun p => (p.1, p.2.map (fun v => { v with beg := some (cue - 1) }))) }

/-! ## SNAPSHOT_EXPORT -/

/-- A plain page of a column's values from a slot (R88, R89). -/
def plainPage (d : TableDef) (num first : Nat) (c : ColDef) (vals : List (List Byte)) : List Byte :=
  let pay := vals.flatten
  let head := Word.leBytes 2 d.num ++ Word.leBytes 2 num ++ [1#8, 0#8] ++ Word.leBytes 1 (typeByte c) ++ [0#8] ++
    Word.leBytes 8 first ++ Word.leBytes 4 vals.length ++ Word.leBytes 4 pay.length ++ Word.leBytes 2 (if c.placement = 2 then 4 else 0) ++
    Word.leBytes 2 0 ++
    Word.leBytes 4 0 ++ Word.leBytes 4 (if c.typ = 1 then c.bytesLen else 0) ++ List.replicate 16 0 ++
    Word.leBytes 4 (crc32c pay) ++ Word.leBytes 4 0
  fit 65536 (head ++ Word.leBytes 4 (crc32c head) ++ pay)

/-- The plain pages of a column. -/
def plainPages (d : TableDef) (num : Nat) (c : ColDef) : Nat → Nat → List (List Byte) → List (List Byte)
  | 0, _, _ => []
  | n + 1, first, vals =>
    if vals.isEmpty then []
    else
      let k := plainPerPage c.size
      plainPage d num first c (vals.take k) :: plainPages d num c n (first + k) (vals.drop k)

/-- A block of a ring record: HEAD, FILL, and the pair at every slot position, 0 where it holds none (R96). -/
def Ring.bytes (c : ColDef) (g : Ring) : List Byte :=
  let w := c.ringW
  Word.leBytes 1 g.head ++ Word.leBytes 1 g.pairs.length ++ List.replicate 6 (0 : Byte) ++
    (List.range w).flatMap (fun i => match g.pairs[(i + w - g.head) % w]? with
      | some q => Word.leBytes 8 q.1 ++ Word.leBytes 8 (Word.wrap 64 (c.num q.2))
      | none => List.replicate 16 (0 : Byte))

/-- A ring record written, block by block in descriptor order (R96). -/
def ringRecBytes (d : TableDef) (rs : List Ring) : List Byte :=
  d.rings.flatMap (fun p => ((rs.find? (fun r => r.col == p.1)).getD { col := p.1, head := 0, pairs := [] }).bytes p.2)

/-- Sections laid one after another at multiples of an alignment: (kind, number, count, alignment, bytes) with their offsets. -/
def placeSects : Nat → List (Nat × Nat × Nat × Nat × List Byte) → List (Nat × (Nat × Nat × Nat × Nat × List Byte))
  | _, [] => []
  | o, x :: r =>
    let a := x.2.2.2.1
    let p := Word.ceilDiv o a * a
    (p, x) :: placeSects (p + x.2.2.2.2.length) r

/-- The bytes of placed sections from an offset on. -/
def sectBytes : Nat → List (Nat × (Nat × Nat × Nat × Nat × List Byte)) → List Byte
  | _, [] => []
  | o, (p, x) :: r => List.replicate (p - o) 0 ++ x.2.2.2.2 ++ sectBytes (p + x.2.2.2.2.length) r

/-- The image bytes of a table at a snapshot, without the signature block: every visible row in row order takes the next slot,
columns are plain, and indexes are left to the loader (R111, R416). -/
def Table.snapshotBody (t : Table) (s : Nat) : List Byte :=
  let d := t.desc
  let vs := t.rowsAt s
  let cols := (d.cols.zipIdx.filter (fun p => !p.1.isRing)).map (fun p =>
    let pg := plainPages d p.2 p.1 (vs.length + 1) 0 (vs.map (fun v => v.cell p.2))
    (1, p.2, pg.length, 65536, pg.flatten))
  let rings := if d.hasRing then [(4, 0, vs.length, 64, vs.flatMap (fun v => ringRecBytes d (t.ringsOf v.row)))] else []
  let all := cols ++ rings
  let placed := placeSects (128 + 32 * all.length) all
  let dir := placed.flatMap (fun p =>
    Word.leBytes 2 p.2.1 ++ Word.leBytes 2 p.2.2.1 ++ Word.leBytes 4 p.2.2.2.1 ++ Word.leBytes 8 p.1 ++
      Word.leBytes 8 p.2.2.2.2.2.length ++ Word.leBytes 4 (crc32c p.2.2.2.2.2) ++ Word.leBytes 4 0)
  let rest := dir ++ sectBytes (128 + 32 * all.length) placed
  let head := ascii "STXTBLIM" ++ Word.leBytes 2 0x9192 ++ [0xB0#8, 0x01#8] ++ Word.leBytes 2 d.num ++
    Word.leBytes 2 all.length ++ Word.leBytes 8 vs.length ++ Word.leBytes 8 (128 + rest.length + 1600) ++
    shake256 64 (dir ++ all.flatMap (fun x => x.2.2.2.2)) ++ d.check ++ List.replicate 20 0
  head ++ Word.leBytes 4 (crc32c head) ++ rest

end Sys2Proof.Machine
end

