-- ==== Sys2Proof/Machine/Strike.lean ====
section
/-!
DEFINITION. The strike sweep (R102–R108, R136): pins and the oldest of them, the passes that reclaim dead versions, and the stage
and throttle limit that each start instant sets.
-/
namespace Sys2Proof.Machine
open Sys2Proof

/-- The smallest pinned snapshot, if any (R108). -/
def State.oldestPin (s : State) : Option Nat :=
  s.strike.pins.foldl (fun b p => match b with
    | none => some p.2
    | some x => some (min x p.2)) none

/-- S_old: the smallest pinned snapshot or the last committed cue, whichever is smaller (R102). -/
def State.sOld (s : State) : Nat :=
  match s.oldestPin with
  | some p => min p s.cue.committed
  | none => s.cue.committed

/-- A snapshot is pinned for a holder (R108). -/
def State.pin (s : State) (h : PinHolder) (snap : Nat) : State :=
  { s with strike := { s.strike with pins := s.strike.pins ++ [(h, snap)] } }

/-- A holder's pin is dropped (R108). -/
def State.unpin (s : State) (h : PinHolder) : State :=
  { s with strike := { s.strike with pins := s.strike.pins.filter (fun p => decide (p.1 ≠ h)) } }

/-- Whether a scan lane job on a table runs (R136). -/
def State.scanning (s : State) (t : Nat) : Bool :=
  (List.range 22).any (fun m => match (s.unit (pageOf .scan m)).run with
    | some r => field r.job.desc 0 2 == t
    | none => false)

/-- Whether a loaded page is not plain or is COLD, so that its slots are freed together (R103). -/
def Table.hardPage (t : Table) (p : LoadedPage) : Bool :=
  !p.tail && (p.enc != 0 || (match t.desc.col p.col with
    | some c => c.placement == 2
    | none => false))

/-- Whether a slot of a loaded page holds no version. -/
def Table.pageDead (t : Table) (p : LoadedPage) : Bool :=
  (List.range p.count).all (fun i => (t.version (p.first + i)).isNone)

/-- The plain tail pages that a released page's slots are rebuilt as, `k` slots each (R103). -/
def LoadedPage.rebuilt (p : LoadedPage) (k : Nat) : List LoadedPage :=
  (List.range (Word.ceilDiv p.count k)).map (fun i =>
    { col := p.col, first := p.first + i * k, count := min k (p.count - i * k), enc := 0, zone := none, tail := true, cold := [] })

/-- One dead version goes: index entries and ring record with the newest of its row, then the version (R102). -/
def Table.strikeSlot (t : Table) (slot : Nat) : Table :=
  match t.version slot with
  | none => t
  | some v =>
    let t1 := if t.newestOf v.row = some slot then
        ((t.onChains v (fun _ c => chainRemove c slot)).setRings v.row []).setNewest v.row none
      else t
    t1.setVersion slot none

/-- The versions a pass finds dead (R102). -/
def Table.deadSlots (t : Table) (sOld : Nat) : List Nat :=
  t.slots.filterMap (fun p => match p.2 with
    | some v => (match v.fin with
      | some e => if e ≤ sOld then some p.1 else none
      | none => none)
    | none => none)

/-- A pass over a table in a cue; `held` keeps its loaded pages (R102, R103, R136). The number of slots it frees. -/
def Table.strike (t : Table) (sOld cue : Nat) (held : Bool) : Table × Nat :=
  let dead := t.deadSlots sOld
  let t1 := dead.foldl (fun x i => x.strikeSlot i) t
  let hard := t1.pages.filter t1.hardPage
  let waiting := hard.flatMap (fun p => (List.range p.count).map (fun i => p.first + i))
  let covers := fun (p : LoadedPage) (i : Nat) => decide (p.first ≤ i) && decide (i < p.first + p.count)
  let may := fun (i : Nat) => (t1.version i).isNone && !t1.free.any (fun f => f.1 == i) &&
    hard.all (fun p => !covers p i || (!held && t1.pageDead p))
  let freed := ((dead ++ waiting).eraseDups.filter may)
  let t2 := { t1 with
    free := (t1.free ++ freed.map (fun i => (i, cue))).mergeSort (fun a b => decide (a.1 ≤ b.1)),
    pages := t1.pages.flatMap (fun p => if t1.hardPage p && !held && t1.pageDead p then
        p.rebuilt (match t1.desc.col p.col with
          | some c => plainPerPage c.size
          | none => p.count)
      else [p]) }
  (t2, freed.length)

/-- Whether a pass is due and may start: in stage 0 after INTERVAL cues, in every stage only once S_old has advanced (R102, R105). -/
def State.passDue (s : State) : Bool :=
  !s.strike.running && !s.ordinary.isEmpty && decide (s.strike.lastS < s.sOld) &&
    (decide (1 ≤ s.strike.stage) || decide (s.fld strikePage 0x044 7 0 ≤ s.strike.since))

/-- STRIKE_PASS_START (R102). -/
def execStrikePassStart (s : State) : Host.Outcome State Fault Refusal :=
  .next (if s.passDue then
    { s with strike := { s.strike with running := true, lastS := s.sOld, since := 0 } }.setFld strikePage 0x00C 8 8 1
  else s)

/-- STRIKE_PASS_DONE: every version that is dead for the S_old of the pass's start is reclaimed (R102, R116). -/
def execStrikePassDone (beats : Word32) (s : State) : Host.Outcome State Fault Refusal :=
  .next (if !s.strike.running then s
  else
    let s1 := s.ordinary.foldl (fun t p =>
      let (x, n) := p.2.strike t.strike.lastS t.cue.number (t.scanning p.1)
      (t.setTable p.1 (some x)).addReg strikePage 0x05C n) s
    let s2 := ({ s1 with strike := { s1.strike with running := false } }.setFld strikePage 0x00C 8 8 0).addReg strikePage 0x064 1
    (s2.setReg strikePage 0x068 beats).evt strikePage 3)

/-! ## The stage -/

/-- The reserve limit, none while unbounded (R104). -/
def State.reserveLimit (s : State) : Option Nat :=
  let w := wmaxOf s.pipes
  match s.margin with
  | some f => if w = 0 then none else some (f / w)
  | none => none

/-- A throttle stage's limit, without the reserve limit (R105). -/
def stageLimit (admits stage : Nat) : Nat :=
  match stage with
  | 0 => admits
  | 1 => admits
  | 2 => max 1 (admits / 2)
  | _ => max 1 (admits / 4)

/-- Whether a stage's condition holds, the previous stage's hysteresis included (R105, R106). -/
def State.stageHolds (s : State) (u : Nat) (k : Nat) : Bool :=
  let t := match k with
    | 1 => s.fld strikePage 0x040 7 0
    | 2 => s.fld strikePage 0x040 15 8
    | _ => s.fld strikePage 0x040 23 16
  let reserve := match s.reserveLimit with
    | some r => k == 3 && decide (r < max 1 (s.cue.par.admits / 2))
    | none => false
  decide (t ≤ u) || reserve || (decide (k ≤ s.strike.stage) && decide (t ≤ u + 5))

/-- The stage and the throttle limit set at a start instant, or, `held`, at a held instant, which is no cue of STRIKE.INTERVAL (R63, R105,
R106). -/
def State.setStage (s : State) (held : Bool) : State :=
  let u := s.usage.1
  let st := if s.stageHolds u 3 then 3 else if s.stageHolds u 2 then 2 else if s.stageHolds u 1 then 1 else 0
  let admits := s.cue.par.admits
  let base := stageLimit admits st
  let lim := match s.reserveLimit with
    | some r => min base r
    | none => base
  let byReserve := decide (lim < base)
  let old := s.strike.stage
  let s1 := { s with strike := { s.strike with stage := st, limit := lim, reserveSets := byReserve, since := s.strike.since + (if held then 0 else 1) } }
  let s2 := ((s1.setFld strikePage 0x00C 11 10 st).setFld strikePage 0x00C 9 9 (if byReserve then 1 else 0)).setReg strikePage
    0x048 (BitVec.ofNat 32 lim)
  let s3 := s2.setFld cuePage 0x00C 12 12 (if lim < admits then 1 else 0)
  let s4 := if old < st then s3.evt strikePage 0 else if st < old then s3.evt strikePage 1 else s3
  if byReserve then s4.evt strikePage 4 else s4

/-- STRIKE.CTL.SOFT_RESET: the thresholds and the interval at their reset values, the counters cleared (the STRIKE page). -/
def State.strikeSoftReset (s : State) : State :=
  ((s.setReg strikePage 0x040 0x5A5046#32).setReg strikePage 0x044 0x10#32).zeroRegs strikePage [0x05C, 0x060, 0x064]

/-- STRIKE_SOFT_RESET. -/
def execStrikeSoftReset (s : State) : Host.Outcome State Fault Refusal := .next s.strikeSoftReset

end Sys2Proof.Machine
end

