-- ==== Sys2Proof/Machine/Scan.lean ====
section
/-!
DEFINITION. The scan lanes (R127–R137): descriptors, terms, zones, the pages a lane processes, its records and its done blocks.
-/
namespace Sys2Proof.Machine
open Sys2Proof

/-- The SCAN page of a lane. -/
def scanPage (m : Nat) : Nat := pageOf .scan m

/-- The ERR_CODE of a job status on the SCAN, PROBE and FCODEC pages (R139). -/
def laneErr (st : Nat) : Option Nat :=
  if st = stDescBad then some 0x0101 else if st = 0x0011 then some 0x0102 else if st = stAccess then some 0x0103
  else if st = stSubmitFull then some 0x0104 else if st = 0x0015 then some 0x0105 else if st = 0x0016 then some 0x0106 else none

/-- The scan lanes as units with descriptors (R128, R132, R139). -/
def scanKind : UnitKind :=
  { descLen := 384, doneAt := 48, tagAt := 56, blockLen := 64, blockTag := 8, errAt := 48, depth := 16, jobsDone := some 0x054, errOf := laneErr }

/-- A term of a scan job (R129). -/
def termOf (d : List Byte) (k : Nat) : List Byte := (d.drop (128 + 32 * k)).take 32

/-- Whether a scan descriptor is refused with DESC_BAD (R128, R129). -/
def scanDescBad (d : List Byte) : Bool :=
  decide (1023 < field d 2 2) || decide (3 < field d 4 1) || decide (8 < field d 5 1) || decide (3 < field d 6 1) ||
    field d 7 1 != 0 || field d 40 4 % 64 != 0 || field d 44 4 != 0 ||
    !allZero ((d.drop 120).take 8) ||
    (List.range (field d 5 1)).any (fun k =>
      let t := termOf d k
      decide (10 < field t 0 1) || !allZero ((t.drop 2).take 6) ||
        (field t 0 1 == 7 && (field t 1 1 == 0 || decide (16 < field t 1 1))))

/-- Whether a lane operation is true of a value extended to 64 bits, with A, B and the values of an IN (R129). -/
def termHolds (signed : Bool) (op a b : Nat) (set : List Nat) (v : Nat) : Bool :=
  let num := fun (x : Nat) => if signed then Word.signed 64 x else (x : Int)
  match op with
  | 0 => v == a
  | 1 => v != a
  | 2 => decide (num v < num a)
  | 3 => decide (num v ≤ num a)
  | 4 => decide (num a < num v)
  | 5 => decide (num a ≤ num v)
  | 6 => decide (num a ≤ num v) && decide (num v ≤ num b)
  | 7 => set.contains v
  | 8 => Nat.land v a == a
  | 9 => Nat.land v a != 0
  | _ => Nat.land v a == 0

/-- Whether a term of a descriptor is true of a value (R129). -/
def termTrue (signed : Bool) (t : List Byte) (set : List Nat) (v : Nat) : Bool :=
  termHolds signed (field t 0 1) (field t 8 8) (field t 16 8) set v

/-- The set of an IN term, read from memory. -/
def State.termSet (s : State) (t : List Byte) : List Nat :=
  if field t 0 1 = 7 then (List.range (field t 1 1)).map (fun i => s.valAt (field t 24 8 + 8 * i) 8) else []

/-- COMBINE at an index (R130). -/
def combineBit (d : List Byte) (i : Nat) : Bool := Word.bit (i % 8) (field d (64 + i / 8) 1)

/-- The index of a list of term results. -/
def termIndex : List Bool → Nat
  | [] => 0
  | b :: r => (if b then 1 else 0) + 2 * termIndex r

/-- The term indices that some value of a zone may give (R130): interval terms change only near their bounds, and bit terms may
be either. -/
def zoneIndices (signed : Bool) (terms : List (List Byte × List Nat)) (lo hi : Int) : List Nat :=
  let enc := fun (x : Int) => Word.wrap 64 x
  let num := fun (x : Nat) => if signed then Word.signed 64 x else (x : Int)
  let marks := terms.flatMap (fun p => (field p.1 8 8 :: field p.1 16 8 :: p.2).flatMap (fun x => [num x - 1, num x, num x + 1]))
  let pts := lo :: hi :: marks.filter (fun x => decide (lo ≤ x) && decide (x ≤ hi))
  pts.flatMap (fun x =>
    (terms.foldr (fun p acc =>
      if 8 ≤ field p.1 0 1 then acc.flatMap (fun r => [false :: r, true :: r])
      else acc.map (fun r => termTrue signed p.1 p.2 (enc x) :: r)) [[]]).map termIndex)

/-! ## The pages of a job -/

/-- The pages a table's column has: its loaded pages, then plain pages, each with all the slots it can hold below
MAX_SLOTS, to the last slot ever given out (R88, Assumption 15). -/
def Table.colPageList (t : Table) (col : Nat) (c : ColDef) : List LoadedPage :=
  let k := plainPerPage c.size
  let loaded := t.pages.filter (fun p => p.col == col)
  loaded ++ (List.range (Word.ceilDiv (t.used - t.loadedEnd) k)).map (fun i =>
    { col := col, first := t.loadedEnd + i * k, count := min k (t.desc.maxSlots - (t.loadedEnd + i * k)), enc := 0, zone := none,
      tail := true, cold := [] })

/-- The lane of a column's page (R100). -/
def laneOf (c : ColDef) (col p : Nat) : Nat := if c.placement = 0 then 16 + (p + col) % 6 else (p + col) % 16

/-- The zone bounds of a page under its type (R89). -/
def zoneBounds (c : ColDef) (z : Nat × Nat) : Int × Int :=
  let f := fun (x : Nat) => if c.signed then Word.signed (8 * c.size) x else ((x % 2 ^ (8 * c.size) : Nat) : Int)
  (f z.1, f z.2)

/-- The system columns a job reads beside its own, with the page lists that a listed job names for them: BEGIN_CUE and END_CUE under VISIBLE,
ROW_ID for forms 1 and 2 (R128, R130). -/
def companions (d : List Byte) : List (Nat × Nat) :=
  (if Word.bit 0 (field d 6 1) then [(0, field d 96 8), (1, field d 104 8)] else []) ++
    (if field d 4 1 = 1 ∨ field d 4 1 = 2 then [(2, field d 112 8)] else [])

/-- The pages of a system column of a table that cover a run of slots: the module keeps them plain, 8,184 slots each (R82, R113). -/
def sysPages (first count : Nat) : List Nat :=
  (List.range ((first + count - 1) / 8184 - first / 8184 + 1)).map (fun i => first / 8184 + i)

/-- The controller of a page of system column `k`, whose column number counts as 1,024 + k (R100). -/
def sysLane (k p : Nat) : Nat := 16 + (p + (1024 + k)) % 6

/-- The companion bytes that a page of a table's own lists reads (R130, R137). -/
def companionBytes (d : List Byte) (first count : Nat) : Nat := 65536 * (sysPages first count).length * (companions d).length

/-- The controllers that a page of a table's own lists and its companion pages lie on (R100). -/
def scanLanes (d : List Byte) (m first count : Nat) : List Nat :=
  m :: (companions d).flatMap (fun k => (sysPages first count).map (sysLane k.1))

/-- Whether one of several controllers is frozen (R265). -/
def State.anyFrozen (s : State) (ms : List Nat) : Bool := ms.any (fun m => (s.memc m).unit == 4)

/-- What a lane reads of one slot: BEGIN_CUE ≤ s < END_CUE, ROW_ID and the value. -/
structure ScanSlot where
  vis : Bool
  row : Nat
  val : Nat

/-- The slots of a page of a table's own lists. What a slot without a version holds is open: free values (Assumption 3). -/
def State.ownSlots (s : State) (t : Table) (col : Nat) (c : ColDef) (snap first count : Nat) : List ScanSlot :=
  (List.range count).map (fun i =>
    match t.version (first + i) with
    | some v => { vis := v.visible snap, row := v.row, val := Word.wrap 64 (c.num (v.cell col)) }
    | none => { vis := false, row := (Config.freeWord (s.fresh + 2 * (first + i))).toNat,
                val := (Config.freeWord (s.fresh + 2 * (first + i) + 1)).toNat })

/-- The value of a slot in a page list of 8-byte system column pages, if a page covers it (R88, R130). -/
def State.listValue (s : State) (table col list slot : Nat) : Nat → Nat → Option Nat
  | 0, _ => none
  | n + 1, i =>
    let pa := s.valAt (list + 8 * i) 8
    let pg := s.bytesAt pa 64
    if pa % 65536 ≠ 0 ∨ field pg 60 4 ≠ crc32c (pg.take 60) ∨ field pg 0 2 ≠ table ∨ field pg 2 2 ≠ col then none
    else if slot < field pg 8 8 then none
    else if slot < field pg 8 8 + field pg 16 4 then
      let c : ColDef := { typ := 0, width := 3, signed := false, writable := false, placement := 0, bytesLen := 0, ringW := 0, ringSpan := 0 }
      (pageValues c (s.bytesAt pa 65536)).map (fun vs => Word.leValue (vs.getD (slot - field pg 8 8) []))
    else s.listValue table col list slot n (i + 1)

/-- The slots of a page given by address, or none where a header or coverage is wrong (R128, R133). -/
def State.listSlots (s : State) (d pg : List Byte) (c : ColDef) : Option (List ScanSlot) :=
  let first := field pg 8 8
  let fuel := 16 * field d 24 4 + 16
  let form := field d 4 1
  match pageValues c pg with
  | none => none
  | some vals => vals.zipIdx.mapM (fun p =>
      let slot := first + p.2
      let sys := fun (col list : Nat) => s.listValue (field d 0 2) col list slot fuel 0
      let vis := if Word.bit 0 (field d 6 1) then
          match sys 0xFFF0 (field d 96 8), sys 0xFFF1 (field d 104 8) with
          | some b, some e => some (decide (b ≤ field d 8 8) && decide (field d 8 8 < e))
          | _, _ => none
        else some false
      let row := if form = 1 ∨ form = 2 then sys 0xFFF2 (field d 112 8) else some 0
      match vis, row with
      | some v, some r => some { vis := v, row := r, val := Word.wrap 64 (c.num p.1) }
      | _, _ => none)

/-! ## Processing -/

/-- What a scan job has done so far (R131, R132). -/
structure ScanAcc where
  pages : Nat
  selected : Nat
  out : List Byte
  skipped : Nat
  bytes : Nat
  fin : Option (Nat × Nat × Nat)

/-- The record of a page (R131). -/
def scanRecord (d : List Byte) (idx first count : Nat) (skipped : Bool) (sel : List (Bool × ScanSlot)) : List Byte :=
  let hits := sel.filter (fun p => p.1)
  let body := match field d 4 1 with
    | 0 => if skipped then List.replicate (8 * Word.ceilDiv count 64) 0
      else fit (8 * Word.ceilDiv count 64) (bitsToBytes (sel.map Prod.fst))
    | 1 => hits.flatMap (fun p => Word.leBytes 8 p.2.row ++ Word.leBytes 8 p.2.val)
    | _ => hits.flatMap (fun p => Word.leBytes 8 p.2.row)
  let r := Word.leBytes 8 first ++ Word.leBytes 4 count ++ Word.leBytes 4 hits.length ++ Word.leBytes 4 idx ++
    Word.leBytes 2 (field d 4 1) ++ Word.leBytes 2 0 ++ Word.leBytes 8 body.length ++ body
  r ++ List.replicate ((64 - r.length % 64) % 64) 0

/-- One page processed (R130, R131). A record that does not fit ends the job with OUT_FULL, one that `bad` cannot be written with its status and
address, ahead of the page (R133, R135). -/
def scanStep (bad : Nat → Nat → Option (Nat × Nat)) (d : List Byte) (signed : Bool) (terms : List (List Byte × List Nat)) (idx first count : Nat) (skip : Bool)
    (bytes : Nat) (slots : List ScanSlot) (a : ScanAcc) : ScanAcc :=
  let visible := Word.bit 0 (field d 6 1)
  let sel := slots.map (fun x =>
    (combineBit d (termIndex (terms.map (fun t => termTrue signed t.1 t.2 x.val))) && (!visible || x.vis), x))
  let sel1 := if skip then [] else sel
  let rec_ := if field d 4 1 = 3 then [] else scanRecord d idx first count skip sel1
  if field d 40 4 < a.out.length + rec_.length then { a with fin := some (stOutFull, idx, 0) }
  else match bad (field d 32 8 + a.out.length) rec_.length with
  | some f => { a with fin := some (f.2, idx, f.1) }
  | none =>
    { pages := a.pages + 1, selected := a.selected + (sel1.filter (fun p => p.1)).length, out := a.out ++ rec_,
      skipped := a.skipped + (if skip then 1 else 0), bytes := a.bytes + (if skip then 0 else bytes), fin := none }

/-- Whether a page's zone excludes any selection (R130). -/
def zoneSkips (d : List Byte) (signed : Bool) (terms : List (List Byte × List Nat)) (z : Option (Int × Int)) : Bool :=
  match z with
  | none => false
  | some (lo, hi) => (zoneIndices signed terms lo hi).all (fun i => !combineBit d i)

/-- The lane's pages of a table's own lists, from FIRST_PAGE on, at most `n` of them (R127, R131). A page that lies on a frozen controller, or whose
companion pages do, ends the job with FROZEN; its device address is a free value (R133, Assumption 3). -/
def State.scanOwn (s : State) (m : Nat) (t : Table) (c : ColDef) (d : List Byte) (pages n : Nat) (zoneOff : Bool) : ScanAcc :=
  let col := field d 2 2
  let terms := (List.range (field d 5 1)).map (fun k => (termOf d k, s.termSet (termOf d k)))
  let mine := (((t.colPageList col c).zipIdx.take pages).filter (fun p =>
    decide (field d 28 4 ≤ p.2) && laneOf c col p.2 == m)).take n
  mine.foldl (fun a p =>
    if a.fin.isSome then a
    else if c.placement = 2 ∧ p.1.tail = false then { a with fin := some (0x0011, p.2, 0) }
    else if s.anyFrozen (scanLanes d m p.1.first p.1.count) then
      { a with fin := some (stFrozen, p.2, (Config.freeWord (s.fresh + p.2)).toNat % 2 ^ 48) }
    else
      let skip := !zoneOff && zoneSkips d c.signed terms (p.1.zone.map (zoneBounds c))
      scanStep (s.agentFault false) d c.signed terms p.2 p.1.first p.1.count skip (65536 + companionBytes d p.1.first p.1.count)
        (s.ownSlots t col c (field d 8 8) p.1.first p.1.count) a)
    { pages := 0, selected := 0, out := [], skipped := 0, bytes := 0, fin := none }

/-- The column a page header declares (R88). -/
def headCol (pg : List Byte) : ColDef :=
  let ty := field pg 6 1
  { typ := 0, width := ty % 16, signed := Word.bit 4 ty, writable := false, placement := 0, bytesLen := 0, ringW := 0, ringSpan := 0 }

/-- The pages of a list of 8-byte system column pages that cover a run of slots. -/
def State.listPages (s : State) (list n first count : Nat) : Nat :=
  ((List.range n).filter (fun i =>
    let pg := s.bytesAt (s.valAt (list + 8 * i) 8) 64
    decide (field pg 8 8 < first + count) && decide (first < field pg 8 8 + field pg 16 4))).length

/-- The lane's pages of a page list captured at the job's start, at most `n` of them (R127, R131). -/
def State.scanListed (s : State) (m : Nat) (pages : List Nat) (d : List Byte) (n : Nat) (zoneOff : Bool) : ScanAcc :=
  let terms := (List.range (field d 5 1)).map (fun k => (termOf d k, s.termSet (termOf d k)))
  let mine := (pages.zipIdx.filter (fun p => decide (field d 28 4 ≤ p.2) && memcOf p.1 == m)).take n
  mine.foldl (fun a p =>
    if a.fin.isSome then a
    else
      let i := p.2
      let pa := p.1
      match s.agentFault false pa 65536, decide (pa % 65536 ≠ 0) with
      | some f, _ => { a with fin := some (f.2, i, f.1) }
      | none, true => { a with fin := some (stAccess, i, pa) }
      | none, false =>
        let pg := s.bytesAt pa 65536
        let c := headCol pg
        let head := field pg 60 4 == crc32c (pg.take 60) && field pg 0 2 == field d 0 2 && field pg 2 2 == field d 2 2 &&
          decide (c.width ≤ 3)
        let zone := if Word.bit 1 (field pg 24 2) then some (zoneBounds c (field pg 48 4, field pg 56 4)) else none
        let skip := !zoneOff && zoneSkips d c.signed terms zone
        if !head then { a with fin := some (0x0011, i, pa) }
        else match if skip then some [] else s.listSlots d pg c with
          | none => { a with fin := some (0x0011, i, pa) }
          | some slots =>
            let others := ((companions d).map (fun k =>
              s.listPages k.2 (16 * field d 24 4 + 16) (field pg 8 8) (field pg 16 4))).sum
            scanStep (s.agentFault false) d c.signed terms i (field pg 8 8) (field pg 16 4) skip (65536 * (1 + others)) slots a)
    { pages := 0, selected := 0, out := [], skipped := 0, bytes := 0, fin := none }

/-- A job's work up to `n` of its pages: what it has done, and the list index from which a new job resumes (R127, R132, R135). -/
def State.scanWork (s : State) (m : Nat) (r : RunJob) (n : Nat) : ScanAcc × Nat :=
  let d := r.job.desc
  let none_ : ScanAcc := { pages := 0, selected := 0, out := [], skipped := 0, bytes := 0, fin := none }
  let zoneOff := Word.bit 1 (field d 6 1) || s.fld (scanPage m) 0x404 0 0 == 1
  let bad := fun (st at_ : Nat) => ({ none_ with fin := some (st, field d 28 4, at_) }, field d 28 4)
  let finish := fun (a : ScanAcc) (whole : Nat) (mine : List Nat) =>
    (a, match a.fin with
      | some f => f.2.1
      | none => if mine.length ≤ a.pages then whole else mine.getD a.pages whole)
  let inBad := (List.range (field d 5 1)).findSome? (fun k =>
    let t := termOf d k
    let a := field t 24 8
    if field t 0 1 ≠ 7 then none else if a % 8 ≠ 0 then some (a, stAccess) else s.agentFault false a (8 * field t 1 1))
  let odd := [field d 32 8, field d 48 8].find? (fun a => decide (a % 64 ≠ 0))
  if scanDescBad d then bad stDescBad 0
  else if odd.isSome then bad stAccess (odd.getD 0)
  else if inBad.isSome then (match inBad with
    | some f => bad f.2 f.1
    | none => bad stAccess 0)
  else if field d 16 8 = 0 then
    match s.table (field d 0 2) with
    | none => bad stDescBad 0
    | some t => match t.desc.col (field d 2 2) with
      | none => bad stDescBad 0
      | some c =>
        if c.typ ≠ 0 then bad stDescBad 0
        else
          let mine := (List.range r.at_).filter (fun i => decide (field d 28 4 ≤ i) && laneOf c (field d 2 2) i == m)
          finish (s.scanOwn m t c d r.at_ n zoneOff) r.at_ mine
  else match r.listBad with
    | some f => bad f.2 f.1
    | none =>
      let mine := (r.pages.zipIdx.filter (fun p => decide (field d 28 4 ≤ p.2) && memcOf p.1 == m)).map Prod.snd
      finish (s.scanListed m r.pages d n zoneOff) (field d 24 4) mine

/-- The done block of a scan job (R132). -/
def scanBlock (d : List Byte) (st err resume : Nat) (a : ScanAcc) : List Byte :=
  Word.leBytes 2 st ++ Word.leBytes 2 0 ++ Word.leBytes 4 a.pages ++ (d.drop 56).take 8 ++
    Word.leBytes 8 a.selected ++ Word.leBytes 8 a.out.length ++ Word.leBytes 4 resume ++ Word.leBytes 4 a.skipped ++
    Word.leBytes 8 a.bytes ++ Word.leBytes 8 err ++ List.replicate 8 0

/-- A scan job ends after at most `n` of its pages, with a status of its own where its work finds none (R132, R135). -/
def State.scanEnd (s : State) (m : Nat) (r : RunJob) (n : Nat) (status : Nat) : State :=
  let pg := scanPage m
  let d := r.job.desc
  let (a, resume) := s.scanWork m r n
  let (st, err) := match a.fin with
    | some f => (f.1, f.2.2)
    | none => (status, 0)
  let s1 := s.agentWrite (field d 32 8) a.out
  let block := scanBlock d st err resume a
  let s2 := ((s1.setRun pg none).addWide pg 0x058 a.bytes).addReg pg 0x060 a.skipped
  ({ s2 with fresh := s2.fresh + 2 ^ 49 }).doneBlock scanKind pg d block resume (err % 2 ^ 32)

/-- The lane starts its next job and captures its page list (R127). -/
def State.scanStart (s : State) (m : Nat) : State :=
  let pg := scanPage m
  let u := s.fld pg 0x00C 3 0
  if (s.unit pg).run.isSome || !s.unitEn pg || u == 0 || u == 4 then s
  else match s.popJob scanKind pg false with
    | none => s
    | some (j, s1) =>
      let d := j.desc
      let n := match s1.table (field d 0 2) with
        | some t => (match t.desc.col (field d 2 2) with
          | some c => (t.colPageList (field d 2 2) c).length
          | none => 0)
        | none => 0
      let list := field d 16 8
      let bad := if list % 8 ≠ 0 then some (list, stAccess) else s1.agentFault false list (8 * field d 24 4)
      let job := RunJob.start j false
      s1.setRun pg (some (if list = 0 then { job with at_ := n }
        else match bad with
          | some f => { job with listBad := some f }
          | none => { job with pages := (List.range (field d 24 4)).map (fun i => s1.valAt (list + 8 * i) 8) }))

/-- ABORT ends the running job, which has processed `n` of its pages (R135). -/
def State.scanAbort (s : State) (m n : Nat) : State :=
  match (s.unit (scanPage m)).run with
  | some r => s.scanEnd m r n stAborted
  | none => s

/-- SOFT_RESET ends the running job and every queued job, which resumes from its FIRST_PAGE, and clears the counters (R135, the SCAN page). -/
def State.scanSoftReset (s : State) (m n : Nat) : State :=
  let pg := scanPage m
  let s1 := s.scanAbort m n
  let none_ : ScanAcc := { pages := 0, selected := 0, out := [], skipped := 0, bytes := 0, fin := none }
  let s2 := (s1.unit pg).fifo.foldl (fun t j =>
    t.doneBlock scanKind pg j.desc (scanBlock j.desc stAborted 0 (field j.desc 28 4) none_) (field j.desc 28 4) 0)
    (s1.emptyFifos scanKind pg)
  (s2.zeroRegs pg [0x054, 0x060, 0x064]).setWide pg 0x058 0

/-- SCAN_JOB_START (R127, R134). -/
def execScanJobStart (m : Fin 22) (s : State) : Host.Outcome State Fault Refusal := .next (s.scanStart m.val)

/-- SCAN_JOB_DONE (R132). -/
def execScanJobDone (m : Fin 22) (s : State) : Host.Outcome State Fault Refusal :=
  .next (match (s.unit (scanPage m.val)).run with
    | some r => s.scanEnd m.val r (r.at_ + 2 ^ 32) stOk
    | none => s)

/-- SCAN_ABORT (R133, R135). -/
def execScanAbort (m : Fin 22) (pages : Nat) (s : State) : Host.Outcome State Fault Refusal := .next (s.scanAbort m.val pages)

/-- SCAN_SOFT_RESET (the SCAN page). -/
def execScanSoftReset (m : Fin 22) (pages : Nat) (s : State) : Host.Outcome State Fault Refusal :=
  .next (s.scanSoftReset m.val pages)

end Sys2Proof.Machine
end

