-- ==== Sys2Proof/Machine/Probe.lean ====
section
/-!
DEFINITION. The probe lanes (R140–R144): descriptors, lookups at a snapshot, result entries, match lists and done blocks; two FIFOs
with foreground first.
-/
namespace Sys2Proof.Machine
open Sys2Proof

/-- The PROBE page of a lane; only controllers 16–21 have one. -/
def probePage (l : Nat) : Nat := pageOf .probe (16 + l)

/-- The probe lanes as units with descriptors (R139, R141–R143). -/
def probeKind : UnitKind :=
  { descLen := 128, doneAt := 48, tagAt := 56, blockLen := 64, blockTag := 8, errAt := 32, depth := 64, jobsDone := some 0x05C, errOf := laneErr }

/-- Whether a probe descriptor is refused with DESC_BAD, before its index is known (R141). -/
def probeDescBad (d : List Byte) : Bool :=
  decide (7 < field d 2 1) || decide (1 < field d 3 1) || field d 6 2 == 0 || decide (4096 < field d 6 2) ||
    decide (field d 24 4 < field d 4 2) || field d 24 4 % 8 != 0 || !allZero (d.drop 64)

/-- PREV_SLOT steps of a walk to the first version with BEGIN_CUE ≤ s (R142, R144). -/
def Table.hops (t : Table) (s : Nat) : Nat → Nat → Nat
  | 0, _ => 0
  | n + 1, slot =>
    match t.version slot with
    | none => 0
    | some v =>
      match v.beg, v.prev with
      | some b, some p => if b ≤ s then 0 else 1 + t.hops s n p
      | none, some p => 1 + t.hops s n p
      | _, none => 0

/-- The hops of a key: further buckets of its chain and version hops of its full matches (R144). -/
def Table.keyHops (t : Table) (d : IdxDef) (x : IndexState) (s : Nat) (key : List Byte) : Nat :=
  let h := indexHash d.seed key
  let c := x.chain (hashBucket d.log2 h)
  let full := c.flatten.filter (fun e => e.1 == hashTag h && (match t.version e.2 with
    | some v => d.keyOf v == key
    | none => false))
  (c.length - 1) + (full.map (fun e => t.hops s (t.slots.length + 1) e.2)).sum

/-- The slots that a walk along PREV_SLOT visits (R142). -/
def Table.walkSlots (t : Table) (s : Nat) : Nat → Nat → List Nat
  | 0, slot => [slot]
  | n + 1, slot =>
    match t.version slot with
    | none => [slot]
    | some v =>
      match v.beg, v.prev with
      | some b, some p => if b ≤ s then [slot] else slot :: t.walkSlots s n p
      | none, some p => slot :: t.walkSlots s n p
      | _, none => [slot]

/-- The controllers whose pages the lookup of a key reads: key columns and system columns at the slots of its TAG matches (R100, R140). -/
def Table.keyLanes (t : Table) (d : IdxDef) (x : IndexState) (s : Nat) (key : List Byte) : List Nat :=
  let h := indexHash d.seed key
  let hits := ((x.chain (hashBucket d.log2 h)).flatten.filter (fun e => e.1 == hashTag h)).map Prod.snd
  let pageOf := fun (k : Nat) (c : ColDef) (slot : Nat) =>
    ((t.colPageList k c).findIdx? (fun p => decide (p.first ≤ slot) && decide (slot < p.first + p.count))).getD 0
  (hits.flatMap (fun slot => d.keys.filterMap (fun k => (t.desc.col k).map (fun c => laneOf c k (pageOf k c slot))))) ++
    (hits.flatMap (t.walkSlots s (t.slots.length + 1))).flatMap (fun slot => [0, 1, 2, 3].map (fun k => sysLane k (slot / 8184)))

/-- What a probe job has written so far: keys done, list entries used, hops, keys matched, and an early end. -/
structure ProbeAcc where
  keys : Nat
  list : Nat
  hops : Nat
  matched : Nat
  fin : Option (Nat × Nat)

/-- One key is probed and its result entry and matches are written (R140, R142). A lookup that reads a frozen controller ends the job with
FROZEN; whether its buckets lie on one, and the address that failed, are free values (R133, Assumption 3). A miss has SLOT 0 (Assumption 146). -/
def State.probeKey (t : Table) (i : IdxDef) (x : IndexState) (d : List Byte) (acc : State × ProbeAcc) (k : Nat) : State × ProbeAcc :=
  let (s, a) := acc
  if a.fin.isSome then acc
  else
    let ka := field d 16 8 + k * field d 24 4
    let oa := field d 32 8 + 32 * k
    match s.agentFault false ka (field d 4 2), s.agentFault false oa 32 with
    | some f, _ => (s, { a with fin := some (f.2, f.1) })
    | none, some f => (s, { a with fin := some (f.2, f.1) })
    | none, none =>
      let key := s.bytesAt ka (field d 4 2)
      if s.anyFrozen (t.keyLanes i x (field d 8 8) key) || (s.anyFrozen [16, 17, 18, 19, 20, 21] && (Config.freeWord (s.fresh + 2 * k)).getLsbD 0) then
        (s, { a with fin := some (stFrozen, (Config.freeWord (s.fresh + 2 * k + 1)).toNat % 2 ^ 48) })
      else
      let ms := t.probe (field d 2 1) (field d 8 8) key
      let rest := if field d 3 1 = 1 then ms.drop 1 else []
      let la := field d 40 8 + 16 * a.list
      let full := decide (field d 28 4 < a.list + rest.length)
      match full, if rest.isEmpty then none else s.agentFault false la (16 * rest.length) with
      | true, _ => (s, { a with fin := some (stListFull, 0) })
      | false, some f => (s, { a with fin := some (f.2, f.1) })
      | false, none =>
        let none_ := 2 ^ 64 - 1
        let entry := match ms.head? with
          | some m => Word.leBytes 8 m.2.row ++ Word.leBytes 8 m.1
          | none => Word.leBytes 8 none_ ++ Word.leBytes 8 0
        let s1 := s.agentWrite oa (entry ++ Word.leBytes 4 ms.length ++ Word.leBytes 4 (if rest.isEmpty then 0 else a.list) ++
          List.replicate 8 0)
        let s2 := if rest.isEmpty then s1
          else s1.agentWrite la (rest.flatMap (fun m => Word.leBytes 8 m.2.row ++ Word.leBytes 8 m.1))
        (s2, { keys := a.keys + 1, list := a.list + rest.length, hops := a.hops + t.keyHops i x (field d 8 8) key,
               matched := a.matched + (if ms.isEmpty then 0 else 1), fin := none })

/-- A probe job's first `n` keys (R140). -/
def State.probeWork (s : State) (d : List Byte) (n : Nat) : State × ProbeAcc :=
  let a0 : ProbeAcc := { keys := 0, list := 0, hops := 0, matched := 0, fin := none }
  if probeDescBad d then (s, { a0 with fin := some (stDescBad, 0) })
  else if field d 48 8 % 64 ≠ 0 then (s, { a0 with fin := some (stAccess, field d 48 8) })
  else match s.table (field d 0 2) with
    | none => (s, { a0 with fin := some (0x0016, 0) })
    | some t =>
      match t.desc.idxs[field d 2 1]?, t.indexes[field d 2 1]? with
      | some i, some x =>
        let len := (i.keys.map (fun k => match t.desc.col k with
          | some c => c.size
          | none => 0)).sum
        if field d 4 2 ≠ len then (s, { a0 with fin := some (stDescBad, 0) })
        else (List.range (min n (field d 6 2))).foldl (State.probeKey t i x d) (s, a0)
      | _, _ => (s, { a0 with fin := some (0x0016, 0) })

/-- A job of a lane ends after at most `n` keys, with a status of its own where its work finds none (R142). -/
def State.probeEnd (s : State) (l : Nat) (job : UnitJob) (n status : Nat) : State :=
  let pg := probePage l
  let d := job.desc
  let (s1, a) := s.probeWork d n
  let (st, err) := match a.fin with
    | some f => f
    | none => (status, 0)
  let block := fit 64 (Word.leBytes 2 st ++ Word.leBytes 2 0 ++ Word.leBytes 4 a.keys ++ (d.drop 56).take 8 ++
    Word.leBytes 4 a.list ++ Word.leBytes 4 a.hops ++ Word.leBytes 4 a.matched ++ Word.leBytes 4 0 ++ Word.leBytes 8 err)
  let s2 := { (s1.addWide pg 0x050 a.keys).addReg pg 0x058 a.hops with fresh := s1.fresh + 8192 }
  s2.doneBlock probeKind pg d block a.keys (err % 2 ^ 32)

/-- The lane starts a job: a foreground job first, before which a running background job yields; else the background job that
yielded, else the next background job (R143). -/
def State.probeStart (s : State) (l : Nat) : State :=
  let pg := probePage l
  let u := s.unit pg
  let st := s.fld pg 0x00C 3 0
  if !s.unitEn pg || st == 0 || st == 4 then s
  else if !u.fifo.isEmpty then
    let yields := match u.run with
      | some r => r.second
      | none => true
    if !yields then s
    else match s.popJob probeKind pg false with
      | none => s
      | some (j, s1) =>
        let u1 := s1.unit pg
        (s1.setUnit pg { u1 with held := if u1.run.isSome then u1.run else u1.held }).setRun pg (some (RunJob.start j false))
  else if u.run.isSome then s
  else if u.held.isSome then ((s.setUnit pg { u with held := none }).setRun pg u.held)
  else match s.popJob probeKind pg true with
    | none => s
    | some (j, s1) => s1.setRun pg (some (RunJob.start j true))

/-- The running job ends (R142). -/
def State.probeFinish (s : State) (l n status : Nat) : State :=
  match (s.unit (probePage l)).run with
  | some r => (s.setRun (probePage l) none).probeEnd l r.job n status
  | none => s

/-- SOFT_RESET ends the jobs of both FIFOs with ABORTED and clears the counters (the PROBE page). -/
def State.probeSoftReset (s : State) (l n : Nat) : State :=
  let pg := probePage l
  let s1 := s.probeFinish l n stAborted
  let u := s1.unit pg
  let held := match u.held with
    | some r => [r.job]
    | none => []
  let s0 := s1.emptyFifos probeKind pg
  let s2 := (s0.setUnit pg { fifo := [], fifo2 := [], run := none }).abortJobs probeKind pg (held ++ u.fifo ++ u.fifo2)
  (s2.zeroRegs pg [0x058, 0x05C]).setWide pg 0x050 0

/-- PROBE_JOB_START (R143). -/
def execProbeJobStart (l : Fin 6) (s : State) : Host.Outcome State Fault Refusal := .next (s.probeStart l.val)

/-- PROBE_JOB_DONE (R142). -/
def execProbeJobDone (l : Fin 6) (s : State) : Host.Outcome State Fault Refusal := .next (s.probeFinish l.val 4096 stOk)

/-- PROBE_ABORT (R133). -/
def execProbeAbort (l : Fin 6) (keys : Nat) (s : State) : Host.Outcome State Fault Refusal :=
  .next (s.probeFinish l.val keys stAborted)

/-- PROBE_SOFT_RESET (the PROBE page). -/
def execProbeSoftReset (l : Fin 6) (keys : Nat) (s : State) : Host.Outcome State Fault Refusal :=
  .next (s.probeSoftReset l.val keys)

end Sys2Proof.Machine
end

