-- ==== Sys2Proof/Machine/Codec.lean ====
section
/-!
DEFINITION. The field codecs (R150–R159): format tables and TLV subtables, WALK, PARSE and BUILD, field vectors, and the FCODEC
jobs; and the check of ENCODE templates (R160, R161).
-/
namespace Sys2Proof.Machine
open Sys2Proof

/-- LEN_SHORT, LEN_LONG and FIELD_BAD of the codec (R133). -/
def stFieldBad : Nat := 0x0006
/-- FORMAT_BAD. -/
def stFormatBad : Nat := 0x0015

/-! ## Format tables (R151, R152, R154) -/

/-- A field entry: entry k − 1 for field k. -/
def fmtEntry (t : List Byte) (k : Nat) : List Byte := slice t (field t 12 4 + 16 * (k - 1)) 16

/-- The offset of a TLV subtable; subtables follow one another. -/
def tlvOffset (t : List Byte) : Nat → Nat
  | 0 => field t 16 4
  | n + 1 => let o := tlvOffset t n; o + 8 + 8 * field t o 1

/-- A TLV subtable's header and entries. -/
def tlvTable (t : List Byte) (i : Nat) : List Byte := let o := tlvOffset t i; slice t o (8 + 8 * field t o 1)

/-- Whether a field entry keeps R152. -/
def fmtEntryOk (t : List Byte) (k : Nat) : Bool :=
  let e := fmtEntry t k
  let content := field e 0 1
  let enc := field e 1 1
  if k = 1 ∨ k = 65 ∨ k = 129 then allZero e
  else
    decide (content ≤ 5) && decide (field e 2 1 ≤ 3) && decide (field e 3 1 ≤ 3) && decide (field e 6 1 < 16) &&
      allZero (e.drop 8) &&
      (match content with
        | 1 => decide (enc ≤ 2)
        | 2 => decide (enc ≤ 1)
        | 3 => enc == 3
        | 4 => decide (enc ≤ 2)
        | 5 => enc == 3 && decide (field e 7 1 < field t 9 1)
        | _ => decide (enc ≤ 3))

/-- Whether a TLV subtable keeps R154. -/
def tlvTableOk (t : List Byte) (i : Nat) : Bool :=
  let b := tlvTable t i
  let n := field b 0 1
  decide (tlvOffset t i + 8 + 8 * n ≤ t.length) && decide (1 ≤ n) && decide (n ≤ 64) && decide (field b 1 1 < 4) &&
    decide (192 ≤ field b 2 2) && decide (field b 2 2 + n ≤ 256) && allZero (slice b 4 4) &&
    (List.range n).all (fun j =>
      let e := slice b (8 + 8 * j) 8
      let l := field e 3 1
      decide (1 ≤ l) && decide (l ≤ 3) && allZero ((e.take 3).drop l) && decide (field e 6 1 < 2) && field e 7 1 == 0)

/-- Whether any part of a format uses EBCDIC (R151). -/
def usesEbcdic (t : List Byte) : Bool :=
  field t 1 1 == 1 || field t 2 1 == 2 || (List.range (field t 6 2)).any (fun i =>
    let e := fmtEntry t (i + 1)
    field e 0 1 != 0 && (field e 1 1 == 1 || (field e 2 1 != 0 && field e 3 1 == 1)))

/-- Whether a format table keeps R151, R152 and R154. -/
def formatOk (t : List Byte) : Bool :=
  let kind := field t 0 1
  let n := field t 6 2
  let subs := field t 9 1
  decide (32 ≤ t.length) && field t 24 4 == t.length && decide (kind ≤ 1) && decide (field t 1 1 ≤ 3) && decide (field t 2 1 ≤ 2) &&
    decide (1 ≤ field t 3 1) && decide (field t 3 1 ≤ 3) && decide (field t 4 2 ≤ 64) &&
    n == (if kind = 1 then 0 else 64 * field t 3 1) &&
    (field t 8 1 == 0 || field t 8 1 == 1 || field t 8 1 == 0xFF) && decide (subs ≤ 8) && (kind == 0 || decide (1 ≤ subs)) &&
    field t 10 2 == 0 && field t 28 4 == 0 && decide (field t 12 4 + 16 * n ≤ t.length) &&
    (List.range n).all (fun i => fmtEntryOk t (i + 1)) && (List.range subs).all (tlvTableOk t) &&
    ((List.range subs).flatMap (fun i => (List.range (field (tlvTable t i) 0 1)).map (fun j => field (tlvTable t i) 2 2 + j))).Nodup &&
    (if usesEbcdic t then decide (0 < field t 20 4) && decide (field t 20 4 + 512 ≤ t.length) else field t 20 4 == 0)

/-! ## Characters and digits (R153) -/

/-- A byte mapped to ASCII under an encoding: EBCDIC through the table's map. -/
def toAscii (t : List Byte) (enc : Nat) (b : Byte) : Byte := if enc = 1 then t.getD (field t 20 4 + b.toNat) 0 else b

/-- An ASCII byte under an encoding. -/
def ofAscii (t : List Byte) (enc : Nat) (b : Byte) : Byte := if enc = 1 then t.getD (field t 20 4 + 256 + b.toNat) 0 else b

/-- The digit of an ASCII byte. -/
def asciiDigit (b : Byte) : Option Nat := if 0x30 ≤ b.toNat ∧ b.toNat ≤ 0x39 then some (b.toNat - 0x30) else none

/-- The hexadecimal digit of an ASCII byte. -/
def asciiHex (b : Byte) : Option Nat :=
  let v := b.toNat
  if 0x30 ≤ v ∧ v ≤ 0x39 then some (v - 0x30) else if 0x41 ≤ v ∧ v ≤ 0x46 then some (v - 0x37)
  else if 0x61 ≤ v ∧ v ≤ 0x66 then some (v - 0x57) else none

/-- The nibbles of bytes, high first. -/
def nibbles (bs : List Byte) : List Nat := bs.flatMap (fun b => [b.toNat / 16, b.toNat % 16])

/-- The number a digit list spells. -/
def digitsVal (l : List Nat) : Nat := l.foldl (fun v d => 10 * v + d) 0

/-- The index of the first item of a list that gives nothing. -/
def firstBad {α β : Type} (f : α → Option β) (l : List α) : Option Nat := l.findIdx? (fun x => (f x).isNone)

/-- A failure: its status, field (or vector entry + 1) and message offset (R158, Assumption 16). -/
abbrev CodecErr := Nat × Nat × Nat

/-- A length prefix read: the length and the bytes it takes (R153). -/
def readPrefix (t msg e : List Byte) (k pos : Nat) : Except CodecErr (Nat × Nat) :=
  let lt := field e 2 1
  let enc := field e 3 1
  let size := if enc ≤ 1 then lt + 1 else if lt = 1 then 1 else 2
  let raw := slice msg pos size
  if raw.length < size then .error (stLenShort, k, msg.length)
  else if enc ≤ 1 then
    match firstBad (fun b => asciiDigit (toAscii t enc b)) raw with
    | some i => .error (stFieldBad, k, pos + i)
    | none => .ok (digitsVal (raw.filterMap (fun b => asciiDigit (toAscii t enc b))), size)
  else if enc = 2 then
    match (nibbles raw).findIdx? (fun n => decide (9 < n)) with
    | some i => .error (stFieldBad, k, pos + i / 2)
    | none => if lt = 2 ∧ (nibbles raw).headD 0 ≠ 0 then .error (stFieldBad, k, pos) else .ok (digitsVal (nibbles raw), size)
  else .ok (Word.beValue raw, size)

/-- A value that PARSE puts into the vector: its entry, the message byte it comes from, its data, NUMBER, NEGATIVE and DUP (R156). -/
structure VecVal where
  ent : Nat
  pos : Nat
  data : List Byte
  num : Option Nat
  neg : Bool
  dup : Bool
  deriving DecidableEq, Repr

/-- The ASCII digits of numeric bytes, or the offset of the first that is none (R153). -/
def numericDigits (t e raw : List Byte) (n : Nat) : Except Nat (List Nat) :=
  if field e 1 1 = 2 then
    let ns := nibbles raw
    let right := Word.bit 0 (field e 6 1)
    let pad := if n % 2 = 0 then none else if right then ns.getLast? else ns.head?
    let ds := if n % 2 = 0 then ns else if right then ns.dropLast else ns.drop 1
    match pad, ds.findIdx? (fun d => decide (9 < d)) with
    | some p, none => if p = 0 ∨ p = 15 then .ok ds else .error (if right then raw.length - 1 else 0)
    | none, none => .ok ds
    | _, some i => .error ((if n % 2 = 1 && !right then i + 1 else i) / 2)
  else match firstBad (fun b => asciiDigit (toAscii t (field e 1 1) b)) raw with
    | some i => .error i
    | none => .ok (raw.filterMap (fun b => asciiDigit (toAscii t (field e 1 1) b)))

/-- The ASCII form of a track field's bytes (R153, R156). -/
def trackBytes (t e raw : List Byte) (n : Nat) : Except Nat (List Byte) :=
  if field e 1 1 = 2 then
    let ns := nibbles raw
    let right := Word.bit 0 (field e 6 1)
    let pad := if n % 2 = 0 then none else if right then ns.getLast? else ns.head?
    let ds := if n % 2 = 0 then ns else if right then ns.dropLast else ns.drop 1
    let padOk := match pad with
      | some p => p == 0 || p == 15
      | none => true
    match ds.findIdx? (fun d => decide (9 < d) && decide (d ≠ 13)) with
    | some i => .error ((if n % 2 = 1 && !right then i + 1 else i) / 2)
    | none => if padOk then .ok (ds.map (fun d => BitVec.ofNat 8 (0x30 + d))) else .error (if right then raw.length - 1 else 0)
  else .ok (raw.map (toAscii t (field e 1 1)))

/-! ## BER-TLV (R155) -/

/-- A tag read: its bytes and the position after it; where it fails, whether the bytes ran out (R155). -/
def readTag (msg : List Byte) (pos end_ : Nat) : Except Bool (List Byte × Nat) :=
  let b := fun i => msg.getD (pos + i) 0
  if end_ ≤ pos then .error true
  else if (b 0).toNat % 32 ≠ 31 then .ok ([b 0], pos + 1)
  else if end_ ≤ pos + 1 then .error true
  else if (b 1).toNat < 128 then .ok ([b 0, b 1], pos + 2)
  else if end_ ≤ pos + 2 then .error true
  else if (b 2).toNat < 128 then .ok ([b 0, b 1, b 2], pos + 3)
  else .error false

/-- A length read: its value and the position after it; where it fails, whether the bytes ran out (R155). -/
def readLen (msg : List Byte) (pos end_ : Nat) : Except Bool (Nat × Nat) :=
  let b := fun i => (msg.getD (pos + i) 0).toNat
  if end_ ≤ pos then .error true
  else if b 0 < 0x80 then .ok (b 0, pos + 1)
  else if b 0 = 0x81 then (if end_ ≤ pos + 1 then .error true else .ok (b 1, pos + 2))
  else if b 0 = 0x82 then (if end_ ≤ pos + 2 then .error true else .ok (b 1 * 256 + b 2, pos + 3))
  else .error false

/-- The entry of a subtable whose tag matches, by its place. -/
def tlvEntry (tab tag : List Byte) : Option (Nat × List Byte) :=
  (List.range (field tab 0 1)).findSome? (fun j =>
    let e := slice tab (8 + 8 * j) 8
    if e.take (field e 3 1) == tag then some (j, e) else none)

/-- The failure of a tag or a length at a position: a message of one object that ends there is LEN_SHORT, else FIELD_BAD (R133, R155). -/
def tlvCut (msg : List Byte) (k pos : Nat) (single cut : Bool) : CodecErr :=
  if single && cut then (stLenShort, k, msg.length) else (stFieldBad, k, pos)

/-- The values of a run of objects, in order, repeats included, each with its entry and position; at most one object where `single` (R155).
The object at the head of a run has depth 1, and one at depth 4 is kept raw; an object parsed inward has no value of its own
(DESIGN CHOICE, Assumption 137). -/
def tlvParse (tab msg : List Byte) (k : Nat) (single : Bool) : Nat → Nat → Nat → Nat → Except CodecErr (List (Nat × Nat × List Byte) × Nat)
  | 0, _, pos, _ => .ok ([], pos)
  | fuel + 1, depth, pos, end_ =>
    if end_ ≤ pos then .ok ([], pos)
    else if Word.bit 1 (field tab 1 1) && !single && msg.getD pos 0 == 0 then tlvParse tab msg k single fuel depth (pos + 1) end_
    else match readTag msg pos end_ with
      | .error cut => .error (tlvCut msg k pos single cut)
      | .ok (tag, p1) => match readLen msg p1 end_ with
        | .error cut => .error (tlvCut msg k p1 single cut)
        | .ok (len, p2) =>
          let known := tlvEntry tab tag
          let who := match known with
            | some (j, _) => field tab 2 2 + j + 1
            | none => k
          if end_ < p2 + len then .error (if single then stLenShort else stFieldBad, who, if single then msg.length else p1)
          else
            let here : Except CodecErr (List (Nat × Nat × List Byte)) := match known with
              | none => if Word.bit 0 (field tab 1 1) then .error (stFieldBad, k, pos) else .ok []
              | some (j, e) =>
                if field e 4 2 < len then .error (stFieldBad, who, p1)
                else if Word.bit 5 (tag.headD 0).toNat && Word.bit 0 (field e 6 1) && decide (depth < 4) then
                  match tlvParse tab msg k false fuel (depth + 1) p2 (p2 + len) with
                  | .error x => .error x
                  | .ok (vs, _) => .ok vs
                else .ok [(field tab 2 2 + j, p2, slice msg p2 len)]
            match here with
            | .error x => .error x
            | .ok vs =>
              if single then .ok (vs, p2 + len)
              else match tlvParse tab msg k single fuel depth (p2 + len) end_ with
                | .error x => .error x
                | .ok (rest, q) => .ok (vs ++ rest, q)

/-- The vector values of a run of objects, repeats included. -/
def tlvVals (l : List (Nat × Nat × List Byte)) : List VecVal :=
  l.map (fun p => { ent := p.1, pos := p.2.1, data := p.2.2, num := none, neg := false, dup := false })

/-- Repeated tags of a message keep their first value, which sets DUP (R155). -/
def firstVals : List VecVal → List VecVal
  | [] => []
  | v :: r => { v with dup := r.any (fun w => w.ent == v.ent) } :: (firstVals r).filter (fun w => w.ent != v.ent)

/-! ## WALK and PARSE -/

/-- One field read: its vector values and the position after it (R152, R153, R156). -/
def readField (t msg : List Byte) (k pos : Nat) : Except CodecErr (List VecVal × Nat) :=
  let e := fmtEntry t k
  let content := field e 0 1
  let bcd := field e 1 1 == 2
  let flags := field e 6 1
  if content = 0 then .error (stFieldBad, k, pos)
  else
    let pre := if field e 2 1 = 0 then .ok (field e 4 2, 0) else readPrefix t msg e k pos
    match pre with
    | .error x => .error x
    | .ok (n, psize) =>
      if field e 4 2 < n then .error (stFieldBad, k, pos)
      else
        let signed := content == 1 && Word.bit 3 flags
        let p0 := pos + psize
        let p1 := if signed then p0 + 1 else p0
        let size := if bcd && (content == 1 || content == 4) then (n + 1) / 2 else n
        let raw := slice msg p1 size
        let sgn := toAscii t (field e 1 1) (msg.getD p0 0)
        if raw.length < size ∨ msg.length < p1 then .error (stLenShort, k, msg.length)
        else if signed && !(sgn == 0x43#8 || sgn == 0x44#8) then .error (stFieldBad, k, p0)
        else
          let one := fun (data : List Byte) (num : Option Nat) =>
            ({ ent := k - 1, pos := pos, data := data, num := num, neg := signed && sgn == 0x44#8, dup := false } : VecVal)
          match content with
          | 1 => match numericDigits t e raw n with
            | .error i => .error (stFieldBad, k, p1 + i)
            | .ok ds =>
              let num := if Word.bit 2 flags && decide (n ≤ 19) then some (digitsVal ds) else none
              .ok ([one (ds.map (fun d => BitVec.ofNat 8 (0x30 + d))) num], p1 + size)
          | 2 => .ok ([one (if Word.bit 1 flags then raw.map (toAscii t (field e 1 1)) else raw) none], p1 + size)
          | 4 => match trackBytes t e raw n with
            | .error i => .error (stFieldBad, k, p1 + i)
            | .ok bs => .ok ([one bs none], p1 + size)
          | 5 =>
            match tlvParse (tlvTable t (field e 7 1)) msg k false (2 * msg.length + 8) 1 p1 (p1 + size) with
            | .error x => .error x
            | .ok (vs, _) => .ok (one raw none :: tlvVals vs, p1 + size)
          | _ => .ok ([one raw none], p1 + size)

/-- A failure with the fields processed before it (R158). -/
abbrev CodecStop := CodecErr × Nat

/-- A run of fields read in order; `n` are those before it. -/
def readFields (t msg : List Byte) (n : Nat) : List Nat → Nat → Except CodecStop (List VecVal × Nat)
  | [], pos => .ok ([], pos)
  | k :: r, pos =>
    match readField t msg k pos with
    | .error x => .error (x, n)
    | .ok (vs, p) => match readFields t msg (n + 1) r p with
      | .error x => .error x
      | .ok (rest, q) => .ok (vs ++ rest, q)

/-- One bitmap read: its 64 bits, bit 1 first, and the position after it (R151). -/
def readBitmap (t msg : List Byte) (who pos : Nat) : Except CodecErr (List Bool × Nat) :=
  let enc := field t 2 1
  let size := if enc = 0 then 8 else 16
  let raw := slice msg pos size
  if raw.length < size then .error (stLenShort, who, msg.length)
  else if enc = 0 then .ok (raw.flatMap bitsMsb, pos + 8)
  else
    let hex := fun (b : Byte) => asciiHex (toAscii t (enc - 1) b)
    match firstBad hex raw with
    | some i => .error (stFieldBad, who, pos + i)
    | none => .ok ((raw.filterMap hex).flatMap (fun d => [Word.bit 3 d, Word.bit 2 d, Word.bit 1 d, Word.bit 0 d]), pos + 16)

/-- The bitmaps of a message: the fields present, those that announce bitmaps left out where they do (R151). -/
def readBitmaps (t msg : List Byte) : Nat → Nat → Nat → Except CodecErr (List Nat × Nat)
  | 0, _, pos => .ok ([], pos)
  | n + 1, i, pos =>
    match readBitmap t msg (if i = 0 then 0 else if i = 1 then 1 else 65) pos with
    | .error x => .error x
    | .ok (bits, p) =>
      let here := (bits.zipIdx.filter (fun b => b.1)).map (fun b => 64 * i + b.2 + 1)
      let more := bits.headD false && decide (i + 1 < field t 3 1)
      if more then
        match readBitmaps t msg n (i + 1) p with
        | .error x => .error x
        | .ok (rest, q) => .ok (here.drop 1 ++ rest, q)
      else .ok (here, p)

/-- The four ASCII digits of the MTI and the position after it (R151). -/
def readMti (t msg : List Byte) (pos : Nat) : Except CodecErr (List Byte × Nat) :=
  let enc := field t 1 1
  let size := if enc = 3 then 0 else if enc = 2 then 2 else 4
  let raw := slice msg pos size
  let ds : List (Option Nat) := if enc = 2 then (nibbles raw).map (fun n => if n ≤ 9 then some n else none)
    else raw.map (fun b => asciiDigit (toAscii t enc b))
  if raw.length < size then .error (stLenShort, 0, msg.length)
  else if enc = 3 then .ok ([], pos)
  else match ds.findIdx? Option.isNone with
    | some i => .error (stFieldBad, 0, pos + (if enc = 2 then i / 2 else i))
    | none =>
      if field t 8 1 ≠ 0xFF ∧ ds.headD none ≠ some (field t 8 1) then .error (stFieldBad, 0, pos)
      else .ok ((ds.filterMap id).map (fun d => BitVec.ofNat 8 (0x30 + d)), pos + size)

/-- What a message holds: prefix bytes, MTI, the vector's values in data order, and the bytes consumed. -/
structure Parsed where
  pre : List Byte
  mti : List Byte
  vals : List VecVal
  fields : List Nat
  used : Nat
  deriving DecidableEq, Repr

/-- A message read under a format, up to where its format ends (R150, R151). -/
def codecRead (t msg : List Byte) : Except CodecStop Parsed :=
  if field t 0 1 = 1 then
    match tlvParse (tlvTable t 0) msg 0 true (2 * msg.length + 8) 1 0 msg.length with
    | .error x => .error (x, 0)
    | .ok (vs, p) =>
      if msg.isEmpty then .error ((stLenShort, 0, 0), 0)
      else .ok { pre := [], mti := [], vals := firstVals (tlvVals vs), fields := [], used := p }
  else
    let pl := field t 4 2
    if msg.length < pl then .error ((stLenShort, 0, msg.length), 0)
    else match readMti t msg pl with
      | .error x => .error (x, 0)
      | .ok (mti, p1) => match readBitmaps t msg 3 0 p1 with
        | .error x => .error (x, 0)
        | .ok (ks, p2) => match readFields t msg 0 ks p2 with
          | .error x => .error x
          | .ok (vs, p3) => .ok { pre := msg.take pl, mti := mti, vals := firstVals vs, fields := ks, used := p3 }

/-- WALK: where the message ends, or LEN_SHORT, LEN_LONG or FIELD_BAD, with the fields processed (R150, R157). -/
def codecWalk (t msg : List Byte) : Except CodecStop Parsed :=
  match codecRead t msg with
  | .error x => .error x
  | .ok p => if p.used < msg.length then .error ((stLenLong, 0, p.used), p.fields.length) else .ok p

/-- The vector values with the place of their data, and the end of the data area (R156). -/
def Parsed.placed (p : Parsed) : List (Nat × VecVal) × Nat :=
  p.vals.foldl (fun acc v => (acc.1 ++ [(acc.2, v)], acc.2 + v.data.length)) (([] : List (Nat × VecVal)), 4160 + p.pre.length)

/-- The field vector of a parsed message; or, where its data would pass byte 16,384, the field or entry, its message byte and the fields
before it (R156, R158). -/
def vecBytes (t : List Byte) (p : Parsed) : Except CodecStop (List Byte) :=
  let placed := p.placed
  match placed.1.findIdx? (fun q => decide (16384 < q.1 + q.2.data.length)) with
  | some i =>
    let v := (placed.1.map Prod.snd)[i]?
    .error ((stOutFull, (v.map VecVal.ent).getD 0 + 1, (v.map VecVal.pos).getD 0),
      ((placed.1.take i).filter (fun q => decide (q.2.ent < 192))).length)
  | none =>
    let bit := fun (l : List Nat) (n : Nat) => (List.range n).foldl (fun v i => if l.contains i then v + 2 ^ i else v) 0
    let ents := p.vals.map VecVal.ent
    let head := fit 4 p.mti ++ Word.leBytes 2 (field t 4 2) ++ Word.leBytes 2 p.fields.length ++
      Word.leBytes 24 (bit (p.fields.map (fun k => k - 1)) 192) ++ Word.leBytes 8 (bit ((ents.filter (fun i => decide (192 ≤ i))).map (fun i => i - 192)) 64) ++
      Word.leBytes 4 (placed.2 - 4160) ++ Word.leBytes 4 p.used ++ List.replicate 16 0
    let entry := fun (i : Nat) => match placed.1.find? (fun q => q.2.ent == i) with
      | some q => Word.leBytes 4 q.1 ++ Word.leBytes 2 q.2.data.length ++
          Word.leBytes 1 (1 + (if q.2.num.isSome then 2 else 0) + (if q.2.neg then 4 else 0) + (if q.2.dup then 8 else 0)) ++ [0#8] ++
          Word.leBytes 8 (q.2.num.getD 0)
      | none => List.replicate 16 0
    .ok (head ++ (List.range 256).flatMap entry ++ p.pre ++ p.vals.flatMap VecVal.data)

/-! ## BUILD (R159) -/

/-- Digits as packed nibbles with a pad nibble where their number is odd (R153). -/
def packNibbles (right : Bool) (pad : Nat) (ds : List Nat) : List Byte :=
  let l := if ds.length % 2 = 0 then ds else if right then ds ++ [pad] else pad :: ds
  (List.range (l.length / 2)).map (fun i => BitVec.ofNat 8 (16 * l.getD (2 * i) 0 + l.getD (2 * i + 1) 0))

/-- `n` decimal digits of a number, most significant first. -/
def decDigits : Nat → Nat → List Nat
  | 0, _ => []
  | n + 1, v => decDigits n (v / 10) ++ [v % 10]

/-- A length prefix written; none where the length needs more digits (R153). -/
def prefixBytes (t e : List Byte) (n : Nat) : Option (List Byte) :=
  let lt := field e 2 1
  let enc := field e 3 1
  if lt = 0 then some []
  else if 10 ^ (lt + 1) ≤ n ∧ enc ≤ 2 then none
  else if enc ≤ 1 then some ((decDigits (lt + 1) n).map (fun d => ofAscii t enc (BitVec.ofNat 8 (0x30 + d))))
  else if enc = 2 then some (packNibbles false 0 (decDigits (if lt = 1 then 2 else 4) n))
  else if lt = 1 then (if n < 256 then some (Word.beBytes 1 n) else none)
  else some (Word.beBytes 2 n)

/-- A field's message bytes from its data-area bytes, or none where they break its format (R153, R159). -/
def fieldBytes (t : List Byte) (k : Nat) (neg : Bool) (data : List Byte) : Option (List Byte) :=
  let e := fmtEntry t k
  let content := field e 0 1
  let enc := field e 1 1
  let right := Word.bit 0 (field e 6 1)
  let fixed := field e 2 1 == 0
  if content = 0 ∨ field t 6 2 < k ∨ (fixed && decide (data.length ≠ field e 4 2)) ∨ field e 4 2 < data.length then none
  else match prefixBytes t e data.length with
    | none => none
    | some pre =>
      match content with
      | 1 => (data.mapM asciiDigit).map (fun ds =>
          let sgn := if Word.bit 3 (field e 6 1) then [ofAscii t enc (if neg then 0x44#8 else 0x43#8)] else []
          pre ++ sgn ++ (if enc = 2 then packNibbles right 0 ds else data.map (ofAscii t enc)))
      | 2 => some (pre ++ (if Word.bit 1 (field e 6 1) then data.map (ofAscii t enc) else data))
      | 4 =>
        if enc = 2 then (data.mapM (fun b => if b = 0x3D#8 then some 13 else asciiDigit b)).map (fun ds => pre ++ packNibbles right 15 ds)
        else some (pre ++ data.map (ofAscii t enc))
      | _ => some (pre ++ data)

/-- A bitmap written (R151, R159). -/
def bitmapBytes (t : List Byte) (bits : List Bool) : List Byte :=
  let enc := field t 2 1
  let bytes := (List.range 8).map (fun i => BitVec.ofNat 8 (bitsVal ((bits.drop (8 * i)).take 8)))
  if enc = 0 then bytes
  else (nibbles bytes).map (fun n => ofAscii t (enc - 1) (BitVec.ofNat 8 (if n < 10 then 0x30 + n else 0x37 + n)))

/-- Bytes built field by field within a limit: the output, the fields done and the failure, if any (R159). -/
def buildFields (t vec : List Byte) (outMax : Nat) : List Nat → List Byte × Nat → List Byte × Nat × Option CodecErr
  | [], (out, n) => (out, n, none)
  | k :: r, (out, n) =>
    let e := slice vec (64 + 16 * (k - 1)) 16
    match fieldBytes t k (Word.bit 2 (field e 6 1)) (slice vec (field e 0 4) (field e 4 2)) with
    | none => (out, n, some (stFieldBad, k, out.length))
    | some bs =>
      if outMax < out.length + bs.length then (out, n, some (stOutFull, k, out.length))
      else buildFields t vec outMax r (out ++ bs, n + 1)

/-- BUILD: the output, the fields done and the failure, if any (R159). -/
def codecBuild (t vec : List Byte) (outMax : Nat) : List Byte × Nat × Option CodecErr :=
  let ks := ((List.range 192).map (fun i => i + 1)).filter (fun k => Word.bit ((k - 1) % 64) (field vec (8 + 8 * ((k - 1) / 64)) 8))
  let mtiDs := (vec.take 4).mapM asciiDigit
  let enc := field t 1 1
  let third := ks.any (fun k => decide (129 ≤ k))
  let second := third || ks.any (fun k => decide (65 ≤ k))
  let maps := if third then 3 else if second then 2 else 1
  let bit := fun (k : Nat) => (k == 1 && second) || (k == 65 && third) || ks.contains k
  let mtiBad := decide (enc ≠ 3) && (match mtiDs with
    | some ds => decide (field t 8 1 ≠ 0xFF) && decide (ds.headD 10 ≠ field t 8 1)
    | none => true)
  if field t 0 1 = 1 then ([], 0, some (stFormatBad, 0, 0))
  else if mtiBad then ([], 0, some (stFieldBad, 0, 0))
  else
    let mti := if enc = 3 then [] else if enc = 2 then packNibbles false 0 (mtiDs.getD []) else (vec.take 4).map (ofAscii t enc)
    let head := slice vec 4160 (field t 4 2) ++ mti ++
      (List.range maps).flatMap (fun i => bitmapBytes t ((List.range 64).map (fun j => bit (64 * i + j + 1))))
    if outMax < head.length then ([], 0, some (stOutFull, 0, 0)) else buildFields t vec outMax ks (head, 0)

/-! ## The FCODEC jobs (R158) -/

/-- The FCODEC page of a cluster. -/
def fcodecPage (c : Nat) : Nat := pageOf .fcodec c

/-- The field codecs as units with descriptors (R139, R158). -/
def fcodecKind : UnitKind :=
  { descLen := 64, doneAt := 40, tagAt := 48, blockLen := 32, blockTag := 8, errAt := 0, depth := 32, jobsDone := some 0x048, errOf := laneErr }

/-- Whether a codec descriptor is refused with DESC_BAD (R158). -/
def fcodecDescBad (d : List Byte) : Bool :=
  decide (2 < field d 0 1) || !allZero (slice d 1 3) || !allZero (slice d 36 4) || !allZero (d.drop 56)

/-- What a codec job comes to: status, field, offset, bytes, fields, the bytes it writes and where, and ERR_ADDR. -/
structure CodecRes where
  status : Nat
  fld : Nat
  off : Nat
  bytes : Nat
  fields : Nat
  addr : Nat
  out : List Byte
  err : Nat

/-- A codec job's result on the memory as it is (R150, R156, R158, R159). A BUILD of an item with a budget stops before it would produce
more than `room` bytes, with ABORTED (R214). -/
def State.codecJob (s : State) (d : List Byte) (room : Option Nat) : CodecRes :=
  let fa := field d 8 8
  let ma := field d 16 8
  let va := field d 24 8
  let len := field d 4 4
  let op := field d 0 1
  let stop := fun (st err : Nat) =>
    ({ status := st, fld := 0, off := 0, bytes := 0, fields := 0, addr := 0, out := [], err := err } : CodecRes)
  if fcodecDescBad d then stop stDescBad 0
  else match (if field d 40 8 % 64 = 0 then none else some (field d 40 8, stAccess)).or (s.agentFault false fa 32) with
    | some f => stop stAccess f.1
    | none =>
      let tlen := s.valAt (fa + 24) 4
      match s.agentFault false fa tlen,
            (if op = 2 then s.agentFault false va 16384 else s.agentFault false ma len),
            (if op = 1 then s.agentFault false va 16384 else none) with
      | some f, _, _ => stop stAccess f.1
      | none, some f, _ => stop stAccess f.1
      | none, none, some f => stop stAccess f.1
      | none, none, none =>
        let t := s.bytesAt fa tlen
        if !formatOk t then stop stFormatBad fa
        else if op = 2 then
          let limit := min (field d 32 4) (room.getD (field d 32 4))
          let (out, n, e) := codecBuild t (s.bytesAt va 16384) limit
          match s.agentFault false ma out.length with
          | some f => stop stAccess f.1
          | none =>
            let (st, k, o) := e.getD (stOk, 0, 0)
            { status := if st = stOutFull ∧ limit < field d 32 4 then stAborted else st, fld := k, off := o, bytes := out.length,
              fields := n, addr := ma, out := out, err := 0 }
        else
          let msg := s.bytesAt ma len
          match codecWalk t msg with
          | .error ((st, k, o), n) =>
            { status := st, fld := k, off := o, bytes := min o len, fields := n, addr := 0, out := [], err := 0 }
          | .ok p =>
            let base : CodecRes := { status := stOk, fld := 0, off := 0, bytes := p.used, fields := p.fields.length, addr := 0,
                                     out := [], err := 0 }
            if op = 0 then base
            else match vecBytes t p with
              | .error ((st, k, o), n) => { base with status := st, fld := k, off := o, fields := n }
              | .ok v => { base with addr := va, out := v }

/-- The done block of a codec job (R158). -/
def codecBlock (d : List Byte) (r : CodecRes) : List Byte :=
  fit 32 (Word.leBytes 2 r.status ++ Word.leBytes 2 r.fld ++ Word.leBytes 4 r.off ++ (d.drop 48).take 8 ++
    Word.leBytes 4 r.bytes ++ Word.leBytes 4 r.fields)

/-- The message bytes that the item of a job may still produce, where its budget is checked (R214). -/
def State.buildRoom (s : State) (j : UnitJob) : Option Nat := match j.core with
  | none => none
  | some key =>
    let x := s.coreAt key
    match x.held with
    | some h => if h.checked then some ((x.bud 6).toNat - (x.cnt 6).toNat) else none
    | none => none

/-- The bytes that a BUILD produced are charged, and a BUILD that stopped at the budget stops its core at the next instruction boundary
(R214). -/
def State.buildCharge (s : State) (j : UnitJob) (n : Nat) (above : Bool) : State := match j.core with
  | none => s
  | some key =>
    let x := s.coreAt key
    if x.held.isSome then
      let x1 := x.setCnt 6 (x.cnt 6 + BitVec.ofNat 32 n)
      s.setCoreAt key (if above then { x1 with budgetStop := some 6 } else x1)
    else s

/-- The codec starts its next job if that asks for the operation, and works it out; a bad descriptor is settled at once by any
(R134, R150). Its accesses wait while the cluster's L2 is being cleaned (R242). -/
def State.codecStart (s : State) (c op : Nat) : State :=
  let pg := fcodecPage c
  let u := s.unit pg
  if u.run.isSome || !s.unitEn pg || s.l2Waits c then s
  else match u.fifo.head? with
    | none => s
    | some j0 =>
      if !fcodecDescBad j0.desc && field j0.desc 0 1 != op then s
      else match s.popJob fcodecKind pg false with
        | none => s
        | some (j, s1) =>
          let r := s1.codecJob j.desc (s1.buildRoom j)
          let s0 := if r.out.isEmpty then s1 else s1.agentWrite r.addr r.out
          let s2 := if field j.desc 0 1 = 2 then s0.buildCharge j r.bytes (decide (r.status = stAborted)) else s0
          s2.setRun pg (some { RunJob.start j false with
            fin := some { status := r.status, block := codecBlock j.desc r, info1 := r.fld, info2 := r.err % 2 ^ 32 },
            hits := r.bytes, at_ := r.fld * 65536 + r.off % 65536 })

/-- A codec job's done block is written, and the counters follow (the FCODEC page). -/
def State.codecFinish (s : State) (c : Nat) (r : RunJob) (e : JobEnd) : State :=
  let pg := fcodecPage c
  let s1 := ((s.setRun pg none).doneBlock fcodecKind pg r.job.desc e.block e.info1 e.info2).addWide pg 0x04C r.hits
  if e.status = stLenShort ∨ e.status = stLenLong ∨ e.status = stFieldBad ∨ e.status = stFormatBad then
    (s1.addReg pg 0x054 1).setReg pg 0x400 (BitVec.ofNat 32 r.at_)
  else s1

/-- The running job ends. -/
def State.codecDone (s : State) (c : Nat) : State :=
  match (s.unit (fcodecPage c)).run with
  | some r => match r.fin with
    | some e => s.codecFinish c r e
    | none => s
  | none => s

/-- ABORT ends the running job with ABORTED (R133). How far it had come is open: the bytes and fields it counts are free values within the
job's own, and so is what it has written (Assumption 43). -/
def State.codecAbort (s : State) (c : Nat) : State :=
  match (s.unit (fcodecPage c)).run with
  | some r =>
    let d := r.job.desc
    let x := s.codecJob d none
    let (bytes, s1) := s.freeW
    let (fields, s2) := s1.freeW
    let (out, s3) := s2.freeBytes x.out.length
    let n := bytes.toNat % (r.hits + 1)
    let y : CodecRes := { x with status := stAborted, fld := 0, off := 0, bytes := n, fields := fields.toNat % (x.fields + 1), err := 0 }
    (if x.out.isEmpty then s3 else s3.agentWrite x.addr out).codecFinish c { r with hits := n }
      { status := stAborted, block := codecBlock d y, info1 := 0, info2 := 0 }
  | none => s

/-- SOFT_RESET ends every job with ABORTED and clears the counters (the FCODEC page). -/
def State.codecSoftReset (s : State) (c : Nat) : State :=
  let pg := fcodecPage c
  let s1 := s.codecAbort c
  let s2 := (s1.emptyFifos fcodecKind pg).abortJobs fcodecKind pg (s1.unit pg).fifo
  (s2.zeroRegs pg [0x048, 0x054]).setWide pg 0x04C 0

/-- FCODEC_WALK (R150). -/
def execFcodecWalk (c : Fin 12) (s : State) : Host.Outcome State Fault Refusal := .next (s.codecStart c.val 0)
/-- FCODEC_PARSE (R156). -/
def execFcodecParse (c : Fin 12) (s : State) : Host.Outcome State Fault Refusal := .next (s.codecStart c.val 1)
/-- FCODEC_BUILD (R159). -/
def execFcodecBuild (c : Fin 12) (s : State) : Host.Outcome State Fault Refusal := .next (s.codecStart c.val 2)
/-- FCODEC_JOB_DONE (R158). -/
def execFcodecJobDone (c : Fin 12) (s : State) : Host.Outcome State Fault Refusal := .next (s.codecDone c.val)
/-- FCODEC_ABORT (R133). -/
def execFcodecAbort (c : Fin 12) (s : State) : Host.Outcome State Fault Refusal := .next (s.codecAbort c.val)
/-- FCODEC_SOFT_RESET (the FCODEC page). -/
def execFcodecSoftReset (c : Fin 12) (s : State) : Host.Outcome State Fault Refusal := .next (s.codecSoftReset c.val)

/-! ## Templates (R160, R161) -/

/-- Whether a template keeps R160 and R161. -/
def templateOk (t : List Byte) : Bool :=
  let n := field t 2 2
  decide (32 ≤ t.length) && field t 0 1 == 1 && field t 1 1 == 0 && decide (1 ≤ n) && decide (n ≤ 1024) &&
    decide (field t 8 4 ≤ 65536) && allZero (slice t 20 12) && decide (32 + 8 * n ≤ t.length) &&
    decide (field t 4 4 + field t 8 4 ≤ t.length) && (field t 12 4 == 0 || decide (field t 12 4 + 256 ≤ t.length)) &&
    (List.range n).all (fun i =>
      let e := slice t (32 + 8 * i) 8
      let a := field e 2 2
      let b := field e 4 4
      decide (1 ≤ field e 0 1) && decide (field e 0 1 ≤ 6) && decide (field e 1 1 < 4) &&
        (match field e 0 1 with
          | 1 => decide (a + b ≤ field t 8 4)
          | 2 => decide (a < 256)
          | 3 => decide (a < 256)
          | 4 => decide (a < 256)
          | 5 => decide (a < 64)
          | _ => true))

end Sys2Proof.Machine
end

