-- ==== Sys2Proof/Machine/Pipelines.lean ====
section
/-!
DEFINITION. Pipeline images (R163–R182): the structural checks of LOAD_PIPELINE and the admission check of a pipeline set.
-/
namespace Sys2Proof.Machine
open Sys2Proof

/-- No node, or no reference, in a report (R181). -/
def noNode : Nat := 0xFFFFFFFF

/-- A refused image: its reason, and bytes 20–31 of the CQE (R181). -/
structure PipeFail where
  reason : Nat
  b20 : Nat
  b24 : Nat
  b28 : Nat
  deriving DecidableEq, Repr

/-- A failure that names a node or none. -/
def failAt (reason node : Nat) : PipeFail := { reason := reason, b20 := node, b24 := 0, b28 := 0 }

/-- CQE bytes 16–31 of a failure; counts saturate (R181). -/
def PipeFail.info (f : PipeFail) : List Byte :=
  Word.leBytes 4 f.reason ++ Word.leBytes 4 f.b20 ++ Word.leBytes 4 (Word.saturate 0xFFFFFFFF f.b24) ++
    Word.leBytes 4 (Word.saturate 0xFFFFFFFF f.b28)

/-- The status of LOAD_PIPELINE for a reason (R181). -/
def PipeFail.status (f : PipeFail) : Nat := if f.reason ≤ 5 then 0x0401 else 0x010B

/-! ## The image (R164–R169) -/

/-- A node entry (R166). -/
def nodeOf (e : List Byte) : PNode :=
  { op := field e 2 1, flags := field e 3 1, in0 := field e 4 2, in1 := field e 6 2, a := field e 8 4, b := field e 12 4,
    xMax := field e 16 4, codeOff := field e 20 4, codeLen := field e 24 4, paramOff := field e 28 4, paramLen := field e 32 4,
    tref := field e 36 2, idx := field e 38 1, func := field e 39 1, fmt := field e 40 2, slot := field e 42 2 }

/-- A table reference and its column uses (R168). -/
def trefOf (rodata e : List Byte) : PTabRef :=
  let off := field e 12 4
  let n := field e 16 2
  let inside := decide (off + 4 * n ≤ rodata.length)
  let uses := if inside then (List.range n).map (fun i => (field rodata (off + 4 * i) 2, field rodata (off + 4 * i + 2) 1)) else []
  { table := field e 0 2, access := field e 2 1, check := slice e 4 8, uses := uses,
    bad := field e 3 1 != 0 || decide (32 ≤ field e 2 1) || !allZero (e.drop 18) || !inside || uses.any (fun u => decide (9 < u.2)) ||
      (inside && (List.range n).any (fun i => field rodata (off + 4 * i + 3) 1 != 0)) }

/-- Whether a header keeps R164. -/
def pipeHeadOk (img : List Byte) : Bool :=
  let cls := field img 14 1
  img.take 8 == ascii "STXPIPIM" && field img 11 1 == 1 && field img 124 4 == crc32c (img.take 124) && field img 12 2 != 0xFFFF &&
    decide (cls ≤ 1) && field img 15 1 == 0 && decide (1 ≤ field img 20 2) && decide (field img 20 2 ≤ 64) &&
    decide (1 ≤ field img 22 2) && decide (field img 22 2 ≤ 256) && decide (field img 24 2 ≤ 800) && field img 26 2 == 0 &&
    field img 72 4 % 1024 == 0 && allZero (slice img 112 12) &&
    (if cls = 0 then decide (16 ≤ field img 28 4) && decide (field img 28 4 ≤ 16384) && field img 64 8 == 0 && field img 76 4 == 0
     else field img 28 4 == 0 && allZero (slice img 32 32) && field img 64 8 % 2 ^ 20 == 0 && decide (field img 76 4 ≤ 4096))

/-- Whether a directory keeps R165. -/
def pipeDirOk (img : List Byte) (sects : List Sect) : Bool :=
  let n := sects.length
  let count := fun k => (sects.filter (fun x => x.kind == k)).length
  let head : Sect := { kind := 0, num := 0, count := 0, off := 0, len := 128 + 32 * n, crc := 0 }
  let sig : Sect := { kind := 0, num := 0, count := 0, off := img.length - 1600, len := 1600, crc := 0 }
  let codeNeeded := match sects.find? (fun x => x.kind == 1) with
    | some x => (List.range x.count).any (fun k => field (x.bytes img) (64 * k + 24) 4 != 0)
    | none => false
  sects.zipIdx.all (fun p =>
    let x := p.1
    let raw := slice img (128 + 32 * p.2) 32
    decide (1 ≤ x.kind) && decide (x.kind ≤ 8) && field raw 1 1 == 0 && field raw 28 4 == 0 &&
      (if x.kind = 6 ∨ x.kind = 7 then decide (x.num ≤ 15) else x.num == 0) && x.off % (if x.kind = 2 then 128 else 64) == 0 &&
      decide (x.off + x.len ≤ img.length - 1600) && x.crc == crc32c (x.bytes img) &&
      x.len == x.count * (if x.kind = 1 then 64 else if x.kind = 4 then 16 else if x.kind = 5 then 32 else 1)) &&
    sectsApart (head :: sig :: sects) && (sects.map (fun x => (x.kind, x.num))).Nodup && count 1 == 1 &&
    (sects.find? (fun x => x.kind == 1)).map Sect.count == some (field img 22 2) &&
    (!codeNeeded || count 2 == 1) && (count 8 == 0 || field img 14 1 == 1)

/-- Whether a node keeps R166 and R167, apart from the section its FORMAT names. -/
def nodeOk (img : List Byte) (e : List Byte) (k codeLen roLen refs : Nat) : Bool :=
  let n := nodeOf e
  let cls := field img 14 1
  let input := fun (i : Nat) => decide (i < k) || i == 0xFFFE || i == 0xFFFF
  let keyed := n.op == 12 || n.op == 13 || (n.op == 14 && digKeyed n.func)
  field e 0 2 == k && decide (1 ≤ n.op) && decide (n.op ≤ 18) && decide (n.flags < 4) && allZero (e.drop 44) && input n.in0 &&
    (if n.op = 5 then input n.in1 else n.in1 == 0xFFFF) && decide (n.codeOff + n.codeLen ≤ codeLen) &&
    decide (n.paramOff + n.paramLen ≤ roLen) && (n.tref == 0xFFFF || decide (n.tref < refs)) &&
    (if n.op = 4 then decide (n.idx ≤ 7) else if n.op = 17 then decide (n.idx ≤ 7) || n.idx == 0xFF else n.idx == 0) &&
    (if n.op = 17 then decide (1 ≤ n.func) && decide (n.func ≤ 6)
     else if n.op = 14 then decide (1 ≤ n.func) && decide (n.func ≤ 10) else n.func == 0) &&
    (n.op == 10 || n.op == 11 || n.fmt == 0xFFFF) && ((n.slot != 0xFFFF) == keyed) && decide (cls ≤ 1)

/-- The section that a DECODE or ENCODE node's FORMAT names (R166). -/
def fmtSect (sects : List Sect) (n : PNode) : Option Sect :=
  let kind := if n.op = 11 ∧ Word.bit 0 n.flags = false then 7 else 6
  if n.op = 10 ∨ n.op = 11 then sects.find? (fun x => x.kind == kind && x.num == n.fmt) else none

/-- The first fault of format tables and templates: those a node names, and those none names (R181). -/
def formatFault (img : List Byte) (sects : List Sect) (nodes : List PNode) : Option Nat :=
  match nodes.findIdx? (fun n => (n.op == 10 || n.op == 11) && (fmtSect sects n).isNone) with
  | some k => some k
  | none =>
    (sects.find? (fun x => (x.kind == 6 && !formatOk (x.bytes img)) || (x.kind == 7 && !templateOk (x.bytes img)))).map (fun x =>
      (nodes.findIdx? (fun n => fmtSect sects n == some x)).getD noNode)

/-- Whether a relocation keeps R169. -/
def relocOk (sects : List Sect) (roLen refs : Nat) (r : List Byte) : Bool :=
  let kind := field r 4 1
  let sym := field r 6 2
  let add := field r 8 8
  field r 5 1 == 0 && field r 0 4 % 8 == 0 && decide (field r 0 4 + 8 ≤ roLen) &&
    (if kind = 1 then (match sects[sym]? with
      | some x => decide (add < x.len)
      | none => false)
     else add == 0 && (if kind = 2 then decide (sym < refs) else if kind = 3 then decide (sym ≤ 5)
      else kind == 4 && decide (sym ≤ 2)))

/-- The structural checks of an image whose signature block holds, and the pipeline it carries (R163–R171). -/
def pipeOf (img : List Byte) : Except PipeFail Pipe :=
  if !pipeHeadOk img then .error (failAt 6 noNode)
  else
    let sects := sectsOf img (field img 20 2)
    if 128 + 32 * sects.length + 1600 ≤ img.length && pipeDirOk img sects then
      let sec := fun k => match sects.find? (fun x => x.kind == k) with
        | some x => x.bytes img
        | none => []
      let raw := sec 1
      let ro := sec 3
      let nn := field img 22 2
      let refs := (sec 5).length / 32
      let ents := (List.range nn).map (fun k => slice raw (64 * k) 64)
      match ents.zipIdx.find? (fun p => !nodeOk img p.1 p.2 (sec 2).length ro.length refs) with
      | some p => .error (failAt 9 p.2)
      | none =>
        let nodes := ents.map nodeOf
        if field img 14 1 = 0 ∧ nodes.all (fun n => n.op != 15) then .error (failAt 9 noNode)
        else match formatFault img sects nodes with
          | some k => .error (failAt 11 k)
          | none =>
            let rel := sec 4
            if (List.range (rel.length / 16)).any (fun i => !relocOk sects ro.length refs (slice rel (16 * i) 16)) then
              .error (failAt 8 noNode)
            else
              let sb := img.drop (img.length - 1600)
              .ok { id := field img 12 2, cls := field img 14 1, digest := slice sb 48 64, keyHash := slice sb 16 32,
                    cap := field img 24 2, resultMax := field img 28 4,
                    budgets := (List.range 8).map (fun i => field img (32 + 4 * i) 4), workspace := field img 64 8,
                    greenMin := field img 72 4, argLen := field img 76 4, image := img, nodes := nodes,
                    trefs := (List.range refs).map (fun i => trefOf ro (slice (sec 5) (32 * i) 32)),
                    formats := (sects.filter (fun x => x.kind == 6)).map (fun x => (x.num, x.bytes img)),
                    templates := (sects.filter (fun x => x.kind == 7)).map (fun x => (x.num, x.bytes img)),
                    cams := (List.range (rel.length / 16)).filterMap (fun i =>
                      let r := slice rel (16 * i) 16
                      if field r 4 1 = 4 then some (field r 6 2) else none),
                    rodata := ro, load := 0 }
    else .error (failAt 7 noNode)

/-! ## The image store (R169, R171, R174, R175) -/

/-- The device address of a loaded image: 128-byte units, within HBM (R171, Assumption 138). Its relocated RODATA follows it. -/
def imageAddr (load : Nat) : Nat := Config.imageAt load % ((hbmSize - 2 ^ 27) / 128) * 128

/-- The sections of a loaded image (R165). -/
def Pipe.sects (p : Pipe) : List Sect := sectsOf p.image (field p.image 20 2)

/-- The device address of a section of a loaded image: RODATA is the relocated one (R169). -/
def Pipe.sectAddr (p : Pipe) (x : Sect) : Nat := imageAddr p.load + (if x.kind = 3 then p.image.length else x.off)

/-- The word that a relocation writes (R169). -/
def Pipe.relocWord (p : Pipe) (r : List Byte) : Word64 :=
  let sym := field r 6 2
  match field r 4 1 with
  | 1 => match p.sects[sym]? with
    | some x => BitVec.ofNat 64 (p.sectAddr x + field r 8 8)
    | none => 0
  | 2 => Config.tableHandle p.load sym
  | 3 => Config.libEntry sym
  | _ => BitVec.ofNat 64 sym

/-- A pipeline as it is loaded: its relocations are applied to RODATA, in their order (R169, R171). -/
def Pipe.placed (p : Pipe) (load : Nat) : Pipe :=
  let q := { p with load := load }
  let rel := ((q.sects.find? (fun x => x.kind == 4)).map (fun x => x.bytes q.image)).getD []
  { q with rodata := (List.range (rel.length / 16)).foldl (fun ro i =>
      let r := slice rel (16 * i) 16
      let o := field r 0 4
      ro.take o ++ Word.leBytes 8 (q.relocWord r).toNat ++ ro.drop (o + 8)) q.rodata }

/-- Bytes that a loaded image takes in the image store: the image and its relocated RODATA (R175). -/
def Pipe.storeLen (p : Pipe) : Nat := p.image.length + p.rodata.length

/-- The offset of an address within the CODE section of a loaded image (R217). -/
def Pipe.codeOffset (p : Pipe) (a : Nat) : Option Nat :=
  match p.sects.find? (fun x => x.kind == 2) with
  | some x => if p.sectAddr x ≤ a ∧ a < p.sectAddr x + x.len then some (a - p.sectAddr x) else none
  | none => none

/-! ## The admission check (R177–R182) -/

/-- The settings an admission check uses (R177). -/
structure Settings where
  p : Nat
  q : Nat
  admits : Nat
  cluster : Nat
  domain : Nat
  act : Nat
  caps : List Nat
  shares : List Nat
  greens : List Nat
  units : Nat
  members : Nat

/-- The parameter registers, as a START_CUES would take them (R73, R349). -/
def State.cueRegs (s : State) : CueParams :=
  { period := s.fld cuePage 0x040 7 0, admits := s.fld cuePage 0x044 9 0, cluster := s.fld cuePage 0x048 9 0,
    domain := s.fld cuePage 0x04C 6 0, stretch := s.fld cuePage 0x050 5 0, act := s.fld cuePage 0x054 10 0,
    reserve := s.fld cuePage 0x400 7 0,
    svcCaps := [s.fld keysPage 0x070 9 0, s.fld keysPage 0x074 9 0, s.fld keysPage 0x078 9 0], pool := s.poolGib }

/-- The settings of a check: those in force, or those the next START_CUES will use (R177, R183). -/
def State.settings (s : State) (inForce : Bool) : Settings :=
  let c := if inForce then s.cue.par else s.cueRegs
  { p := c.period, q := c.reserve, admits := c.admits, cluster := c.cluster, domain := c.domain, act := c.act, caps := c.svcCaps,
    shares := (List.range 12).map (fun k => if inForce then s.fld (dispPage k) 0x040 12 8 else s.fld (dispPage k) 0x040 4 0),
    greens := (List.range 12).map (fun k => s.greenNow k * 512), units := s.lsuUnits,
    members := if s.cascaded then s.otherRanks.length + 1 else 1 }

/-- The charges of a node by counter at X_MAX, the bound of OPS first (R120, R121, R180). -/
def nodeCharges (p : Pipe) (n : PNode) : List Nat :=
  let at_ := fun (ops : List Nat) (v : Nat) => if ops.contains n.op then v else 0
  [n.a + n.b * n.xMax, at_ [4] n.xMax, at_ [9] n.xMax, at_ [12] 1, at_ [13] 1, at_ [14] n.xMax,
   if n.op = 10 ∨ (n.op = 11 ∧ Word.bit 0 n.flags = true) then Config.msgMax (slice p.rodata n.paramOff n.paramLen) else 0,
   at_ [16, 17] n.xMax]

/-- The lowest-numbered node that names a reference (R181). -/
def Pipe.refNode (p : Pipe) (i : Nat) : Nat := (p.nodes.findIdx? (fun n => n.tref == i)).getD noNode

/-- The table of a reference, where it is attached and its DESC_CHECK agrees (R168). -/
def State.refTable (s : State) (r : PTabRef) : Option TableDef :=
  match s.table r.table with
  | some t => if t.desc.check == r.check then some t.desc else none
  | none => none

/-- Whether a use suits its column's type (R50, R79). -/
def useTypeOk (use : Nat) (c : ColDef) : Bool :=
  match use with
  | 8 => c.isRing
  | 1 => !c.isRing
  | 2 => !c.isRing
  | 6 => c.typ == 0 && !c.signed
  | 7 => c.typ == 0 && !c.signed
  | _ => c.typ == 0

/-- A write rule that a reference breaks (R180, reason 13). -/
def refWriteBad (tx : Bool) (r : PTabRef) (d : TableDef) : Bool :=
  (Word.bit 4 r.access && (tx || !d.scratch)) || ((Word.bit 2 r.access || Word.bit 3 r.access) && (!tx || d.scratch)) ||
    r.uses.any (fun u =>
      if u.2 = 0 ∨ u.2 = 9 then false
      else match d.col u.1 with
        | some c => (u.2 != 2 && (d.isKey u.1 || !c.writable)) || !useTypeOk u.2 c
        | none => true)

/-- Whether WRITE is allowed on a table: a domain column that every unique index includes (R45). -/
def writable (d : TableDef) : Bool :=
  !d.scratch && (match d.domain with
    | some c => d.idxs.all (fun i => !i.unique || i.keys.contains c)
    | none => false)

/-- A write rule that a node breaks (R180, reason 13). -/
def nodeWriteBad (n : PNode) (r : PTabRef) (d : TableDef) : Bool :=
  if n.op = 16 then !Word.bit 2 r.access || !writable d
  else
    !Word.bit 3 r.access || !r.uses.any (fun u => u.2 == n.func + 2) ||
      (n.idx != 0xFF && (match d.idxs[n.idx]? with
        | some i => !i.unique
        | none => true))

/-- A read rule that a reference breaks (R180, reason 14). -/
def refReadBad (tx : Bool) (r : PTabRef) (d : TableDef) : Bool :=
  (tx && d.scratch) || r.uses.any (fun u => match d.col u.1 with
    | some c => (!tx && c.isRing) || (tx && c.placement == 2) || (u.2 == 9 && !c.isRing) || (u.2 == 0 && c.isRing)
    | none => true)

/-- Whether a node reads the table of its reference: SCAN and WINDOW do; any other operator, EMIT and COMPRESS apart, does if the reference
lists a column to be read (DEDUCED, Assumption 147). -/
def nodeReads (n : PNode) (r : PTabRef) : Bool :=
  n.op == 1 || n.op == 8 || (n.op != 15 && n.op != 18 && r.uses.any (fun u => u.2 == 0 || u.2 == 9))

/-- A read rule that a node breaks (R180, reason 14). -/
def nodeReadBad (n : PNode) (r : PTabRef) (d : TableDef) : Bool :=
  if n.op = 4 then !Word.bit 1 r.access || decide (d.idxs.length ≤ n.idx) else nodeReads n r && !Word.bit 0 r.access

/-- The first rule of a kind that an image breaks: by reference, then by node (R180, R181). -/
def ruleFault (p : Pipe) (ds : List TableDef) (reason : Nat) (ofRef : PTabRef → TableDef → Bool) (mine : PNode → Bool)
    (needs : PNode → Bool) (ofNode : PNode → PTabRef → TableDef → Bool) : Option PipeFail :=
  match ((p.trefs.zip ds).zipIdx.find? (fun x => ofRef x.1.1 x.1.2)) with
  | some x => some { reason := reason, b20 := p.refNode x.2, b24 := x.2, b28 := 0 }
  | none =>
    (p.nodes.zipIdx.find? (fun x => mine x.1 && (match p.trefs[x.1.tref]?, ds[x.1.tref]? with
      | some r, some d => ofNode x.1 r d
      | _, _ => needs x.1))).map (fun x =>
        { reason := reason, b20 := x.2, b24 := if x.1.tref = 0xFFFF then noNode else x.1.tref, b28 := 0 })

/-- The operators a class may not hold (R117). -/
def bannedOps (cls : Nat) : List Nat := if cls = 0 then [1, 5, 6, 7, 18] else [8, 10, 11, 12, 13, 16, 17]

/-- The checks of one image against the tables and the settings (R180, reasons 10 and 12 to 16 and 19). -/
def State.imageFault (s : State) (st : Settings) (p : Pipe) : Option PipeFail :=
  let tx := p.cls == 0
  let least := st.greens.foldl min 6144
  match p.nodes.findIdx? (fun n => (bannedOps p.cls).contains n.op) with
  | some k => some (failAt 10 k)
  | none =>
    let badRef := p.trefs.zipIdx.find? (fun x => x.1.bad || (match s.refTable x.1 with
      | some d => x.1.uses.any (fun u => decide (d.cols.length ≤ u.1))
      | none => true))
    match badRef with
    | some x => some { reason := 12, b20 := p.refNode x.2, b24 := x.2, b28 := 0 }
    | none =>
      let ds := p.trefs.filterMap s.refTable
      let w := ruleFault p ds 13 (refWriteBad tx) (fun n => n.op == 16 || n.op == 17) (fun _ => true) nodeWriteBad
      let r := ruleFault p ds 14 (refReadBad tx) (fun n => n.op != 16 && n.op != 17)
        (fun n => n.op == 1 || n.op == 4 || n.op == 8) nodeReadBad
      match w, r with
      | some f, _ => some f
      | none, some f => some f
      | none, none =>
        let signs := (p.nodes.zipIdx.filter (fun x => x.1.op == 13)).map Prod.snd
        match (p.nodes.filter (fun n => n.op != 15)).findSome? (fun n => [n.in0, n.in1].find? (fun i => signs.contains i)) with
        | some k => some (failAt 15 k)
        | none =>
          let charges := p.nodes.map (nodeCharges p)
          let need := fun c => (charges.map (fun l => l.getD c 0)).sum
          let short := (List.range 8).find? (fun c => decide (p.budgets.getD c 0 < need c))
          match if tx then short else none with
          | some c =>
            let top := charges.zipIdx.foldl (fun (b : Nat × Nat) x => if b.1 < x.1.getD c 0 then (x.1.getD c 0, x.2) else b) (0, 0)
            some { reason := 16, b20 := top.2 + c * 65536, b24 := need c, b28 := p.budgets.getD c 0 }
          | none =>
            if decide (least < p.greenMin) || (tx && decide (least < 1024) && p.nodes.any (fun n => n.op == 10 || n.op == 11)) then
              some (failAt 19 0)
            else none

/-- A pipeline of a set as the demands see it: its report code, cap and demand (R180–R182). -/
structure Demand where
  code : Nat
  cap : Nat
  v : Nat

/-- Whether one pipeline comes before another in the greedy order (R180). -/
def Demand.before (a b : Demand) : Bool := if a.v = b.v then decide (a.code ≤ b.code) else decide (b.v < a.v)

/-- worst(limit, v), and the code of the first pipeline in its order (R180). -/
def worst (limit : Nat) (ds : List Demand) : Nat × Nat :=
  let l := ds.mergeSort Demand.before
  ((l.foldl (fun (a : Nat × Nat) d =>
    let k := if d.cap = 0 then a.2 else min a.2 d.cap
    (a.1 + k * d.v, a.2 - k)) (0, limit)).1, (l.map Demand.code).headD 0)

/-- The budgets of the built-in pipelines (R349). -/
def svcBudgets : List (List Nat) := [[300, 0, 0, 0, 1, 0, 0, 0], [300, 0, 0, 1, 0, 0, 0, 0], [300, 0, 0, 0, 0, 260, 0, 0]]

/-- The searches of a node on the chained pair: those of a ROUTE whose parameters hold search handle 2, or, where they hold none, whose image
does (R169, R307; DEDUCED, Assumption 147). -/
def Pipe.pairSearches (p : Pipe) (n : PNode) : Nat :=
  let rel := ((p.sects.find? (fun x => x.kind == 4)).map (fun x => x.bytes p.image)).getD []
  let mine := ((List.range (rel.length / 16)).map (fun i => slice rel (16 * i) 16)).filter (fun r =>
    decide (field r 4 1 = 4) && decide (n.paramOff ≤ field r 0 4) && decide (field r 0 4 < n.paramOff + n.paramLen))
  if n.op = 9 ∧ p.cams.contains 2 = true ∧ (mine.isEmpty || mine.any (fun r => field r 6 2 == 2)) = true then n.xMax else 0

/-- The searches that a pipeline demands of the arrays: its budget, and each search on the chained pair once more (R179, R307). -/
def Pipe.searchDemand (p : Pipe) : Nat := p.budgets.getD 2 0 + (p.nodes.map p.pairSearches).sum

/-- A set's transaction pipelines and the built-in ones with a cap: code, cap, budgets and the cycles of its PROBE nodes (R178, R182). -/
def setEntries (st : Settings) (ps : List Pipe) : List (Nat × Nat × List Nat × Nat) :=
  (ps.filter (fun p => p.cls == 0)).map (fun p =>
    (p.id, p.cap, p.budgets, (p.nodes.map (fun n => if n.op = 4 then 2000 + 5 * n.xMax else 0)).sum)) ++
  ((svcBudgets.zip st.caps).zipIdx.filter (fun x => decide (0 < x.1.2))).map (fun x => (65536 + x.2, x.1.2, x.1.1, 0))

/-- Bytes 20–23 of reasons 17 and 18 (R181). -/
def whoTest (code test : Nat) : Nat :=
  if code < 65536 then code + test * 65536 else 0xFFFF + test * 65536 + (code - 65535) * 2 ^ 24

/-- The time and capacity tests over a set (R178–R180, R307). -/
def setFault (st : Settings) (ps : List Pipe) : Option PipeFail :=
  let es := setEntries st ps
  let by_ := fun (c : Nat) => es.map (fun e => ({ code := e.1, cap := e.2.1, v := e.2.2.1.getD c 0 } : Demand))
  let searches := es.map (fun e =>
    let v := match ps.find? (fun p => p.id == e.1) with
      | some p => p.searchDemand
      | none => e.2.2.1.getD 2 0
    ({ code := e.1, cap := e.2.1, v := v } : Demand))
  let (sig, sigWho) := worst st.admits (by_ 4)
  let (ver, verWho) := worst st.admits (by_ 3)
  let u := st.units
  let rounds := Word.ceilDiv (sig + 1) u
  let t := es.map (fun e =>
    let b := e.2.2.1
    ({ code := e.1, cap := e.2.1,
       v := 4 * b.getD 0 0 + e.2.2.2 + 400 * b.getD 2 0 + b.getD 6 0 + 12800 * b.getD 3 0 + 29 * b.getD 5 0 +
         96000 * rounds * b.getD 4 0 } : Demand))
  let w := st.p - st.q - 1
  let above := fun (reason test : Nat) (d : Nat × Nat) (cap : Nat) =>
    if cap < d.1 then some ({ reason := reason, b20 := whoTest d.2 test, b24 := d.1, b28 := cap } : PipeFail) else none
  let actDemand := 48 * (sig * st.act + 1)
  let tests : List (Option PipeFail) :=
    [if u = 0 then above 18 2 (ver, verWho) 0 else none,
     if u = 0 ∧ 0 < sig then some { reason := 18, b20 := whoTest sigWho 3, b24 := actDemand, b28 := 0 } else none,
     above 17 0 (worst st.admits t) (st.shares.sum * w * 2000),
     above 17 1 (worst st.cluster t) (st.shares.foldl min 16 * w * 2000),
     above 17 2 (worst st.domain t) (w * 2000),
     above 18 0 (worst st.admits (by_ 1)) (2400 * st.p),
     above 18 1 (worst st.admits searches) (2000 * st.p / st.members),
     if u = 0 then none else above 18 2 (ver, verWho) (5 * u * st.p / 8),
     if u = 0 then none else above 18 3 (actDemand, sigWho) (u * st.p * st.act),
     above 18 4 (worst st.cluster (by_ 6)) (2000 * st.p),
     above 18 5 (worst st.cluster (by_ 5)) (140 * st.p)]
  tests.findSome? id

/-- The admission check of a pipeline set (R177–R180). -/
def State.admission (s : State) (st : Settings) (ps : List Pipe) : Option PipeFail :=
  match ps.findSome? (s.imageFault st) with
  | some f => some f
  | none => setFault st ps

/-- A pipeline put into a set kept in ascending PIPE_ID, in place of one of the same number. -/
def pipeInsert : List Pipe → Pipe → List Pipe
  | [], p => [p]
  | q :: r, p => if p.id < q.id then p :: q :: r else if p.id = q.id then p :: r else q :: pipeInsert r p

/-- The pipeline of a number. -/
def State.pipe (s : State) (id : Nat) : Option Pipe := s.pipes.find? (fun p => p.id == id)


/-- Bytes of the image store in use: the loaded images and those that jobs alone hold, one load of an image apart from another (R174,
R175). -/
def State.storeUsed (s : State) : Nat :=
  ((s.pipes ++ (s.jobs.map Job.pipe)).eraseDups.map Pipe.storeLen).sum

/-- Whether cues run, so that the settings in force apply (R177). -/
def State.cuesRun (s : State) : Bool := s.cue.unit == 2 || s.cue.phase != .none

/-- A pipeline enters the set: its image and relocated RODATA stand in the image store, and the staging area is sized anew (R76, R171,
R173). -/
def State.placePipe (s : State) (p : Pipe) : State :=
  let q := p.placed s.fresh
  let set := pipeInsert s.pipes q
  { s.storeMem (imageAddr q.load) (q.image ++ q.rodata) with
    pipes := set, fresh := s.fresh + 1, cue := { s.cue with stageWrites := wmaxOf set * (s.settings s.cuesRun).admits } }

/-- The checks of LOAD_PIPELINE in their order (R171, R173, R175); the pipeline it would load, or status and CQE bytes 16–31. -/
def State.pipeLoad (s : State) (img : List Byte) (replace : Bool) : Except (Nat × List Byte) Pipe :=
  let refuse := fun (f : PipeFail) => (Except.error (f.status, f.info) : Except (Nat × List Byte) Pipe)
  if 2 ^ 30 < s.storeUsed + img.length then .error (0x0202, [])
  else if img.length < 128 then refuse (failAt 2 0)
  else if field img 8 2 ≠ 0x9192 ∨ field img 10 1 ≠ 0xB0 then refuse (failAt 1 0)
  else if field img 16 4 ≠ img.length ∨ img.length % 64 ≠ 0 ∨ img.length < 1792 ∨ 2 ^ 26 < img.length then refuse (failAt 2 0)
  else if s.sigBlock "STXPIPE1" img ≠ 0 then refuse (failAt (s.sigBlock "STXPIPE1" img) 0)
  else match pipeOf img with
    | .error f => refuse f
    | .ok p =>
      let loaded := (s.pipe p.id).isSome
      let set := pipeInsert s.pipes p
      if loaded && !replace then refuse (failAt 20 0)
      else if 2 ^ 30 < s.storeUsed + p.storeLen ∨ 256 < set.length ∨ 
          !s.fits (s.tableList.map (fun t => t.2.desc)) (wmaxOf set * (s.settings s.cuesRun).admits) then
        .error (0x0202, [])
      else match s.admission (s.settings s.cuesRun) set with
        | some f => refuse f
        | none => .ok p

end Sys2Proof.Machine
end

