-- ==== Sys2Proof/Machine/Streams.lean ====
section
/-!
DEFINITION. Operator streams (R119, R122): rows and their columns, the expressions of stage programs, and the operators that take rows
and give rows: FILTER, PROJECT, PROBE, ROUTE, DIGEST, JOIN, SORT and AGGREGATE (R140, R146–R149).
-/
namespace Sys2Proof.Machine
open Sys2Proof

/-! ## Rows -/

/-- A row that a PROBE looked for: its table, and the row if there is one (R142, R525). -/
structure Hit where
  table : Nat
  row : Option RowRef
  deriving DecidableEq, Repr

/-- A row of a stream: its cells, the row its PROBE found, and the pairs its WINDOW read, each a cue and a value. -/
structure Row where
  cells : List (List Byte)
  hit : Option Hit
  pairs : List (Nat × Word64)
  deriving DecidableEq, Repr

/-- A stream: its columns and its rows by position (R119). -/
structure Stream where
  cols : List ResCol
  rows : List Row
  deriving DecidableEq, Repr

/-- A row of cells alone. -/
def Row.of (cells : List (List Byte)) : Row := { cells := cells, hit := none, pairs := [] }

/-- The input of a node that reads the message or the argument block: one row without columns. -/
def Stream.unit : Stream := { cols := [], rows := [Row.of []] }

/-- An unsigned INT column of 2^w bytes. -/
def intCol (w : Nat) : ResCol := { typ := 0, width := w, signed := false, bytesLen := 0 }

/-- The stream type of a table's column. -/
def ColDef.res (c : ColDef) : ResCol := { typ := c.typ, width := c.width, signed := c.signed, bytesLen := c.bytesLen }

/-- Bytes of one value of a result column. -/
def resColSize (c : ResCol) : Nat := if c.typ = 1 then c.bytesLen else 2 ^ c.width

/-- The exact number a cell holds under its column's type. -/
def colNum (c : ResCol) (bs : List Byte) : Int :=
  let v := Word.leValue (bs.take (resColSize c))
  if c.typ = 0 ∧ c.signed = true then Word.signed (8 * resColSize c) v else (v : Int)

/-- A number as a cell of a column, wrapped to its width. -/
def colCell (c : ResCol) (x : Int) : List Byte := Word.leBytes (resColSize c) (Word.wrap (8 * resColSize c) x)

/-- The smallest and largest value of an INT column. -/
def colLimits (c : ResCol) : Int × Int :=
  let w := 8 * resColSize c
  if c.signed then (-(2 ^ (w - 1) : Nat), (2 ^ (w - 1) : Nat) - 1) else (0, (2 ^ w : Nat) - 1)

/-- The row size of a stream: 8 bytes, and each column's width rounded up to a multiple of 8 (R526). -/
def rowBytes (cols : List ResCol) : Nat := 8 + (cols.map (fun c => Word.ceilDiv (resColSize c) 8 * 8)).sum

/-! ## Stage programs (Assumption 9) -/

/-- A signature that a SIGN node made: the slot, the message and the signature bytes, held by the Larkspur unit (R167). -/
structure Signed where
  slot : Nat
  msg : List Byte
  sig : List Byte
  deriving DecidableEq, Repr

/-- What a node gives: its stream, a field vector, message bytes, and a signature. -/
structure NodeOut where
  stream : Stream
  vec : List Byte := []
  built : List Byte := []
  signed : Option Signed := none
  deriving DecidableEq, Repr

/-- What a stage program can read: the message or argument block, ORDER_KEY, the cue, the item values, what the earlier nodes gave, and the
table store as its item or job sees it. -/
structure Env where
  msg : List Byte
  key : Nat
  cue : Nat
  vals : List (Nat × Word64)
  outs : List NodeOut
  colType : Nat → Nat → ResCol
  cell : Hit → Nat → List Byte
  find : Nat → Nat → List Byte → List RowRef

/-- One word operation, with the results of the core's integer instructions (R122, R204). -/
def wordApply (o : WordOp) (a b : Word64) : Word64 :=
  let flag := fun (p : Bool) => if p then (1 : Word64) else 0
  match o with
  | .add => a + b
  | .sub => a - b
  | .mul => a * b
  | .divS => if b = 0 then BitVec.allOnes 64 else BitVec.sdiv a b
  | .divU => if b = 0 then BitVec.allOnes 64 else a / b
  | .remU => if b = 0 then a else a % b
  | .and => a &&& b
  | .or => a ||| b
  | .xor => a ^^^ b
  | .shl => a <<< (b.toNat % 64)
  | .shrU => a >>> (b.toNat % 64)
  | .shrS => BitVec.sshiftRight a (b.toNat % 64)
  | .eq => flag (a == b)
  | .ltS => flag (BitVec.slt a b)
  | .ltU => flag (BitVec.ult a b)

/-- A word. -/
def wordOf (x : Int) : Word64 := BitVec.ofNat 64 (Word.wrap 64 x)

/-- The vector entry of a field vector (R156). -/
def vecEntry (vec : List Byte) (k : Nat) : List Byte := slice vec (64 + 16 * k) 16

/-- Whether a vector entry is present (R156). -/
def vecHas (vec : List Byte) (k : Nat) : Bool := Word.bit 0 (field (vecEntry vec k) 6 1)

/-- The data of a vector entry (R156). -/
def vecData (vec : List Byte) (k : Nat) : List Byte :=
  if vecHas vec k then slice vec (field (vecEntry vec k) 0 4) (field (vecEntry vec k) 4 2) else []

/-- NUMBER of a vector entry, negative where NEGATIVE is set (R156). -/
def vecNum (vec : List Byte) (k : Nat) : Int :=
  let e := vecEntry vec k
  if Word.bit 2 (field e 6 1) then -(field e 8 8 : Int) else (field e 8 8 : Int)

/-- A row of what an earlier node gave, or an empty one. -/
def Env.rowAt (v : Env) (node i : Nat) : List ResCol × Row :=
  match v.outs[node]? with
  | some o => (o.stream.cols, o.stream.rows.getD i (Row.of []))
  | none => ([], Row.of [])

/-- The vector a node gave. -/
def Env.vecOf (v : Env) (node : Nat) : List Byte := match v.outs[node]? with
  | some o => o.vec
  | none => []

/-- The value of an expression on a row. -/
def exprEval (v : Env) : Expr → List ResCol → Row → Word64
  | .lit w, _, _ => w
  | .col i, cs, r => match cs[i]? with
    | some c => wordOf (colNum c (r.cells.getD i []))
    | none => 0
  | .msg o n sg, _, _ =>
    let x := Word.leValue (slice v.msg o n)
    wordOf (if sg then Word.signed (8 * n) x else (x : Int))
  | .key, _, _ => BitVec.ofNat 64 v.key
  | .cue, _, _ => BitVec.ofNat 64 v.cue
  | .val i, _, _ => match v.vals.find? (fun p => p.1 == i) with
    | some p => p.2
    | none => 0
  | .num n k, _, _ => wordOf (vecNum (v.vecOf n) k)
  | .present n k, _, _ => if vecHas (v.vecOf n) k then 1 else 0
  | .found, _, r => match r.hit with
    | some h => if h.row.isSome then 1 else 0
    | none => 0
  | .read c, _, r => match r.hit with
    | some h => wordOf (colNum (v.colType h.table c) (v.cell h c))
    | none => 0
  | .pairs, _, r => BitVec.ofNat 64 r.pairs.length
  | .pairSum, _, r => (r.pairs.map Prod.snd).foldl (fun a b => a + b) 0
  | .pairCue i, _, r => BitVec.ofNat 64 ((r.pairs.map Prod.fst).getD i 0)
  | .pairVal i, _, r => (r.pairs.map Prod.snd).getD i 0
  | .rows n, _, _ => match v.outs[n]? with
    | some o => BitVec.ofNat 64 o.stream.rows.length
    | none => 0
  | .at_ n i e, _, _ => exprEval v e (v.rowAt n i).1 (v.rowAt n i).2
  | .op o a b, cs, r => wordApply o (exprEval v a cs r) (exprEval v b cs r)
  | .ite c a b, cs, r => if exprEval v c cs r = 0 then exprEval v b cs r else exprEval v a cs r

/-- The bytes of a piece on a row. A signature has bytes for EMIT alone (R71, R167); `sigs` says whether they are given. -/
def pieceBytes (v : Env) (sigs : Bool) (cs : List ResCol) (r : Row) : Piece → List Byte
  | .lit bs => bs
  | .msg o n => slice v.msg o n
  | .int e n => Word.leBytes n (exprEval v e cs r).toNat
  | .col i => r.cells.getD i []
  | .read c => match r.hit with
    | some h => v.cell h c
    | none => []
  | .cell n i c => (v.rowAt n i).2.cells.getD c []
  | .fld n k => vecData (v.vecOf n) k
  | .built n => match v.outs[n]? with
    | some o => o.built
    | none => []
  | .sig n => if sigs then (match (v.outs[n]?).bind NodeOut.signed with
    | some g => g.sig
    | none => []) else []

/-- The bytes of a list of pieces on a row. -/
def piecesBytes (v : Env) (cs : List ResCol) (r : Row) (ps : List Piece) : List Byte := ps.flatMap (pieceBytes v false cs r)

/-! ## FILTER, PROJECT, PROBE, ROUTE, DIGEST (R122) -/

/-- FILTER: the rows that satisfy the predicate, in input order. -/
def filterRows (v : Env) (e : Expr) (x : Stream) : Stream :=
  { x with rows := x.rows.filter (fun r => decide (exprEval v e x.cols r ≠ 0)) }

/-- PROJECT: the columns it names, each row in its place. -/
def projectRows (v : Env) (ps : List ProjCol) (x : Stream) : Stream :=
  { cols := ps.map (fun p => match p with
      | .keep i => x.cols.getD i (intCol 3)
      | .calc c _ => c),
    rows := x.rows.map (fun r => { r with cells := ps.map (fun p => match p with
      | .keep i => r.cells.getD i []
      | .calc c e => colCell c (exprEval v e x.cols r).toNat) }) }

/-- PROBE: for each row and each of its keys the matches in ascending row number, or one row for a miss; ROW and MATCH_COUNT follow the
input's columns (R119, R123, R142). -/
def probeRows (v : Env) (table idx : Nat) (all : Bool) (keys : List (List Piece)) (x : Stream) : Stream :=
  { cols := x.cols ++ [intCol 3, intCol 2],
    rows := x.rows.flatMap (fun r => keys.flatMap (fun k =>
      let ms := v.find table idx (piecesBytes v x.cols r k)
      let one := fun (m : Option RowRef) =>
        let row := match m with
          | some (.committed n) => n
          | some (.inserted _ _) => 0xFFFFFFFFFFFFFFFE
          | none => 0xFFFFFFFFFFFFFFFF
        ({ cells := r.cells ++ [Word.leBytes 8 row, Word.leBytes 4 ms.length], hit := some { table := table, row := m },
           pairs := r.pairs } : Row)
      match ms with
      | [] => [one none]
      | m :: _ => if all then ms.map (fun q => one (some q)) else [one (some m)])) }

/-- ROUTE: one output per search, in input order: INDEX, FLAGS, MATCH_COUNT and DATA follow the input's columns (R119, R300, R303). -/
def State.routeRows (s : State) (v : Env) (handle : Nat) (keys : List (List Piece × List Piece)) (cascade : List (List Byte))
    (x : Stream) : Stream :=
  let asks := x.rows.flatMap (fun r => keys.map (fun k => (r, k)))
  let wide := fun (bs : List Byte) => BitVec.ofNat 160 (Word.leValue (bs.take 20))
  { cols := x.cols ++ [intCol 2, intCol 0, intCol 2, intCol 3],
    rows := asks.zipIdx.map (fun p =>
      let r := p.1.1
      let h := s.camSearch handle (wide (piecesBytes v x.cols r p.1.2.1)) (wide (piecesBytes v x.cols r p.1.2.2))
      let e := if handle = 2 ∧ s.cascaded = true then cascade.getD p.2 [] else camResult h.win h.count 0 0
      { r with cells := r.cells ++ [slice e 0 4, slice e 4 1, slice e 8 4, slice e 16 8] }) }

/-- DIGEST: one digest per input row; none where its key is refused (R122, R318). -/
def State.digestRows (s : State) (v : Env) (func slot : Nat) (msg : List Piece) (cust : List Byte) (len : Nat) (x : Stream) :
    Option Stream :=
  let n := (digFixed func).getD len
  let key := s.digKey (fit 64 ([0, BitVec.ofNat 8 func] ++ List.replicate 24 0 ++ Word.leBytes 2 slot))
  key.map (fun k =>
    { cols := x.cols ++ [{ typ := 1, width := 0, signed := false, bytesLen := n }],
      rows := x.rows.map (fun r =>
        let m := piecesBytes v x.cols r msg
        { r with cells := r.cells ++ [digFinal func n k (digInit func k cust) m] }) })

/-! ## Keys of rows (R146, R148) -/

/-- A list sorted by inserting its items from the last, each before the first that it need not follow. -/
def insertBy {α : Type} (le : α → α → Bool) (x : α) : List α → List α
  | [] => [x]
  | y :: r => if le x y then x :: y :: r else y :: insertBy le x r

/-- A stable sort. -/
def sortBy {α : Type} (le : α → α → Bool) : List α → List α
  | [] => []
  | x :: r => insertBy le x (sortBy le r)

/-- Whether one byte string comes before or equals another, the first byte first. -/
def bytesLe : List Byte → List Byte → Bool
  | [], _ => true
  | _ :: _, [] => false
  | a :: x, b :: y => if a = b then bytesLe x y else decide (a.toNat < b.toNat)

/-- A cell as a part of a normalized key: big-endian at its width, the sign bit inverted for a signed column, every bit for a
descending one; BYTES as stored (R148). -/
def normCell (c : ResCol) (desc : Bool) (cell : List Byte) : List Byte :=
  let bs := if c.typ = 1 then fit (resColSize c) cell else (fit (resColSize c) cell).reverse
  let sg := match bs with
    | b :: r => if c.typ = 0 ∧ c.signed = true then (b ^^^ 0x80#8) :: r else b :: r
    | [] => []
  if desc then sg.map (fun b => ~~~b) else sg

/-- The normalized key of a row under key columns with their directions (R148). -/
def normKey (cols : List ResCol) (keys : List (Nat × Bool)) (r : Row) : List Byte :=
  keys.flatMap (fun k => normCell (cols.getD k.1 (intCol 3)) k.2 (r.cells.getD k.1 []))

/-- SORT: by normalized key with the input position appended, 8 bytes (R148). -/
def sortRows (keys : List (Nat × Bool)) (x : Stream) : Stream :=
  { x with rows := (sortBy (fun a b => bytesLe a.1 b.1)
      (x.rows.zipIdx.map (fun p => (normKey x.cols keys p.1 ++ Word.beBytes 8 p.2, p.1)))).map Prod.snd }

/-! ## JOIN (R146, R147) -/

/-- The full key bytes of a row under the columns that an equi-join compares. -/
def joinKey (cols : List ResCol) (keys : List Nat) (r : Row) : List Byte :=
  keys.flatMap (fun i => fit (resColSize (cols.getD i (intCol 3))) (r.cells.getD i []))

/-- What one left row gives with the right rows it matches: inner joined rows; an unmatched left row with zero right columns; or each
left row once (R146). -/
def joinOne (kind : JoinKind) (zeros : List (List Byte)) (l : Row) (ms : List Row) : List Row :=
  match kind with
  | .inner => ms.map (fun m => { l with cells := l.cells ++ m.cells })
  | .leftOuter => if ms.isEmpty then [{ l with cells := l.cells ++ zeros }] else ms.map (fun m => { l with cells := l.cells ++ m.cells })
  | .semi => if ms.isEmpty then [] else [l]

/-- The join of two streams with a way to find the right rows of a key: left position, then right position (R119). -/
def joinWith (kind : JoinKind) (lk rk : List Nat) (find : List Byte → List Row) (x y : Stream) : Stream :=
  { cols := if kind = .semi then x.cols else x.cols ++ y.cols,
    rows := x.rows.flatMap (fun l =>
      joinOne kind (y.cols.map (fun c => List.replicate (resColSize c) 0)) l (find (joinKey x.cols lk l))) }

/-- The right rows of a key. -/
def rowsOfKey (cols : List ResCol) (rk : List Nat) (rows : List Row) (k : List Byte) : List Row :=
  rows.filter (fun r => joinKey cols rk r == k)

/-- The join's result (R119, R122). -/
def joinRows (kind : JoinKind) (lk rk : List Nat) (x y : Stream) : Stream := joinWith kind lk rk (rowsOfKey y.cols rk y.rows) x y

/-- The partition of a key: R93 with SEED = 0, into 2^p (R146). -/
def joinPart (p : Nat) (k : List Byte) : Nat := indexHash 0 k % 2 ^ p

/-- The hash join: both sides partitioned, each left row meets the table of its own partition (R146). -/
def hashJoin (p : Nat) (kind : JoinKind) (lk rk : List Nat) (x y : Stream) : Stream :=
  joinWith kind lk rk (fun k =>
    rowsOfKey y.cols rk (y.rows.filter (fun r => joinPart p (joinKey y.cols rk r) == joinPart p k)) k) x y

/-- Whether rows come sorted on their join key. -/
def keySorted (cols : List ResCol) (ks : List Nat) : List Row → Bool
  | a :: b :: r => bytesLe (joinKey cols ks a) (joinKey cols ks b) && keySorted cols ks (b :: r)
  | _ => true

/-- The merge join: on rows sorted by key, a key's rows follow the rows of smaller keys (R147). -/
def mergeJoin (kind : JoinKind) (lk rk : List Nat) (x y : Stream) : Stream :=
  let sorted := if keySorted y.cols rk y.rows then y.rows
    else sortBy (fun a b => bytesLe (joinKey y.cols rk a) (joinKey y.cols rk b)) y.rows
  joinWith kind lk rk (fun k =>
    (sorted.dropWhile (fun r => joinKey y.cols rk r != k && bytesLe (joinKey y.cols rk r) k)).takeWhile
      (fun r => joinKey y.cols rk r == k)) x y

/-- The least number of partitions, as a power of 2, with which each partition of the build side fits `half` bytes (R146). -/
def joinParts (half : Nat) (cols : List ResCol) (ks : List Nat) (rows : List Row) : Nat :=
  ((List.range 32).find? (fun p => (List.range (2 ^ p)).all (fun i =>
    decide ((rows.filter (fun r => joinPart p (joinKey cols ks r) == i)).length * rowBytes cols ≤ half)))).getD 32

/-- JOIN: by merge where both inputs come sorted on the join key, else by hash (R146, R147). -/
def joinStreams (half : Nat) (left : Bool) (kind : JoinKind) (lk rk : List Nat) (x y : Stream) : Stream :=
  if keySorted x.cols lk x.rows && keySorted y.cols rk y.rows then mergeJoin kind lk rk x y
  else
    let p := if left then joinParts half x.cols lk x.rows else joinParts half y.cols rk y.rows
    hashJoin p kind lk rk x y

/-! ## AGGREGATE (R149) -/

/-- A 128-bit signed accumulator. -/
def acc128 (x : Int) : Int := Word.signed 128 (Word.wrap 128 x)

/-- The exact value of an aggregate over the values of its column, for a group of at least one row (R149). -/
def aggValue (f : AggFn) (vs : List Int) : Int :=
  let sum := vs.foldl (fun a b => acc128 (a + b)) 0
  match f with
  | .count => vs.length
  | .sum => sum
  | .min => vs.foldl min (vs.headD 0)
  | .max => vs.foldl max (vs.headD 0)
  | .avg => sum.tdiv vs.length

/-- The result column of an aggregate: as declared; COUNT always gives an unsigned 64-bit column (R149). -/
def aggType (a : Agg) : ResCol := if a.fn = .count then intCol 3 else a.res

/-- The groups of a stream's rows: each group key once, in ascending order (R119, R149). -/
def groupKeys (cols : List ResCol) (group : List Nat) (rows : List Row) : List (List Byte) :=
  sortBy bytesLe ((rows.map (normKey cols (group.map (fun i => (i, false))))).eraseDups)

/-- AGGREGATE: the group key columns, one column per aggregate, and the flags column, whose bit 0 says that an exact value lies outside
its result column's type and has wrapped (R149). -/
def aggregateRows (group : List Nat) (aggs : List Agg) (x : Stream) : Stream :=
  let keyOf := normKey x.cols (group.map (fun i => (i, false)))
  { cols := group.map (fun i => x.cols.getD i (intCol 3)) ++ aggs.map aggType ++ [intCol 0],
    rows := (groupKeys x.cols group x.rows).map (fun k =>
      let mine := x.rows.filter (fun r => keyOf r == k)
      let vals := aggs.map (fun a =>
        (a, aggValue a.fn (mine.map (fun r => colNum (x.cols.getD a.col (intCol 3)) (r.cells.getD a.col [])))))
      let above := vals.any (fun p => p.1.fn != .count && (decide (p.2 < (colLimits (aggType p.1)).1) || decide ((colLimits (aggType p.1)).2 < p.2)))
      Row.of (group.map (fun i => ((mine.map Row.cells).headD []).getD i []) ++ vals.map (fun p => colCell (aggType p.1) p.2) ++
        [[if above then 1 else 0]])) }

/-! ## Workspace (R526) -/

/-- What a node needs of the workspace (R526), by its operator: `xs` are its input streams, `out` what it gives, `cold` whether it scans a COLD
column. -/
def nodeNeed (pl : NodePlan) (cold : Bool) (x y out : Stream) : Nat :=
  let size := fun (z : Stream) => z.rows.length * rowBytes z.cols
  match pl with
  | .scan _ _ _ => size out + (if cold then 2883584 else 0)
  | .join _ _ _ => size x + size y + size out
  | .sort _ => 2 * x.rows.length * (40 + rowBytes x.cols)
  | .aggregate group aggs =>
    let k := Word.ceilDiv ((group.map (fun i => resColSize (x.cols.getD i (intCol 3)))).sum) 8 * 8
    size x + out.rows.length * (k + 16 * aggs.length + 8)
  | .compress _ _ blockMax => 2 * blockMax + 24
  | _ => 0

/-- Whether a plan is of a node's operator (R166). -/
def planFits (pl : NodePlan) (op : Nat) : Bool :=
  match pl with
  | .scan _ _ _ => op == 1
  | .filter _ => op == 2
  | .project _ _ => op == 3
  | .probe _ _ => op == 4
  | .join _ _ _ => op == 5
  | .sort _ => op == 6
  | .aggregate _ _ => op == 7
  | .window _ => op == 8
  | .route _ _ _ => op == 9
  | .decode => op == 10
  | .encode _ _ _ => op == 11
  | .verify _ _ => op == 12
  | .sign _ => op == 13
  | .digest _ _ _ => op == 14
  | .emit _ _ => op == 15
  | .write _ => op == 16
  | .merge _ _ _ _ => op == 17
  | .compress _ _ _ => op == 18
  | .fault _ => true

/-- The stream that an input of a node names (R166, R167). -/
def Env.input (v : Env) (i : Nat) : Stream := match v.outs[i]? with
  | some o => o.stream
  | none => Stream.unit

end Sys2Proof.Machine
end

