-- ==== Sys2Proof/Machine/Jobs.lean ====
section
/-!
DEFINITION. Analytic jobs (R185–R191, R466, R527): admission, the grant of workspace with the scratch checks, the end with its
blocks and result header, cancellation, eviction of a snapshot (R108), and release.
-/
namespace Sys2Proof.Machine
open Sys2Proof

/-- The cue a job that ends now ends in: the current one, or the last committed one during a hold (R64, R187). -/
def State.cueNow (s : State) : Nat := if s.cue.unit = 2 then s.cue.number else s.cue.committed

/-- The job of a number. -/
def State.job (s : State) (id : Nat) : Option Job := s.jobs.find? (fun j => j.id == id)

/-- A job replaced. -/
def State.setJob (s : State) (j : Job) : State := { s with jobs := s.jobs.map (fun x => if x.id = j.id then j else x) }

/-- The column descriptor of a result (R190). -/
def resColBytes (c : ResCol) : List Byte :=
  [BitVec.ofNat 8 c.typ, BitVec.ofNat 8 c.width, if c.signed then 1 else 0, 0] ++ Word.leBytes 2 c.bytesLen ++ [0, 0]

/-- Whether a pipeline has an EMIT node (R167). -/
def Pipe.emits (p : Pipe) : Bool := p.nodes.any (fun n => n.op == 15)

/-- The scratch tables a job writes: those its image names as outputs, and SCRATCH_TABLE (R81, R168, R527). -/
def Job.writes (j : Job) : List Nat :=
  (j.pipe.trefs.filter (fun r => Word.bit 4 r.access)).map PTabRef.table ++ j.scratch.toList

/-! ## What a stop leaves -/

/-- A scratch table whose contents are undefined: a free number of rows of free bytes (R108, R187, Assumption 3). -/
def State.undefTable (s : State) (t : Nat) : State :=
  match s.table t with
  | none => s
  | some x =>
    let (n, s1) := s.freeW
    let d := x.desc
    let (t1, s2) := (List.range (n.toNat % (d.maxSlots + 1))).foldl (fun (p : Table × State) i =>
      let (cells, u) := d.cols.foldl (fun (q : List (List Byte) × State) c =>
        let (b, v) := q.2.freeBytes (if c.isRing then 0 else c.size)
        (q.1 ++ [b], v)) ([], p.2)
      (p.1.insertRow 0 i cells false, u)) (Table.empty d, s1)
    s2.setTable t (some t1)

/-- Whatever a stopped job has written is undefined: its result buffer and the scratch tables it writes (R108, R187). -/
def State.jobSpoil (s : State) (j : Job) : State :=
  if j.state ≠ .running then s
  else
    let (bs, s1) := s.freeBytes j.resLen
    j.writes.foldl (fun t x => t.undefTable x) (s1.pokeHost j.resAddr bs)

/-! ## The nodes of a job (R117, R119, R122, R145, R526) -/

/-- Whether a row of a table passes the lane terms of one column (R129, R130). -/
def laneHolds (x : LaneTest) (d : TableDef) (w : Version) : Bool :=
  match d.col x.col with
  | none => true
  | some c =>
    let v := Word.wrap 64 (c.num (w.cell x.col))
    x.combine.contains (termIndex (x.terms.map (fun t =>
      termHolds c.signed t.op t.a.toNat t.b.toNat (t.set.map BitVec.toNat) v)))

/-- SCAN: the rows that the job's snapshot selects and that pass the lane terms, in ascending row number, with ROW_ID first where the plan
asks for it (R19, R119, R130). -/
def Table.scanRows (t : Table) (snap : Nat) (cols : List Nat) (rowNo : Bool) (tests : List LaneTest) : Stream :=
  { cols := (if rowNo then [intCol 3] else []) ++ cols.map (fun c => match t.desc.col c with
      | some d => d.res
      | none => intCol 3),
    rows := ((t.rowsAt snap).filter (fun w => tests.all (fun x => laneHolds x t.desc w))).map (fun w =>
      Row.of ((if rowNo then [Word.leBytes 8 w.row] else []) ++ cols.map w.cell)) }

/-- Whether a scan reads a COLD column (R526). -/
def TableDef.readsCold (d : TableDef) (cols : List Nat) (tests : List LaneTest) : Bool :=
  (cols ++ tests.map LaneTest.col).any (fun c => match d.col c with
    | some x => x.placement == 2
    | none => false)

/-- The table a node of a job names. -/
def State.nodeTable (s : State) (p : Pipe) (n : PNode) : Option Table := (p.trefs[n.tref]?).bind (fun r => s.table r.table)

/-- What the stage programs of a job see: its argument block and the rows that its snapshot selects (R19). -/
def State.jobEnv (s : State) (j : Job) (outs : List NodeOut) : Env :=
  { msg := j.args, key := 0, cue := j.snap, vals := [], outs := outs,
    colType := fun t c => match (s.table t).bind (fun x => x.desc.col c) with
      | some d => d.res
      | none => intCol 3,
    cell := fun h c => match s.table h.table, h.row with
      | some x, some (.committed n) => ((x.rowAt j.snap n).map (fun w => w.2.cell c)).getD []
      | _, _ => [],
    find := fun t i k => match s.table t with
      | some x => (x.probe i j.snap k).map (fun w => .committed w.2.row)
      | none => [] }

/-- A running job's nodes so far: what each gave, the workspace counted, and the status and node it ended with, if it has. -/
structure JobNodes where
  outs : List NodeOut
  used : Nat
  stop : Option (Nat × Nat)

/-- Half of the largest green room of a cluster, in bytes (R146). -/
def State.halfGreen (s : State) : Nat := ((List.range 12).map s.greenNow).foldl max 0 * 2 ^ 18

/-- What a node of a job gives, or the status with which it ends the job (R122). -/
def State.jobNodeOut (s : State) (v : Env) (p : Pipe) (n : PNode) (pl : NodePlan) (x y : Stream) (snap : Nat) : Except Nat NodeOut :=
  match pl with
  | .scan cols rowNo tests => match s.nodeTable p n with
    | some t => .ok { stream := t.scanRows snap cols rowNo tests }
    | none => .ok { stream := { cols := [], rows := [] } }
  | .filter e => .ok { stream := filterRows v e x }
  | .project cols _ => .ok { stream := projectRows v cols x }
  | .probe all keys => .ok { stream := probeRows v ((p.trefs[n.tref]?.map PTabRef.table).getD 4096) n.idx all keys x }
  | .join kind l r => .ok { stream := joinStreams s.halfGreen (Word.bit 1 n.flags) kind l r x y }
  | .sort keys => .ok { stream := sortRows keys x }
  | .aggregate g as => .ok { stream := aggregateRows g as x }
  | .route h keys casc => .ok { stream := s.routeRows v h keys casc x }
  | .digest m c len => match s.digestRows v n.func n.slot m c len x with
    | some y => .ok { stream := y }
    | none => .error 0x0400
  | .emit cols _ => .ok { stream := { cols := cols, rows := x.rows.map (fun r =>
      Row.of (cols.zipIdx.map (fun c => fit (resColSize c.1) (r.cells.getD c.2 [])))) } }
  | .fault _ => .error 0x010C
  | _ => .ok { stream := x }

/-- One node of a job: its need is counted before it runs, and above WORKSPACE the job ends with WORKSPACE_FULL (R145, R526). `fault` is a
node whose code faulted (R217). -/
def State.jobNode (s : State) (j : Job) (fault : Option Nat) (r : JobNodes) (k : Nat) : JobNodes :=
  match r.stop, j.pipe.nodes[k]? with
  | none, some n =>
    let v := s.jobEnv j r.outs
    let x := v.input n.in0
    let y := v.input n.in1
    let pl := match j.plan.nodes[k]? with
      | some q => if planFits q n.op then q else .filter (.lit 1)
      | none => .filter (.lit 1)
    match s.jobNodeOut v j.pipe n pl x y j.snap with
    | .error st => { r with stop := some (st, k) }
    | .ok o =>
      let cold := match pl, s.nodeTable j.pipe n with
        | .scan cols _ tests, some t => t.desc.readsCold cols tests
        | _, _ => false
      let used := r.used + nodeNeed pl cold x y o.stream
      if j.pipe.workspace < used then { r with stop := some (0x0205, k) }
      else if fault = some k then { r with stop := some (0x010C, k) }
      else { r with outs := r.outs ++ [o], used := used }
  | _, _ => r

/-- A job's nodes, in node order (R187). -/
def State.jobNodes (s : State) (j : Job) (fault : Option Nat) : JobNodes :=
  (List.range j.pipe.nodes.length).foldl (s.jobNode j fault) { outs := [], used := 0, stop := none }

/-- The columns of a job's result: what its first EMIT declares (R190). -/
def planCols (p : Pipe) (plan : JobPlan) : List ResCol :=
  ((p.nodes.zip plan.nodes).findSome? (fun q => match q.2 with
    | .emit cols _ => if q.1.op = 15 then some cols else none
    | _ => none)).getD []

/-- The codec and level of a job's blocks: those of its first COMPRESS, else stored (R122, R190). -/
def planCodec (p : Pipe) (plan : JobPlan) : Nat × Nat :=
  ((p.nodes.zip plan.nodes).findSome? (fun q => match q.2 with
    | .compress kind level _ => if q.1.op = 18 then some (kind.val, level) else none
    | _ => none)).getD (0, 0)

/-- The rows that reached EMIT, the outputs of several concatenated in node order (R119, R167). -/
def emitRows (p : Pipe) (outs : List NodeOut) : List (List (List Byte)) :=
  (p.nodes.zip outs).flatMap (fun q => if q.1.op = 15 then q.2.stream.rows.map Row.cells else [])

/-! ## Results (R190, R191) -/

/-- Rows cut into blocks of at most 4,096. -/
def cutRows : Nat → List (List (List Byte)) → List (List (List (List Byte)))
  | 0, _ => []
  | n + 1, rows => if rows.isEmpty then [] else rows.take 4096 :: cutRows n (rows.drop 4096)

/-- The raw body of a block: each column in turn, padded to a multiple of 8 (R190). -/
def blockBody (cols : List ResCol) (rows : List (List (List Byte))) : List Byte :=
  cols.zipIdx.flatMap (fun c =>
    let v := rows.flatMap (fun r => fit (resColSize c.1) (r.getD c.2 []))
    v ++ List.replicate ((8 - v.length % 8) % 8) 0)

/-- A block with its header, padded to a multiple of 64 (R190). -/
def resultBlock (codec level first : Nat) (cols : List ResCol) (rows : List (List (List Byte))) : List Byte :=
  let raw := blockBody cols rows
  let stored := if codec = 0 then raw else cmpBlock codec level 1 raw
  let b := Word.leBytes 8 first ++ Word.leBytes 4 rows.length ++ Word.leBytes 4 raw.length ++ Word.leBytes 4 stored.length ++
    Word.leBytes 4 (crc32c raw) ++ List.replicate 8 0 ++ stored
  b ++ List.replicate ((64 - b.length % 64) % 64) 0

/-- Where the blocks of a result start: the next multiple of 64 after the descriptors (R190). -/
def blocksAt (cols : Nat) : Nat := Word.ceilDiv (128 + 8 * cols) 64 * 64

/-- RESULT_BYTES: through the end of the last block; of a result without blocks, through the column descriptors (R190, R191). -/
def resultBytes (cols blocks : Nat) : Nat := if blocks = 0 then 128 + 8 * cols else blocksAt cols + blocks

/-- The blocks that fit below RESULT_LEN, with their rows and raw bodies, and whether one did not (R191). -/
def fitBlocks (codec level : Nat) (cols : List ResCol) (len : Nat) :
    Nat → Nat → List (List (List (List Byte))) → List Byte × Nat × List Byte × Nat × Bool
  | _, _, [] => ([], 0, [], 0, false)
  | at_, first, rows :: r =>
    let b := resultBlock codec level first cols rows
    if len < at_ + b.length then ([], 0, [], 0, true)
    else
      let x := fitBlocks codec level cols len (at_ + b.length) (first + rows.length) r
      (b ++ x.1, rows.length + x.2.1, blockBody cols rows ++ x.2.2.1, 1 + x.2.2.2.1, x.2.2.2.2)

/-- The result header and column descriptors (R190). -/
def resultHeader (j : Job) (status codec rows blocks bytes : Nat) (digest : List Byte) : List Byte :=
  let h := ascii "STXRSLTS" ++ Word.leBytes 2 j.pipe.id ++ Word.leBytes 2 status ++ Word.leBytes 2 j.cols.length ++
    Word.leBytes 2 codec ++ Word.leBytes 8 j.snap ++ Word.leBytes 8 rows ++ Word.leBytes 4 blocks ++ List.replicate 4 0 ++
    Word.leBytes 8 bytes ++ fit 64 digest ++ List.replicate 12 0
  h ++ Word.leBytes 4 (crc32c h) ++ j.cols.flatMap resColBytes

/-- A job ends with a status; its counts and its header follow (R187, R190). -/
def State.jobEnded (s : State) (j : Job) (status failNode cue codec rows blocks bytes : Nat) (body : List Byte) : State :=
  let digest := shake256 64 (j.cols.flatMap resColBytes ++ body)
  s.setJob { j with state := .ended, status := status, failNode := failNode, rows := rows, blocks := blocks, endCue := cue,
                    header := resultHeader j status codec rows blocks bytes digest }

/-- A job that ends without running, or before any node of it ran. -/
def State.jobFails (s : State) (j : Job) (status cue : Nat) : State :=
  s.jobEnded j status noNode cue 0 0 0 (resultBytes j.cols.length 0) []

/-- The columns of a result whose nodes have not run: 1 to 1,024 of a pipeline with EMIT, which ones only its stage programs say: free values
(R190, Assumptions 3 and 129). -/
def State.freeCols (s : State) (p : Pipe) : List ResCol × State :=
  if !p.emits then ([], s)
  else
    let w := fun (i : Nat) => (Config.freeWord (s.fresh + i)).toNat
    ((List.range (w 0 % 1024 + 1)).map (fun i =>
      let v := w (i + 1)
      if v % 2 = 1 then { typ := 1, width := 0, signed := false, bytesLen := v / 2 % 256 + 1 }
      else { typ := 0, width := v / 2 % 4, signed := v / 8 % 2 == 1, bytesLen := 0 }), { s with fresh := s.fresh + 1025 })

/-- A job ended from outside. What a running one has written is undefined: its counts, RESULT_BYTES and RESULT_DIGEST are free values, the
other fields of its header are as for any job (R108, R187, R190, Assumption 3). -/
def State.jobStops (s : State) (j : Job) (status cue : Nat) : State :=
  if j.state = .running then
    let s1 := s.jobSpoil j
    let (rows, s2) := s1.freeW
    let (blocks, s3) := s2.freeW
    let (bytes, s4) := s3.freeW
    let (digest, s5) := s4.freeBytes 64
    s5.setJob { j with state := .ended, status := status, failNode := noNode, rows := rows.toNat, blocks := blocks.toNat % 2 ^ 32,
                       endCue := cue, header := resultHeader j status (planCodec j.pipe j.plan).1 rows.toNat (blocks.toNat % 2 ^ 32)
                         bytes.toNat digest }
  else
    let (cols, s1) := s.freeCols j.pipe
    s1.jobFails { j with cols := cols } status cue

/-! ## Admission and the grant (R186, R187, R527) -/

/-- A job admitted at a start instant; the lead pins its snapshot, on this module and on each member it reads (R187, R466). -/
def State.jobAdmit (s : State) (e : Entry) (p : Pipe) (cue : Nat) (reads : List Nat) : State :=
  let lead := decide (s.role ≤ 1)
  let sc := field e.sqe 48 2
  let j : Job := { id := s.jobSeq, sq := e.sq, idx := e.idx, seq := e.seq, cue := cue, snap := cue - 1, pipe := p,
                   args := e.message, plan := { nodes := [], outs := [] },
                   resAddr := field e.sqe 32 8, resLen := field e.sqe 40 8, scratch := if sc = 0xFFFF then none else some sc,
                   state := .waiting, status := 0, failNode := noNode, rows := 0, blocks := 0, header := [], endCue := 0,
                   cols := [], reads := if lead then reads else [], shadowed := false, granted := false }
  let old := s.jobs.map (fun x => if x.sq = e.sq ∧ x.seq = e.seq then { x with shadowed := true } else x)
  let s1 : State := { s with jobs := old ++ [j], jobSeq := s.jobSeq + 1 }
  if !lead then s1
  else
    (s1.pin (.job j.id) j.snap) |> j.reads.foldl (fun t r => match t.portToRank r with
      | some p => t.wingSend p 0x14 1 (Word.leBytes 4 j.id ++ [1] ++ List.replicate 3 0 ++ Word.leBytes 8 j.snap)
      | none => t)

/-- A pin leaves with the job's release: here and at each member the job pinned (R187, R466). -/
def State.jobUnpin (s : State) (j : Job) : State :=
  j.reads.foldl (fun t r => match t.portToRank r with
    | some p => t.wingSend p 0x14 1 (Word.leBytes 4 j.id ++ [2] ++ List.replicate 3 0 ++ Word.leBytes 8 j.snap)
    | none => t) (s.unpin (.job j.id))

/-- Whether SCRATCH_TABLE fails one of the checks of R527. -/
def State.scratchBad (s : State) (j : Job) (cols : List ResCol) : Bool :=
  match j.scratch with
  | none => false
  | some t => match s.table t with
    | none => true
    | some x => !x.desc.scratch || !j.pipe.emits || x.desc.cols.length != cols.length ||
        (x.desc.cols.zip cols).any (fun p => p.1.typ != p.2.typ || p.1.width != p.2.width || p.1.signed != p.2.signed ||
          (p.1.typ == 1 && p.1.bytesLen != p.2.bytesLen))

/-- Workspace bytes held. -/
def State.poolUsed (s : State) : Nat := ((s.jobs.filter Job.granted).map (fun j => j.pipe.workspace)).sum

/-- Whether a stopped module runs no job: jobs need the module in service and this module to run them (R40, R187). -/
def State.jobsRun (s : State) : Bool := s.dispatching && decide (s.role ≤ 1)

/-- The first waiting job is granted workspace and a running slot, if it can have them, and its checks run; its nodes then start, as its plan
says (R186, R187, R527). -/
def State.jobStart (s : State) (plan : JobPlan) : State :=
  match s.jobs.find? (fun j => j.state == .waiting) with
  | none => s
  | some j0 =>
    let j := { j0 with plan := plan, cols := planCols j0.pipe plan }
    let pool := s.cue.par.pool * 2 ^ 30
    if !s.jobsRun then s
    else if pool < j.pipe.workspace then s.jobFails j 0x0202 s.cueNow
    else if 64 ≤ (s.jobs.filter Job.granted).length ∨ pool < s.poolUsed + j.pipe.workspace then s
    else if s.scratchBad j j.cols then s.jobFails { j with granted := true } 0x020B s.cueNow
    else if s.jobs.any (fun x => x.state == .running && x.writes.any (fun t => j.writes.contains t)) then
      s.jobFails { j with granted := true } 0x0204 s.cueNow
    else s.setJob { j with state := .running, granted := true }

/-- The rows of a scratch table replaced, numbered from 0 in their order (R191). -/
def State.scratchFill (s : State) (t : Nat) (rows : List (List (List Byte))) : State :=
  match s.table t with
  | none => s
  | some x => if x.desc.scratch then
      s.setTable t (some (rows.zipIdx.foldl (fun (y : Table) r => { y.insertRow 0 r.2 r.1 false with nextRow := r.2 + 1 })
        (Table.empty x.desc)))
    else s

/-- The scratch tables that a job's nodes fill: each output that its plan names is emptied and takes its node's rows (R168, R191). -/
def State.jobOutputs (s : State) (j : Job) (outs : List NodeOut) : State :=
  j.plan.outs.foldl (fun (t : State) x => match outs[x.1]?, j.pipe.trefs[x.2]? with
    | some o, some r => if Word.bit 4 r.access then t.scratchFill r.table (o.stream.rows.map Row.cells) else t
    | _, _ => t) s

/-- A running job's nodes have ended: its result is what they give on its snapshot (R19, R119). The blocks are written, or SCRATCH_TABLE is
emptied and filled; a result that does not fit ends with RESULT_TOO_LARGE (R122, R187, R191). Blocks wait while the host window does not
answer. -/
def State.jobEnd (s : State) (id : Nat) (fault : Option Nat) : State :=
  match s.job id with
  | none => s
  | some j =>
    if j.state ≠ .running ∨ !s.jobsRun then s
    else
      let run := s.jobNodes j fault
      let emit := (j.pipe.nodes.findIdx? (fun n => n.op == 15)).getD noNode
      let status := (run.stop.map Prod.fst).getD 0
      let failNode := (run.stop.map Prod.snd).getD noNode
      let failed := run.stop.isSome
      let (codec, level) := planCodec j.pipe j.plan
      let s1 := s.jobOutputs j run.outs
      let rows := emitRows j.pipe run.outs
      match j.scratch with
      | some t =>
        let room := match s.table t with
          | some x => x.desc.maxSlots
          | none => 0
        let kept := rows.take room
        let above := !failed && decide (room < rows.length)
        (s1.scratchFill t kept).jobEnded j (if above then 0x0109 else status)
          (if above then emit else failNode) s.cueNow 0 kept.length 0 (resultBytes j.cols.length 0) []
      | none =>
        let whole := if failed then rows.take (rows.length / 4096 * 4096) else rows
        let x := fitBlocks codec level j.cols j.resLen (blocksAt j.cols.length) 0 (cutRows (whole.length + 1) whole)
        let above := !failed && x.2.2.2.2
        if !x.1.isEmpty && !s.hostReachable then s
        else
          (s1.pokeHost (j.resAddr + blocksAt j.cols.length) x.1).jobEnded j (if above then 0x0109 else status)
            (if above then emit else failNode) s.cueNow
            (if j.pipe.emits then codec else 0) x.2.1 x.2.2.2.1 (resultBytes j.cols.length x.1.length) x.2.2.1

/-! ## Cancellation, eviction, release -/

/-- QUERY_CANCEL sealed into a cue: its target ends, or there is none; the status the QUERY_CANCEL completes with (R188). -/
def State.jobCancel (s : State) (sq seq cue : Nat) : Nat × State :=
  match s.jobs.find? (fun j => j.sq == sq && j.seq == seq && !j.shadowed && j.state != .ended) with
  | some j => (0, s.jobStops j 0x0001 cue)
  | none => (0x0002, s)

/-- Every job of a submission queue ends without completion (R187, R408). -/
def State.jobsDrop (s : State) (sel : Job → Bool) : State :=
  (s.jobs.filter sel).foldl (fun (t : State) j =>
    let t1 := (t.jobSpoil j).jobUnpin j
    { t1 with jobs := t1.jobs.filter (fun x => decide (x.id ≠ j.id)) }) s

/-- The eviction of a start or held instant in stage 3: every holder of the smallest pinned snapshot below the last committed cue
ends (R108). `cue` is the cue number that the ended jobs carry. A catch-up restarts; a SNAPSHOT_EXPORT completes later. -/
def State.evict (s : State) (cue : Nat) : State :=
  match s.oldestPin with
  | none => s
  | some snap =>
    if s.strike.stage ≠ 3 ∨ s.cue.committed ≤ snap then s
    else
      let hit := s.strike.pins.filter (fun p => p.2 == snap)
      let s1 := hit.foldl (fun (t : State) p => match p.1 with
        | .job id => match t.job id with
          | some j => if j.state = .ended then t else (t.jobStops j 0x0201 cue).addReg strikePage 0x060 1
          | none => t
        | .snapshot =>
          let len := match t.snapExport with
            | some x => x.2.2.2.1
            | none => 0
          let at_ := match t.snapExport with
            | some x => x.2.2.1
            | none => 0
          let (bs, u) := t.freeBytes len
          { u.pokeHost at_ bs with snapExport := none, evictedExport := t.snapExport.map Prod.fst }
        | .catchup => { t with company := { t.company with catchS := none, promoting := t.company.promoting } }
        | .peer _ _ => t) s
      let gone := fun (p : PinHolder × Nat) => p.2 == snap && (match p.1 with
        | .job _ => false
        | _ => true)
      ({ s1 with strike := { s1.strike with pins := s1.strike.pins.filter (fun p => !gone p) } }).evt strikePage 2

/-- The result bytes of a QUERY's CQE: ROW_COUNT, FAIL_NODE and BLOCK_COUNT (R190). -/
def queryRes (rows failNode blocks : Nat) : List Byte := Word.leBytes 8 rows ++ Word.leBytes 4 failNode ++ Word.leBytes 4 blocks

/-- The completions of the jobs that have ended, in admission order: result header, then CQE; workspace and entry are free (R187,
R190). -/
def State.jobsRelease (s : State) : State :=
  (s.jobs.filter (fun j => j.state == .ended)).foldl (fun (t : State) j =>
    let c : Cqe := { bytes := cqeBytes j.seq j.sq j.status j.endCue
                       (queryRes j.rows j.failNode j.blocks),
                     slot := none, at_ := some j.resAddr, result := j.header.take j.resLen }
    let t1 := (t.holdCqe j.sq c).jobUnpin j
    { t1 with jobs := t1.jobs.filter (fun x => decide (x.id ≠ j.id)) }) s

/-- ANALYTIC_JOB_START. -/
def execAnalyticJobStart (plan : JobPlan) (s : State) : Host.Outcome State Fault Refusal := .next (s.jobStart plan)

/-- ANALYTIC_JOB_END. -/
def execAnalyticJobEnd (id : Nat) (fault : Option Nat) (s : State) : Host.Outcome State Fault Refusal := .next (s.jobEnd id fault)

end Sys2Proof.Machine
end

