-- ==== Sys2Proof/Machine/Halt.lean ====
section
/-!
DEFINITION. Malformed entries (R421, R422), what a stop of the module does to its work (R487), and the house halt (R423, R492).
-/
namespace Sys2Proof.Machine
open Sys2Proof

/-! ## Malformed entries -/

/-- Whether a range lies outside a window, reaches 2^44 or wraps (R421, cause 5). -/
def outsideWindow (base log a n : Nat) : Bool :=
  decide (0 < n) && (decide (a < base) || decide (base + 2 ^ log < a + n) || decide (2 ^ 44 < a + n))

/-- The I/O opcodes (R411). -/
def ioOpcodes : List Nat := [0x0010, 0x0020, 0x0021, 0x0030, 0x0031, 0x0032]

/-- Whether a run of argument bytes is not 0. -/
def argSet (b : List Byte) (o n : Nat) : Bool := !allZero (slice b o n)

/-- Whether an I/O entry has a reserved bit set (R411, R421, cause 2). -/
def ioReserved (b : List Byte) : Bool :=
  let opc := field b 0 2
  let flags := field b 2 1
  let inl := Word.bit 0 flags
  decide (16 ≤ flags) || argSet b 3 1 || argSet b 22 2 || (opc != 0x0010 && flags != 0) ||
    (opc != 0x0010 && opc != 0x0020 && argSet b 20 2) ||
    (match opc with
      | 0x0010 => if inl then !allZero (b.drop (32 + field b 16 4)) else argSet b 32 32
      | 0x0020 => field b 32 1 % 64 != 0 || argSet b 50 14
      | 0x0021 => argSet b 34 2 || argSet b 40 24
      | 0x0030 => argSet b 34 30
      | 0x0031 => argSet b 34 2 || argSet b 40 24
      | _ => argSet b 38 26)

/-- Whether an I/O entry's lengths are bad (R421, cause 3). -/
def ioBadLength (b : List Byte) : Bool :=
  let opc := field b 0 2
  let len := field b 16 4
  let addr := field b 24 8
  let inl := Word.bit 0 (field b 2 1)
  decide (65536 < len) || (inl && (len == 0 || decide (32 < len) || addr != 0)) || (opc == 0x0021 && len != 0) ||
    (len == 0 && addr != 0)

/-- The cause for which an I/O entry of a queue is malformed, if it is (R421, R422). -/
def ioFault (q : QPair) (b : List Byte) : Option Nat :=
  let inl := Word.bit 0 (field b 2 1)
  if !ioOpcodes.contains (field b 0 2) then some 1
  else if ioReserved b then some 2
  else if ioBadLength b then some 3
  else if (!inl && outsideWindow q.winBase q.winLog (field b 24 8) (field b 16 4)) ||
      (field b 0 2 == 0x0020 && outsideWindow q.winBase q.winLog (field b 32 8) (field b 40 8)) then some 5
  else none

/-- The admin opcodes (R416). -/
def adminOpcodes : List Nat :=
  [0x01, 0x02, 0x03, 0x04, 0x05, 0x08, 0x09, 0x10, 0x11, 0x18, 0x19, 0x1A, 0x1B, 0x1C, 0x20, 0x21, 0x22, 0x30, 0x31, 0x38, 0x39]

/-- Whether an argument byte that an admin command does not use is not 0 (R415, R416). -/
def adminArgsReserved (b : List Byte) : Bool :=
  match field b 0 2 with
  | 0x01 => argSet b 35 1 || argSet b 38 2 || argSet b 56 8
  | 0x02 => false
  | 0x03 => argSet b 34 30
  | 0x04 => argSet b 34 30
  | 0x05 => argSet b 38 2 || argSet b 56 8
  | 0x08 => argSet b 34 30
  | 0x09 => argSet b 34 6 || argSet b 48 16
  | 0x10 => decide (1 < field b 32 1) || argSet b 33 31
  | 0x11 => argSet b 34 30
  | 0x18 => decide (1 < field b 32 1) || argSet b 33 31
  | 0x19 => argSet b 34 30
  | 0x1A => argSet b 34 6 || argSet b 48 16
  | 0x1B => argSet b 34 6 || argSet b 48 16
  | 0x22 => decide (3 < field b 32 1) || argSet b 33 7 || argSet b 56 8 || (!Word.bit 1 (field b 32 1) && argSet b 48 8)
  | 0x31 => false
  | 0x38 => argSet b 32 8 || argSet b 48 16
  | 0x39 => decide (1 < field b 32 1) || argSet b 33 31
  | _ => argSet b 32 32

/-- The most data an admin command may declare; 0 for one without data (R421, cause 3). -/
def adminLimit (b : List Byte) : Nat :=
  match field b 0 2 with
  | 0x05 => 4095 * 2 ^ 20
  | 0x10 => 2 ^ 26
  | 0x18 => 16704
  | 0x1C => 128 + 64 * 262144 + 1600
  | 0x22 => if Word.bit 1 (field b 32 1) then 0 else 0xFFFFFFC0
  | 0x30 => 4186
  | 0x31 => 2 ^ 20
  | 0x38 => 2 ^ 24
  | _ => 0

/-- The cause for which an admin entry is malformed, if it is (R415, R421, R422). -/
def adminFault (base log : Nat) (b : List Byte) : Option Nat :=
  let opc := field b 0 2
  let len := field b 16 4
  let addr := field b 24 8
  let ranged := opc == 0x1A || opc == 0x1B
  if !adminOpcodes.contains opc then some 1
  else if argSet b 2 2 || argSet b 8 8 || argSet b 20 4 || adminArgsReserved b then some 2
  else if adminLimit b < len ∨ (!ranged && len == 0 && addr != 0) = true then some 3
  else if outsideWindow base log addr (if ranged then field b 40 8 else len) then some 5
  else none

/-! ## What stops -/

/-- Every running core stops at an instruction boundary, its work gone and its buffer drained (R222, R487). -/
def State.stopCores (s : State) : State :=
  s.cores.foldl (fun t p =>
    let t1 := t.drainCore p.1
    let x := t1.coreAt p.1
    t1.setCoreAt p.1 { x with held := none, take := none, budgetStop := none, remote := [] }) s

/-- The running cue is abandoned uncommitted and releases no completion; every job stops; cores, dispatchers, DMA channels and
compression jobs stop, but for the stage manager's (R68, R187, R287, R378, R380, R487). -/
def State.stopWork (s : State) : State :=
  let jobs := s.jobsDrop (fun _ => true)
  let c := jobs.cue
  let s1 : State := { jobs with
    cue := { c with phase := .none, sealedSet := [], buffer := [], carried := 0, release := [], starting := false, holdReq := false,
                    delta := [] } }
  let s2 := s1.stopCores
  let s3 := (List.range 12).foldl (fun t k => t.dispDiscard k) s2
  s3.dmaHouseStop.cmpHouseStop

/-- An entry known by its queue, index and SEQ. -/
structure EntryId where
  sq : Nat
  idx : Nat
  seq : Nat
  deriving DecidableEq, Repr

/-- An entry's identity. -/
def Entry.ident (e : Entry) : EntryId := { sq := e.sq, idx := e.idx, seq := e.seq }

/-- Every I/O entry fetched and not completed, in queue order: queue number, then place in its ring (R487, R492). -/
def State.openEntries (s : State) : List EntryId :=
  let fetched := (s.qpairs.filter (fun p => decide (p.1 ≠ 0))).flatMap (fun p =>
    (p.2.fetched.takeWhile (fun e => (ioFault p.2 e.sqe).isNone)).map Entry.ident)
  let all := (s.cue.sealedSet.filter (fun x => x.job.isNone)).map (fun x => x.entry.ident) ++ s.cue.buffer.map Entry.ident ++
    s.jobs.map (fun j => { sq := j.sq, idx := j.idx, seq := j.seq : EntryId }) ++ fetched
  let rank := fun (e : EntryId) => (e.idx + 2 ^ 32 + 2 ^ 31 - (s.qp e.sq).sqCons % 2 ^ 32) % 2 ^ 32
  all.eraseDups.mergeSort (fun a b => if a.sq = b.sq then decide (rank a ≤ rank b) else decide (a.sq < b.sq))

/-- A CQE without result for each of a list of entries; then every queue is flushed (R487, R492). -/
def State.completeAll (s : State) (es : List EntryId) (status cue : Nat) : State :=
  (es.foldl (fun t e => t.holdCqe e.sq (plainCqe e.seq e.sq status cue [])) s).flushAll

/-- Entries fetched for every queue are gone. -/
def State.dropFetched (s : State) : State :=
  { s with qpairs := s.qpairs.map (fun p => (p.1, { p.2 with fetched := [] })) }

/-- The module's stopped state as MODCTL and CUE show it: FAULT_CUE, and HOLD for a cue logic that is not in FAULT. -/
def State.showStop (s : State) : State :=
  let s1 : State := { s with mdl := { s.mdl with faultCue := s.cue.number } }
  { s1 with cue := { s1.cue with unit := if s1.cue.unit = 2 then 3 else s1.cue.unit } }

/-- The house halt (R423, R492): the cue is abandoned, the HALT record written and its act sealed, a lead yields, the entries
fetched ahead complete with HALTED unless the HEP is frozen, and vector 1 is raised with HALT; then host writes stop. -/
def State.houseHalt (s : State) (cause q index : Nat) : State :=
  if s.mdl.halt then s
  else
    let es := s.openEntries
    let n := s.cue.number
    let s1 := (s.stopWork.showStop).recordStop 5 n (Word.leBytes 2 q ++ Word.leBytes 2 0 ++ Word.leBytes 4 index ++ Word.leBytes 2 cause)
    let s2 := (s1.yieldLead 2).dropFetched
    let s3 := s2.completeAll es 0x0301 n
    let s4 := ((s3.setReg qengPage 0x06C (BitVec.ofNat 32 (q * 65536 + cause))).setReg qengPage 0x070 (BitVec.ofNat 32 index)).evt
      qengPage 0
    let s5 := if s4.hep.frozen then s4 else s4.evt modctlPage 2
    { s5 with mdl := { s5.mdl with halt := true }, adminWait := none, adminBacklog := [], snapExport := none, evictedExport := none,
              camDeltas := [] }

end Sys2Proof.Machine
end

