-- ==== Sys2Proof/Machine/Cue.lean ====
section
/-!
DEFINITION. The seal of a cue (R31–R34, R38, R176, R182, R186, R412, R413, R419, R460, R465) and the posting of its items (R275);
the cue's completions (R414), its digests (R66) and the duplicate window (R459).
-/
namespace Sys2Proof.Machine
open Sys2Proof

/-! ## Domains -/

/-- The domain hash (R38). -/
def domainHash (key : Nat) : Nat := key * 0x9E3779B97F4A7C15 % 2 ^ 64
/-- The cluster of a domain (R38). -/
def clusterOf (key : Nat) : Nat := domainHash key / 2 ^ 32 * 12 / 2 ^ 32
/-- The shard map index of a domain (R38). -/
def shardOf (key : Nat) : Nat := domainHash key / 2 ^ 56
/-- The rank a shard map entry names (R465, the COMPANY page). -/
def State.shardRank (s : State) (i : Nat) : Nat := s.fld companyPage (0x400 + 4 * (i / 4)) (8 * (i % 4) + 1) (8 * (i % 4))

/-- Whether an entry is a TXN or a service command. -/
def Entry.fg (e : Entry) : Bool := e.opc == 0x10 || e.opc == 0x30 || e.opc == 0x31 || e.opc == 0x32

/-- The cap in force of a service command (R182, R349). -/
def State.svcCap (s : State) (opc : Nat) : Nat := s.cue.par.svcCaps.getD (opc - 0x30) 0

/-! ## The tests of R33 -/

/-- Whether a key lies in the duplicate window (R459). -/
def State.dupFind (s : State) (sq seq : Nat) : Option DupEnt := s.dup.find? (fun d => d.sq == sq && d.seq == seq)

/-- Whether an entry's pipeline is of the right class, loaded and usable on its queue (R33 test 3, R182, R413). -/
def State.pipeUsable (s : State) (e : Entry) : Bool :=
  let stride := (s.qp e.sq).resStride
  match e.opc with
  | 0x10 => match s.pipe e.pipe with
    | none => false
    | some p => p.cls == 0 && !(decide (16 < p.resultMax) && decide (stride < p.resultMax)) &&
        (!Word.bit 2 e.flags || p.nodes.any (fun n => n.op == 12)) && (!Word.bit 1 e.flags || p.nodes.any (fun n => n.op == 13))
  | 0x20 => match s.pipe e.pipe with
    | none => false
    | some p => p.cls == 1
  | 0x30 => decide (0 < s.svcCap 0x30) && decide (1466 ≤ stride)
  | 0x31 => decide (0 < s.svcCap 0x31)
  | 0x32 => decide (0 < s.svcCap 0x32) && (decide (field e.sqe 34 2 ≤ 16) || decide (field e.sqe 34 2 ≤ stride))
  | _ => true

/-- The format table that a TXN's leading DECODE walks, if it has one (R157, R167). -/
def Pipe.decodeFormat (p : Pipe) : Option (List Byte) :=
  match p.nodes[0]? with
  | some n => if n.op = 10 ∧ n.in0 = 0xFFFE then (p.formats.find? (fun f => f.1 == n.fmt)).map Prod.snd else none
  | none => none

/-- LEN_SHORT or LEN_LONG of an entry's message, or 0 (R33 test 4, R157, R185, R348, R412). -/
def State.lengthTest (s : State) (e : Entry) : Nat :=
  let len := e.declLen
  match e.opc with
  | 0x10 =>
    if len = 0 then 0x0100
    else if 16384 < len then 0x0101
    else match (s.pipe e.pipe).bind Pipe.decodeFormat with
      | none => 0
      | some f => match codecWalk f (e.message.take len) with
        | .ok _ => 0
        | .error ((st, _, off), _) =>
          if st = stLenShort then 0x0100
          else if st = stLenLong then (if Word.bit 3 e.flags && decide (len - off ≤ 1536) then 0 else 0x0101)
          else 0
  | 0x20 => match s.pipe e.pipe with
    | some p => if len < p.argLen then 0x0100 else if p.argLen < len then 0x0101 else 0
    | none => 0
  | 0x30 => if len = 0 then 0x0100 else if 16384 < len then 0x0101 else 0
  | 0x31 =>
    let m := field e.sqe 36 4
    if len = 0 ∨ len < m + 42 then 0x0100 else if 16384 < m ∨ m + 1462 < len then 0x0101 else 0
  | 0x32 =>
    let c := field e.sqe 33 1
    if len = 0 ∨ len < c then 0x0100 else if 16384 < len - c then 0x0101 else 0
  | _ => 0

/-- The disposition that the tests of R33 decide; none goes on to the limits. `first` is whether no entry of the same seal is
admitted under its key. -/
def State.dispose (s : State) (first : Bool) (e : Entry) : Option Nat :=
  if e.fg && (!first || (s.dupFind e.sq e.seq).isSome) then some 0x0003
  else if e.fg && decide (2 ≤ s.companyMode) && s.shardRank (shardOf e.key) != s.rank then some 0x010F
  else if !s.pipeUsable e then some 0x0103
  else
    let t := s.lengthTest e
    if t = 0 then none else some t

/-! ## The walk of R32 -/

/-- The walk so far: sealed entries and carried ones, each in order. -/
structure Walk where
  out : List Sealed
  carried : List Entry
  deriving DecidableEq, Repr

/-- The admitted entries of a walk. -/
def Walk.admitted (w : Walk) : List Entry := (w.out.filter (fun x => x.disp == 0)).map Sealed.entry

/-- Whether a limit is reached for a candidate (R34, R106, R176, R182, R186). -/
def State.limited (s : State) (w : Walk) (limit : Nat) (e : Entry) : Bool :=
  let a := w.admitted
  let p := s.cue.par
  let cap := if e.opc = 0x10 ∨ e.opc = 0x20 then (match s.pipe e.pipe with
      | some x => x.cap
      | none => 0) else if e.fg then s.svcCap e.opc else 0
  let same := fun (x : Entry) => x.opc == e.opc && (!(e.opc == 0x10 || e.opc == 0x20) || x.pipe == e.pipe)
  decide (limit ≤ a.length) ||
    (e.fg && (decide (p.cluster ≤ (a.filter (fun x => x.fg && clusterOf x.key == clusterOf e.key)).length) ||
      decide (p.domain ≤ (a.filter (fun x => x.fg && x.key == e.key)).length))) ||
    (decide (cap ≠ 0) && decide (cap ≤ (a.filter same).length)) ||
    (e.opc == 0x20 && (decide (2 ≤ s.strike.stage) ||
      decide (1024 ≤ s.jobs.length + (a.filter (fun x => x.opc == 0x20)).length)))

/-- A sealed entry before it ends. -/
def sealedAs (e : Entry) (disp : Nat) (replay : Option DupEnt) : Sealed :=
  { entry := e, disp := disp, fin := none, replay := replay, job := none }

/-- One candidate of the walk (R32–R34, R419). -/
def State.walkOne (s : State) (limit : Nat) (w : Walk) (e : Entry) : Walk :=
  let carry : Walk := { w with carried := w.carried ++ [e] }
  if 256 ≤ (s.qp e.sq).reserved + (w.out.filter (fun x => x.entry.sq == e.sq)).length then carry
  else
    let first := !w.admitted.any (fun x => x.fg && x.sq == e.sq && x.seq == e.seq)
    match s.dispose first e with
    | some d => { w with out := w.out ++ [sealedAs e d (if d = 0x0003 then s.dupFind e.sq e.seq else none)] }
    | none => if s.limited w limit e then carry else { w with out := w.out ++ [sealedAs e 0 none] }

/-- The candidate list: carried entries, then the arrivals by queue number and queue order (R31). -/
def Cue.candidates (c : Cue) : List Entry :=
  c.buffer.take c.carried ++ (c.buffer.drop c.carried).mergeSort (fun a b => decide (a.sq ≤ b.sq))

/-- The admit limit: the lower of ADMIT_MAX and the throttle limit (R34). -/
def State.admitLimit (s : State) : Nat := min s.cue.par.admits s.strike.limit

/-- The walk of a start instant (R32). -/
def State.walk (s : State) : Walk := s.cue.candidates.foldl (s.walkOne s.admitLimit) { out := [], carried := [] }

/-- Entries that leave the admission buffer (R408, R430, R431). -/
def Cue.keepOnly (c : Cue) (keep : Entry → Bool) : Cue :=
  { c with buffer := c.buffer.filter keep, carried := ((c.buffer.take c.carried).filter keep).length }

/-! ## The seal -/

/-- The work item of a sealed entry, as the cue logic posts it (R272, R274, R275). The staging area's address is the build's own
(R76, Assumption 3). -/
def State.itemOf (s : State) (e : Entry) (pos n cluster : Nat) : QItem :=
  let kind := if e.opc = 0x10 then 0 else e.opc - 0x2F
  let budgets := if e.opc = 0x10 then (match s.pipe e.pipe with
      | some p => p.budgets
      | none => []) else svcBudgets.getD (e.opc - 0x30) []
  { item := { pipe := e.pipe, kind := kind, flags := 3 + 4 * s.fld (dispPage cluster) 0x044 2 0, sealPos := pos,
              key := BitVec.ofNat 64 e.key, ctx := Config.freeWord (s.fresh + pos), arg := BitVec.ofNat 64 n },
    fg := true, stamp := none, budgets := budgets.map (BitVec.ofNat 32) }

/-- The items of a cue enter the clusters' stores in seal order (R275, R286). -/
def State.postCue (s : State) (n : Nat) (set : List Sealed) : State :=
  let mine := set.zipIdx.filter (fun p => p.1.disp == 0 && p.1.entry.fg)
  let s1 := (List.range 12).foldl (fun (t : State) c =>
    let new := (mine.filter (fun p => clusterOf p.1.entry.key == c)).map (fun p => s.itemOf p.1.entry p.2 n c)
    let d := t.disp c
    let t1 := (t.setDisp c { d with items := d.items ++ new }).setFld (dispPage c) 0x060 9 0 new.length
    if new.isEmpty then t1 else t1.dispRefresh c) s
  { s1 with fresh := s1.fresh + set.length }

/-- The jobs of a seal, in seal order: a QUERY is admitted, a QUERY_CANCEL ends its target (R187, R188). -/
def State.sealJobs (s : State) (n : Nat) (reads : List (Nat × List Nat)) : Nat → List Sealed → State × List Sealed
  | _, [] => (s, [])
  | pos, x :: r =>
    if x.disp = 0 ∧ x.entry.opc = 0x20 then
      match s.pipe x.entry.pipe with
      | some p =>
        let ranks := (reads.filter (fun q => q.1 == pos)).flatMap Prod.snd
        let (t, l) := (s.jobAdmit x.entry p n ranks).sealJobs n reads (pos + 1) r
        (t, { x with job := some s.jobSeq } :: l)
      | none =>
        let (t, l) := s.sealJobs n reads (pos + 1) r
        (t, x :: l)
    else if x.disp = 0 ∧ x.entry.opc = 0x21 then
      let (st, s1) := s.jobCancel (field x.entry.sqe 32 2) (field x.entry.sqe 36 4) n
      let (t, l) := s1.sealJobs n reads (pos + 1) r
      (t, { x with fin := some { status := st, info := [], out := { ops := [], result := [], sigs := [] } } } :: l)
    else
      let (t, l) := s.sealJobs n reads (pos + 1) r
      (t, x :: l)

/-- Cue `n` begins with a sealed set (R57, R275): its jobs are admitted, tasks whose cue delays end are made ready before its items are
posted (R282), and the registers of the CUE page follow. -/
def State.beginCue (s : State) (n : Nat) (set : List Sealed) (reads : List (Nat × List Nat)) : State :=
  let c := s.cue
  let s0 : State := { s with
    cue := { c with unit := 2, number := n, phase := .run, startedEver := true, delta := [], release := [], flags := 0,
                    peerOk := false, holdCmd := false, holdLag := false, mute := false, sealedPipes := s.pipes,
                    actPos := if c.actBreak || decide (c.par.act ≤ c.actPos + 1) then 0 else c.actPos + 1, actBreak := false } }
  let (s1, set1) := s0.sealJobs n reads 0 set
  let s2 := (List.range 12).foldl (fun t k => t.cueDelaysDue k 256) { s1 with cue := { s1.cue with sealedSet := set1 } }
  let s3 := s2.postCue n set1
  let adm := (set1.filter (fun x => x.disp == 0)).length
  let ref := (set1.filter (fun x => x.disp != 0 && x.disp != 0x0003)).length
  let s4 := (s3.setReg cuePage 0x060 (BitVec.ofNat 32 (ref * 65536 + adm))).addReg companyPage 0x05C
    (set1.filter (fun x => x.disp == 0x0003)).length
  if s4.cue.buffer.isEmpty then s4 else s4.evt cuePage 4

/-- The QCTX page of a queue pair (R434). -/
def qctxPage (q : Nat) : Nat := pageOf .qctx q

/-- A queue's reservations for its sealed entries (R419); at 256 the pair pauses. -/
def State.reserve (s : State) (set : List Sealed) : State :=
  set.foldl (fun (t : State) x =>
    let q := x.entry.sq
    let p := t.qp q
    let full := decide (256 ≤ p.reserved + 1) && !p.paused
    let t1 := t.setQp q { p with reserved := p.reserved + 1, paused := p.paused || full }
    if full then (t1.addReg (qctxPage q) 0x064 1).evt (qctxPage q) 0 else t1) s

/-- The seal of a start instant: the walk, its reservations, and the cue it begins (R31–R34, R57). -/
def State.seal (s : State) (n : Nat) (reads : List (Nat × List Nat)) : State :=
  let w := s.walk
  let s1 : State := { s with cue := { s.cue with buffer := w.carried, carried := w.carried.length } }
  (s1.reserve w.out).beginCue n w.out reads

/-! ## Completions of a cue (R33, R414, R460) -/

/-- How a result is delivered: CQE bytes 16–31, and the bytes that go to the result slot (R414). -/
def State.resultOf (s : State) (e : Entry) (f : ItemEnd) : List Byte × Option (List Byte) :=
  if f.status ≠ 0 then (f.info, none)
  else
    let inline := if e.opc = 0x10 then (match s.pipe e.pipe with
        | some p => decide (p.resultMax ≤ 16)
        | none => true) else if e.opc = 0x32 then decide (field e.sqe 34 2 ≤ 16) else false
    if e.opc = 0x31 ∨ e.opc = 0x21 then ([], none)
    else if inline then (fit 16 f.out.result, none)
    else (Word.leBytes 4 f.out.result.length, some f.out.result)

/-- What a sealed entry completes with: its CQE and slot bytes, and the signatures within those (R414). -/
structure Done where
  cqe : List Byte
  slot : Option (List Byte)
  sigs : List SigSpan
  deriving DecidableEq, Repr

/-- The completion of one sealed entry of cue `n`; `seen` are those of the entries before it, by (SQ, SEQ) (R460). An admitted QUERY
has none here. -/
def State.doneOf (s : State) (n : Nat) (seen : List (Nat × Nat × Done)) (x : Sealed) : Option Done :=
  let e := x.entry
  if x.disp = 0x0003 then
    match x.replay with
    | some d => some { cqe := d.cqe, slot := if d.result.isEmpty then none else some d.result, sigs := d.sigs }
    | none => (seen.find? (fun p => p.1 == e.sq && p.2.1 == e.seq)).map (fun p => p.2.2)
  else if x.disp ≠ 0 then some { cqe := cqeBytes e.seq e.sq x.disp n [], slot := none, sigs := [] }
  else if e.opc = 0x20 then none
  else match x.fin with
    | none => none
    | some f =>
      let (res, slot) := s.resultOf e f
      some { cqe := cqeBytes e.seq e.sq f.status n res, slot := slot, sigs := if slot.isSome then f.out.sigs else [] }

/-- The completions of a sealed set, in seal order (R68). -/
def State.doneAll (s : State) (n : Nat) (set : List Sealed) : List (Sealed × Done) :=
  (set.foldl (fun (acc : List (Sealed × Done) × List (Nat × Nat × Done)) x =>
    match s.doneOf n acc.2 x with
    | some d => (acc.1 ++ [(x, d)], if x.disp = 0 then acc.2 ++ [(x.entry.sq, x.entry.seq, d)] else acc.2)
    | none => acc) ([], [])).1

/-! ## Input and output digests (R66) -/

/-- The bytes an entry gives the input digest (R66). -/
def inputBytes (x : Sealed) : List Byte :=
  let e := x.entry
  let data := if e.inline then [] else e.data
  Word.leBytes 2 e.sq ++ Word.leBytes 2 x.disp ++ Word.leBytes 4 data.length ++ fit 64 e.sqe ++ data

/-- Result bytes with each signature replaced by its stand-in (R66). -/
def standIns (bs : List Byte) (sigs : List SigSpan) : List Byte :=
  let sorted := sigs.mergeSort (fun a b => decide (a.off ≤ b.off))
  let r := sorted.foldl (fun (acc : List Byte × Nat) g =>
    (acc.1 ++ slice bs acc.2 (g.off - acc.2) ++ shake256 64 (Word.leBytes 2 g.slot ++ g.msg), g.off + g.len)) (([] : List Byte), 0)
  r.1 ++ bs.drop r.2

/-- The bytes an entry gives the output digest: TXN, SVC and refused entries, QUERY and QUERY_CANCEL never (R66). -/
def outputBytes (p : Sealed × Done) : List Byte :=
  if p.1.entry.opc = 0x20 ∨ p.1.entry.opc = 0x21 then []
  else p.2.cqe ++ (match p.2.slot with
    | some r => standIns r p.2.sigs
    | none => [])

/-- The duplicate window with a cue's admitted TXN and SVC entries, cut to the last 2^20 (R459). -/
def dupAdd (w : List DupEnt) (ds : List (Sealed × Done)) : List DupEnt :=
  let new := (ds.filter (fun p => p.1.disp == 0 && p.1.entry.fg)).map (fun p =>
    ({ sq := p.1.entry.sq, seq := p.1.entry.seq, cqe := p.2.cqe, result := p.2.slot.getD [], sigs := p.2.sigs } : DupEnt))
  let all := w ++ new
  all.drop (all.length - 2 ^ 20)

/-- The completions as their queues hold them until release (R68, R414). -/
def releaseList (ds : List (Sealed × Done)) : List (Nat × Cqe) :=
  ds.map (fun p => (p.1.entry.sq, { bytes := p.2.cqe, slot := p.2.slot.map (fun _ => p.1.entry.idx), result := p.2.slot.getD [] }))

end Sys2Proof.Machine
end

