-- ==== Sys2Proof/Machine/Commit.lean ====
section
/-!
DEFINITION. The commit sweep (R45–R53, R65–R67, R97): plain writes, merge contributions, row numbers, versions, rings and the delta;
the checks of an ended item's writes (R46, R124); and the publication of a cue.
-/
namespace Sys2Proof.Machine
open Sys2Proof

/-! ## Rows of a sweep -/

/-- A row the sweep works on, by how it came to be: a committed row, the `k`-th insert of the item at a seal position, or one that a
merge in key form creates (R48). -/
inductive RowKey where
  | row (row : Nat) | ins (pos k : Nat) | made (idx : Nat) (key : List Byte)
  deriving DecidableEq, Repr

/-- A ring push with its flags. -/
structure Push where
  col : Nat
  val : List Byte
  flags : Nat
  deriving DecidableEq, Repr

/-- A row in the sweep: its values, whether the cue inserts or ends it, its place in the fixed order, the columns written, the columns
a created row has started from an identity, the flags of its cells, and its pushes (R48–R53). -/
structure RowWork where
  table : Nat
  key : RowKey
  row : Nat
  cells : List (List Byte)
  ins : Bool
  dead : Bool
  order : Nat × Nat
  written : List Nat
  started : List Nat
  flags : List (Nat × Nat)
  pushes : List Push
  deriving DecidableEq, Repr

/-- A sweep in progress: its rows, the cue flags, the contributions combined and the orphans. -/
structure Sweep where
  rows : List RowWork
  flags : Nat
  plain : Nat
  merges : Nat
  orphans : Nat
  deriving DecidableEq, Repr

/-- A row replaced. -/
def Sweep.put (w : Sweep) (r : RowWork) : Sweep :=
  { w with rows := w.rows.map (fun x => if x.table = r.table ∧ x.key = r.key then r else x) }

/-- A row with some columns set. -/
def RowWork.setCols (r : RowWork) (d : TableDef) (cols : List (Nat × List Byte)) : RowWork :=
  cols.foldl (fun (x : RowWork) c => match d.col c.1 with
    | some cd => if cd.isRing then x else
        { x with cells := x.cells.set c.1 (fit cd.size c.2), written := if x.written.contains c.1 then x.written else x.written ++ [c.1] }
    | none => x) r

/-- The values a new row starts with (R80). -/
def TableDef.defaults (d : TableDef) : List (List Byte) := d.cols.map (fun c => if c.isRing then [] else List.replicate c.size 0)

/-- The row of a key in a sweep, taken from the state committed at the previous cue when the cue has not touched it yet (R41, R53). -/
def State.sweepRow (s : State) (w : Sweep) (t : Nat) (k : RowKey) : Option (RowWork × Sweep) :=
  match w.rows.find? (fun x => x.table == t && x.key == k) with
  | some r => some (r, w)
  | none => match k, s.table t with
    | .row n, some x =>
      (x.rowAt s.cue.committed n).map (fun v =>
        let r : RowWork := { table := t, key := k, row := n, cells := v.2.cells, ins := false, dead := false, order := (0, 0),
                             written := [], started := [], flags := [], pushes := [] }
        (r, { w with rows := w.rows ++ [r] }))
    | _, _ => none

/-- The row a target names. -/
def rowKeyOf : RowRef → RowKey
  | .committed n => .row n
  | .inserted p k => .ins p k

/-- The columns of an insert: those it sets and the domain column, which takes the item's ORDER_KEY (R45). -/
def insertCols (d : TableDef) (key : Nat) (cols : List (Nat × List Byte)) : List (Nat × List Byte) :=
  match d.domain with
  | some c => cols.filter (fun p => decide (p.1 ≠ c)) ++ [(c, Word.leBytes 8 key)]
  | none => cols

/-- Whether an operation inserts a row. -/
def isInsert : StagedOp → Bool
  | .insert _ _ => true
  | _ => false

/-- One plain write of the item at a seal position (R45, R52, R65 step 1). `nth` is how many rows the item inserted before. -/
def State.sweepPlain (s : State) (key pos i nth : Nat) (w : Sweep) : StagedOp → Sweep
  | .insert t cols => match s.table t with
    | none => w
    | some x =>
      let r : RowWork := { table := t, key := .ins pos nth, row := 0, cells := x.desc.defaults, ins := true, dead := false,
                           order := (pos, i), written := [], started := [], flags := [], pushes := [] }
      { w with rows := w.rows ++ [r.setCols x.desc (insertCols x.desc key cols)], plain := w.plain + 1 }
  | .update t target cols => match s.table t, s.sweepRow w t (rowKeyOf target) with
    | some x, some (r, w1) => { w1.put (r.setCols x.desc cols) with plain := w.plain + 1 }
    | _, _ => w
  | .endRow t target => match s.sweepRow w t (rowKeyOf target) with
    | some (r, w1) => { w1.put { r with dead := true } with plain := w.plain + 1 }
    | none => w
  | .merge _ _ _ _ _ => w

/-! ## Merges (R47–R51) -/

/-- The smallest and largest value of a column (R50). -/
def ColDef.limits (c : ColDef) : Int × Int :=
  let w := 8 * c.size
  if c.signed then (-(2 ^ (w - 1) : Nat), (2 ^ (w - 1) : Nat) - 1) else (0, (2 ^ w : Nat) - 1)

/-- The identity of an operation for a column (R50). -/
def ColDef.identity (c : ColDef) : MergeOp → Int
  | .min => c.limits.2
  | .max => c.limits.1
  | _ => 0

/-- An operand taken under a column's type: reduced, and whether that changed it (R50). -/
def ColDef.operand (c : ColDef) (v : Word64) : Int × Bool :=
  let orig : Int := if c.signed then v.toInt else v.toNat
  let red := c.num (Word.leBytes c.size (Word.wrap 64 orig))
  (red, decide (red ≠ orig))

/-- One step of a merge on a cell: its new value and flags, bit 0 OVERFLOW and bit 1 SATURATED (R50, R51). -/
def ColDef.step (c : ColDef) (op : MergeOp) (v : Int) (arg : Word64) : Int × Nat :=
  let (x, ov) := c.operand arg
  let f := if ov then 1 else 0
  match op with
  | .count => if c.limits.2 ≤ v then (c.limits.2, 3) else (v + 1, 0)
  | .add =>
    let sum := v + x
    (c.num (Word.leBytes c.size (Word.wrap 64 sum)), if sum < c.limits.1 ∨ c.limits.2 < sum then 1 else f)
  | .min => (min v x, f)
  | .max => (max v x, f)
  | .or => ((Nat.lor v.toNat x.toNat : Nat), f)
  | .ringPush => (x, f)

/-- A value as a column's bytes. -/
def ColDef.encode (c : ColDef) (v : Int) : List Byte := Word.leBytes c.size (Word.wrap (8 * c.size) v)

/-- Flags ORed into a cell's. -/
def orFlags (l : List (Nat × Nat)) (col f : Nat) : List (Nat × Nat) :=
  if f = 0 then l
  else match l.find? (fun p => p.1 == col) with
    | some p => l.map (fun q => if q.1 = col then (col, Nat.lor p.2 f) else q)
    | none => l ++ [(col, f)]

/-- The row of a merge in key form: an insert of the cue, a row visible at the previous cue that the cue does not end, or one that
the sweep creates here (R47, R48). -/
def State.mergeRow (s : State) (w : Sweep) (t idx : Nat) (vals : List (List Byte)) (order : Nat × Nat) : Option (RowWork × Sweep) :=
  match s.table t with
  | none => none
  | some x => match x.desc.idxs[idx]? with
    | none => none
    | some d =>
      let key := (d.keys.zip vals).flatMap (fun p => match x.desc.col p.1 with
        | some c => fit c.size p.2
        | none => [])
      let keyIn := fun (r : RowWork) => d.keys.flatMap (fun c => r.cells.getD c [])
      match w.rows.find? (fun r => r.table == t && r.ins && !r.dead && keyIn r == key) with
      | some r => some (r, w)
      | none =>
        let live := (x.probe idx s.cue.committed key).find? (fun p =>
          !w.rows.any (fun r => r.table == t && r.key == .row p.2.row && r.dead))
        match live with
        | some p => s.sweepRow w t (.row p.2.row)
        | none =>
          let r : RowWork := { table := t, key := .made idx key, row := 0, cells := x.desc.defaults, ins := true, dead := false,
                               order := order, written := [], started := [], flags := [], pushes := [] }
          let r1 := r.setCols x.desc (d.keys.zip vals)
          some (r1, { w with rows := w.rows ++ [r1] })

/-- One merge contribution applied to its row; on a row the cue ends it is an orphan (R48–R52). -/
def mergeInto (w : Sweep) (d : TableDef) (r : RowWork) (col : Nat) (op : MergeOp) (arg : Word64) : Sweep :=
  if r.dead then { w with orphans := w.orphans + 1, flags := Nat.lor w.flags 4 }
  else match d.col col with
    | none => w
    | some c =>
      if op = .ringPush then
        let (v, f) := c.step op 0 arg
        { w.put { r with pushes := r.pushes ++ [{ col := col, val := c.encode v, flags := f }] } with
          flags := Nat.lor w.flags f, merges := w.merges + 1 }
      else
        let made := match r.key with
          | .made _ _ => true
          | _ => false
        let fresh := made && !r.started.contains col
        let v0 := if fresh then c.identity op else c.num (r.cells.getD col [])
        let (v, f) := c.step op v0 arg
        let r1 := { r.setCols d [(col, c.encode v)] with started := if fresh then r.started ++ [col] else r.started,
                                                          flags := orFlags r.flags col f }
        { w.put r1 with flags := Nat.lor w.flags f, merges := w.merges + 1 }

/-- One merge contribution of the item at a seal position (R47, R65 step 2). -/
def State.sweepMerge (s : State) (pos i : Nat) (w : Sweep) : StagedOp → Sweep
  | .merge t target col op arg =>
    let found := match target with
      | .row r => s.sweepRow w t (rowKeyOf r)
      | .key idx vals => s.mergeRow w t idx vals (pos, i)
    match s.table t, found with
    | some x, some (r, w1) => mergeInto w1 x.desc r col op arg
    | _, _ => w
  | _ => w

/-- The items of a cue that ended OK, with their seal positions. -/
def liveItems (set : List Sealed) : List (Nat × Entry × List StagedOp) :=
  set.zipIdx.filterMap (fun p => match p.1.fin with
    | some f => if p.1.disp = 0 ∧ f.status = 0 ∧ p.1.entry.fg then some (p.2, p.1.entry, f.out.ops) else none
    | none => none)

/-- Steps 1 and 2 of the sweep: all plain writes in seal order, then all contributions in the fixed order (R49, R52, R65). -/
def State.sweepRows (s : State) (set : List Sealed) : Sweep :=
  let items := liveItems set
  let w0 : Sweep := { rows := [], flags := 0, plain := 0, merges := 0, orphans := 0 }
  let w1 := items.foldl (fun w it => it.2.2.zipIdx.foldl (fun w o =>
    s.sweepPlain it.2.1.key it.1 o.2 ((it.2.2.take o.2).filter isInsert).length w o.1) w) w0
  items.foldl (fun w it => it.2.2.zipIdx.foldl (fun w o => s.sweepMerge it.1 o.2 w o.1) w) w1

/-! ## Row numbers, versions, rings, delta (R53, R65, R67, R97) -/

/-- Whether one place of the fixed order comes before another. -/
def orderLe (a b : Nat × Nat) : Bool := if a.1 = b.1 then decide (a.2 ≤ b.2) else decide (a.1 ≤ b.1)

/-- Step 3: inserts take their tables' next row numbers in the fixed order (R53). -/
def State.numberRows (s : State) (rows : List RowWork) : State × List RowWork :=
  let ins := (rows.filter RowWork.ins).mergeSort (fun a b => orderLe a.order b.order)
  let (s1, numbered) := ins.foldl (fun (acc : State × List RowWork) r =>
    match acc.1.table r.table with
    | some x => (acc.1.setTable r.table (some { x with nextRow := x.nextRow + 1 }), acc.2 ++ [{ r with row := x.nextRow }])
    | none => acc) (s, [])
  (s1, ((rows.filter (fun r => !r.ins)) ++ numbered).mergeSort (fun a b =>
    if a.table = b.table then decide (a.row ≤ b.row) else decide (a.table ≤ b.table)))

/-- Steps 4 and 5 for one row: its new version, its end, its rings (R53, R97). -/
def State.writeRow (s : State) (n : Nat) (r : RowWork) : State :=
  match s.table r.table with
  | none => s
  | some x =>
    let x1 := if r.ins then x.insertRow n r.row r.cells r.dead
      else if r.dead then x.endRow n r.row
      else if r.written.isEmpty then x else x.updateRow n r.row r.cells
    let x2 := if r.dead || r.pushes.isEmpty then x1
      else x1.setRings r.row ((x1.ringsOf r.row).map (fun g =>
        let mine := (r.pushes.filter (fun p => p.col == g.col)).map Push.val
        match mine, x.desc.col g.col with
        | [], _ => g
        | _, some c => ringPush c n g mine
        | _, none => g))
    s.setTable r.table (some x2)

/-- The delta entries of a row, in the order of R66. -/
def State.rowDelta (s : State) (n : Nat) (r : RowWork) : List DeltaEnt :=
  match s.table r.table with
  | none => []
  | some x =>
    let d := x.desc
    let ent := fun (kind flags col : Nat) (val : List Byte) =>
      ({ table := r.table, kind := kind, flags := flags, col := col, row := r.row, val := val } : DeltaEnt)
    let born := if r.ins then [ent 0 0 0 (match d.domain with
        | some c => r.cells.getD c []
        | none => [])] else []
    if r.dead then born ++ [ent 3 0 0 []]
    else
      let cols := r.written.mergeSort (fun a b => decide (a ≤ b))
      let cells := cols.map (fun c => ent 1 ((r.flags.find? (fun f => f.1 == c)).map Prod.snd |>.getD 0) c (r.cells.getD c []))
      let pushes := (r.pushes.mergeSort (fun a b => decide (a.col ≤ b.col))).map (fun p =>
        let wide := match d.col p.col with
          | some c => Word.leBytes 8 (Word.wrap 64 (c.num p.val))
          | none => []
        ent 2 p.flags p.col (Word.leBytes 8 n ++ wide))
      born ++ cells ++ pushes

/-- A delta entry's bytes (R67). -/
def DeltaEnt.bytes (e : DeltaEnt) : List Byte :=
  let b := Word.leBytes 2 e.table ++ [BitVec.ofNat 8 e.kind, BitVec.ofNat 8 e.flags] ++ Word.leBytes 2 e.col ++
    Word.leBytes 2 e.val.length ++ Word.leBytes 8 e.row ++ e.val
  b ++ List.replicate ((8 - b.length % 8) % 8) 0

/-- The bytes the delta digest covers: the entries and the trailer (R66, R67). -/
def deltaBytes (n flags : Nat) (es : List DeltaEnt) : List Byte :=
  es.flatMap DeltaEnt.bytes ++ Word.leBytes 8 n ++ Word.leBytes 4 flags ++ Word.leBytes 4 es.length

/-! ## The sweep -/

/-- Sixteen words of a digest register group. -/
def State.setDigestRegs (s : State) (base : Nat) (d : List Byte) : State :=
  (List.range 16).foldl (fun t i => t.setReg commitPage (base + 4 * i) (BitVec.ofNat 32 (field d (4 * i) 4))) s

/-- Writes are applied, and cue `n` is published: last committed cue, digests, counters and events of the COMMIT page (R65, R77). -/
def State.publish (s : State) (n beats : Nat) (w : Sweep) (es : List DeltaEnt) (d : Digests) : State :=
  let s1 := ((s.setReg commitPage 0x048 (BitVec.ofNat 32 w.plain)).setReg commitPage 0x04C (BitVec.ofNat 32 w.merges)).setReg
    commitPage 0x050 (BitVec.ofNat 32 es.length)
  let s2 := ((s1.setFld commitPage 0x054 7 0 beats).setFld commitPage 0x054 15 8 0).setReg commitPage 0x058 (BitVec.ofNat 32 w.flags)
  let above := decide (w.flags % 4 ≠ 0)
  let s3 := if above then (s2.addReg commitPage 0x05C 1).evt commitPage 1 else s2
  let s4 := if w.orphans = 0 then s3 else (s3.addReg commitPage 0x060 w.orphans).evt commitPage 2
  let s5 := ((s4.setDigestRegs 0x080 d.delta).setDigestRegs 0x0C0 d.out).setDigestRegs 0x100 d.inp
  let s6 := (s5.setWide commitPage 0x040 n).evt commitPage 0
  if 5 < beats then s6.evt commitPage 3 else s6

/-- The commit sweep of the running cue (R65): all its writes take effect, its digests are computed, its completions wait for
release, its admitted entries enter the duplicate window, and its CUE record is written (R66–R68, R352, R459). -/
def State.sweep (s : State) (beats : Nat) : State :=
  let n := s.cue.number
  let set := s.cue.sealedSet
  let w := s.sweepRows set
  let ds := s.doneAll n set
  let (s1, rows) := s.numberRows w.rows
  let s2 := rows.foldl (fun t r => t.writeRow n r) s1
  let es := rows.flatMap (s2.rowDelta n)
  let input := set.flatMap inputBytes
  let d : Digests := { inp := shake256 64 input, out := shake256 64 (ds.flatMap outputBytes),
                       delta := shake256 64 (deltaBytes n w.flags es) }
  let s3 : State := { s2 with
    dup := dupAdd s2.dup ds,
    cue := { s2.cue with committed := n, phase := .swept, digests := d, delta := es, flags := w.flags,
                         release := if s.role = 2 ∨ s.role = 3 then [] else releaseList ds } }
  let s4 := (((s3.hashSent n input d.inp).hashSent (n + 1) (ds.flatMap outputBytes) d.out).hashSent (n + 2) (deltaBytes n w.flags es) d.delta)
  (s4.publish n beats w es d).recordCue n w.flags set.length d input

/-! ## What DONE checks of an item's writes (R46, R124) -/

/-- The domain column of the row a plain write targets; none where there is no such row. -/
def State.targetDomain (s : State) (t : Nat) (d : TableDef) : RowRef → Option Nat
  | .committed n => match s.table t, d.domain with
    | some x, some c => (x.rowAt s.cue.committed n).map (fun v => Word.leValue (v.2.cell c))
    | _, _ => none
  | .inserted pos _ => (s.cue.sealedSet[pos]?).map (fun x => x.entry.key)

/-- Whether one plain write leaves the item's domain (R45, R46). -/
def State.outside (s : State) (key : Nat) : StagedOp → Bool
  | .insert t cols => match s.table t with
    | some x => (match x.desc.domain with
      | some c => cols.any (fun p => p.1 == c && Word.leValue p.2 != key)
      | none => true)
    | none => true
  | .update t target _ => match s.table t with
    | some x => s.targetDomain t x.desc target != some key
    | none => true
  | .endRow t target => match s.table t with
    | some x => s.targetDomain t x.desc target != some key
    | none => true
  | .merge _ _ _ _ _ => false

/-- The rows of a table that the items of a domain have inserted or updated in the running cue, as one item sees them at a point of
its own operations (R41, R123, R124): the sweep of what is staged so far. -/
def State.staged (s : State) (set : List Sealed) (pos key : Nat) (ops : List StagedOp) : Sweep :=
  let before := (liveItems (set.take pos)).filter (fun it => it.2.1.key == key)
  let w0 : Sweep := { rows := [], flags := 0, plain := 0, merges := 0, orphans := 0 }
  let apply := fun (w : Sweep) (p : Nat) (l : List StagedOp) => l.zipIdx.foldl (fun w o =>
    s.sweepPlain key p o.2 ((l.take o.2).filter isInsert).length w o.1) w
  apply (before.foldl (fun w it => apply w it.1 it.2.2) w0) pos (ops.filter isInsert)

/-- The index and table of the first unique key that an insert repeats (R124): among the rows visible to the item and those it has
inserted before. -/
def State.duplicate (s : State) (pos key : Nat) (ops : List StagedOp) (i : Nat) : Option (Nat × Nat) :=
  match ops[i]? with
  | some (.insert t cols) => match s.table t with
    | none => none
    | some x =>
      let w := s.staged s.cue.sealedSet pos key (ops.take i)
      let r0 : RowWork := { table := t, key := .ins pos 0, row := 0, cells := x.desc.defaults, ins := true, dead := false,
                            order := (pos, i), written := [], started := [], flags := [], pushes := [] }
      let r := r0.setCols x.desc (insertCols x.desc key cols)
      let clash := x.desc.idxs.zipIdx.find? (fun p => p.1.unique && (
        let k := p.1.keys.flatMap (fun c => r.cells.getD c [])
        w.rows.any (fun q => q.table == t && q.ins && !q.dead && p.1.keys.flatMap (fun c => q.cells.getD c []) == k) ||
        (x.probe p.2 s.cue.committed k).any (fun v => !w.rows.any (fun q => q.table == t && q.key == .row v.2.row && q.dead))))
      clash.map (fun p => (p.2, t))
  | _ => none

/-- The status of an item that ended OK once its writes are checked, with CQE bytes 16–31 (R46, R125). -/
def State.checkWrites (s : State) (pos key : Nat) (ops : List StagedOp) : Nat × List Byte :=
  (List.range ops.length).foldl (fun (acc : Nat × List Byte) i =>
    if acc.1 ≠ 0 then acc
    else match ops[i]? with
      | none => acc
      | some o =>
        if s.outside key o then (0x0105, [])
        else match s.duplicate pos key ops i with
          | some (idx, t) => (0x010A, Word.leBytes 2 idx ++ [0, 0] ++ Word.leBytes 4 t)
          | none => acc) (0, [])

end Sys2Proof.Machine
end

