-- ==== Sys2Proof/Machine/Queue.lean ====
section
/-!
DEFINITION. The fetch side of the queue engine (R30, R35, R396, R404–R406, R418, R419, R421, R422, R427, R450): doorbells, index reads and
their test, the fetch of entries, and the entries as the driver places them in its rings.
-/
namespace Sys2Proof.Machine
open Sys2Proof

/-! ## What the driver places -/

/-- The 64 bytes of an entry (R409). -/
def sqeBytes (opc : Nat) (e : Sqe) : List Byte :=
  Word.leBytes 2 opc ++ [e.flags, e.rsv3] ++ Word.leBytes 4 e.seq.toNat ++ Word.leBytes 8 e.orderKey.toNat ++
    Word.leBytes 4 e.declLen.toNat ++ Word.leBytes 2 e.pipe.toNat ++ Word.leBytes 2 e.rsv22.toNat ++
    Word.leBytes 8 e.dataAddr.toNat ++ fit 32 e.args

/-- The driver places an entry at SQ_PROD of its ring with its data at DATA_ADDR, and advances SQ_PROD (R404, R409). A queue
number without a submission queue has no ring to place it in. -/
def State.placeEntry (s : State) (q opc : Nat) (e : Sqe) : State :=
  let p := s.qp q
  if !p.sqOn then s
  else
    let prod := s.hostValAt p.idxAddr 4
    ((s.pokeHost e.dataAddr.toNat e.data).pokeHost (p.sqAddr + 64 * (prod % 2 ^ p.sqLog)) (sqeBytes opc e)).pokeHost p.idxAddr
      (Word.leBytes 4 (prod + 1))

/-! ## Fetching -/

/-- Whether a write to BAR0 or BAR2 reaches the module: its link up and in D0, no containment, no house halt, and a module state
in which the pages answer (R403, R424, R425, R479). -/
def State.hostReaches (s : State) : Bool :=
  s.hep.linkUp && !s.hep.frozen && s.hep.d0 && !s.mdl.halt &&
    (s.mdl.st == .ready || s.mdl.st == .service || s.mdl.st == .standby)

/-- Whether the queue engine fetches from an I/O queue now: the host is reachable, the pair is not paused, and this module is
no follower of a pair (R419, R450). -/
def State.mayFetch (s : State) (q : Nat) : Bool :=
  s.hostOk && !(s.qp q).paused && !(s.role == 2 || s.role == 3 || s.role == 4)

/-- Entries fetched that have not arrived. -/
def State.inFlight (s : State) : Nat := (s.qpairs.map (fun p => p.2.fetched.length)).sum

/-- One I/O entry is fetched: its 64 bytes and, when no test of R421 fails, its data (R422). -/
def State.fetchOne (s : State) (q : Nat) : State :=
  let p := s.qp q
  let sqe := s.hostBytesAt (p.sqAddr + 64 * (p.sqCons % 2 ^ p.sqLog)) 64
  let inl := Word.bit 0 (field sqe 2 1)
  let data := if (ioFault p sqe).isSome || inl then [] else s.hostBytesAt (field sqe 24 8) (field sqe 16 4)
  let e : Entry := { sq := q, idx := p.sqCons, sqe := sqe, data := data }
  s.setQp q { p with sqCons := (p.sqCons + 1) % 2 ^ 32, fetched := p.fetched ++ [e] }

/-- `n` entries are fetched in queue order. -/
def State.fetchSome (s : State) (q : Nat) : Nat → State
  | 0 => s
  | n + 1 => (s.fetchOne q).fetchSome q n

/-- A doorbell of an I/O submission queue is served: SQ_PROD is read and tested, the new entries are fetched as far as the
admission buffer has room, and SQ_CONS is written (R35, R405, R406). What cannot be served yet stays rung. -/
def State.sqServe (s : State) (q : Nat) : State :=
  let p := s.qp q
  if !p.sqOn then s
  else if !s.mayFetch q then s.setQp q { p with rung := true }
  else
    let prod := s.hostValAt p.idxAddr 4
    let d := ringDist prod p.sqCons
    let s1 := s.setQp q { p with sqProd := prod, rung := false }
    if 2 ^ p.sqLog < d then s1.houseHalt 4 q prod
    else
      let n := min d (65536 - s.cue.buffer.length - s.inFlight)
      let s2 := (s1.fetchSome q n).addReg qengPage 0x074 n
      let p2 := s2.qp q
      let s3 := if n = 0 then s2 else s2.pokeHost (p2.idxAddr + 0x40) (Word.leBytes 4 p2.sqCons)
      if n < d then s3.setQp q { s3.qp q with rung := true } else s3

/-- CQ_CONS of a completion queue is read and tested (R405). -/
def State.readCons (s : State) (q : Nat) : State :=
  let p := s.qp q
  let cons := s.hostValAt (p.idxAddr + 0xC0) 4
  let s1 := s.setQp q { p with cqCons := cons, cqRung := false }
  if 2 ^ p.cqLog < ringDist p.cqProd cons then s1.houseHalt 4 q cons else s1

/-- CQ_CONS of the journal queue is read, tested and used (R405, R418). -/
def State.readJournal (s : State) : State :=
  match s.journal with
  | none => s
  | some j =>
    let cons := s.hostValAt (j.idxAddr + 0xC0) 4
    let s1 : State := { s with journal := some { j with rung := false } }
    if 2 ^ j.log < ringDist j.prod cons then s1.houseHalt 4 j.qid cons else s1.journalCons cons

/-- A CQ doorbell is served: CQ_CONS is read, the held CQEs that fit are written, and their vector is raised once (R401, R406,
R419). While the host cannot be reached it stays rung. -/
def State.cqServe (s : State) (q : Nat) : State :=
  let p := s.qp q
  match s.journal with
  | some j =>
    if j.qid = q then (if s.hostOk then s.readJournal else { s with journal := some { j with rung := true } })
    else if !p.cqOn then s
    else if !s.hostOk then s.setQp q { p with cqRung := true }
    else
      let s1 := s.readCons q
      let (s2, wrote) := s1.flushCq q
      if wrote then s2.raiseVector p.vector else s2
  | none =>
    if !p.cqOn then s
    else if !s.hostOk then s.setQp q { p with cqRung := true }
    else
      let s1 := s.readCons q
      let (s2, wrote) := s1.flushCq q
      if wrote then s2.raiseVector p.vector else s2

/-- A doorbell without its queue is discarded and counted (R396). -/
def State.stray (s : State) : State := (s.addReg qengPage 0x078 1).evt qengPage 1

/-- The I/O queue numbers in use, in ascending order. -/
def State.ioQueues (s : State) : List Nat := (s.qpairs.filter (fun p => decide (p.1 ≠ 0))).map Prod.fst

/-- Every doorbell that is recorded, and for queues with held completions their writing, is served once the host can be reached
(R398, R403, R427, R481). -/
def State.serveRung (s : State) : State :=
  if !s.hostOk then s
  else
    let s1 := s.ioQueues.foldl (fun (t : State) q => if (t.qp q).cqRung then t.readCons q else t) s
    let s2 := if (s1.journal.map JournalQ.rung).getD false then s1.readJournal else s1
    let s3 := s2.flushAll
    s3.ioQueues.foldl (fun (t : State) q => if (t.qp q).rung then t.sqServe q else t) s3

/-- Every doorbell counts as rung: a containment was released (R427), or this module has become lead (R457). -/
def State.ringAll (s : State) : State :=
  { s with qpairs := s.qpairs.map (fun p => (p.1, { p.2 with rung := p.2.sqOn, cqRung := p.2.cqOn })),
           journal := s.journal.map (fun j => { j with rung := true }) }

/-- At a start instant: CQ_CONS is read for queues with completions to write, held CQEs are written, pauses end where a
reservation is free, and what waits in the rings is fetched (R406, R419). -/
def State.queueInstant (s : State) : State :=
  let s1 := s.ioQueues.foldl (fun (t : State) q => if t.hostOk && !(t.qp q).held.isEmpty then t.readCons q else t) s
  let s2 := s1.flushAll
  let s3 := s2.ioQueues.foldl (fun (t : State) q =>
    let p := t.qp q
    if p.paused && decide (p.reserved < 256) then (t.setQp q { p with paused := false }).evt (qctxPage q) 1 else t) s2
  s3.ioQueues.foldl (fun (t : State) q => if (t.qp q).rung then t.sqServe q else t) s3

/-! ## Meanings -/

/-- JOURNAL_EXPORT_PART. -/
def execJournalExportPart (s : State) : Host.Outcome State Fault Refusal := .next s.exportPart

/-- TXN. -/
def execTxn (q : Fin 1024) (e : Sqe) (s : State) : Host.Outcome State Fault Refusal := .next (s.placeEntry q.val 0x0010 e)
/-- QUERY. -/
def execQuery (q : Fin 1024) (e : Sqe) (s : State) : Host.Outcome State Fault Refusal := .next (s.placeEntry q.val 0x0020 e)
/-- QUERY_CANCEL. -/
def execQueryCancel (q : Fin 1024) (e : Sqe) (s : State) : Host.Outcome State Fault Refusal := .next (s.placeEntry q.val 0x0021 e)
/-- SVC_SIGN. -/
def execSvcSign (q : Fin 1024) (e : Sqe) (s : State) : Host.Outcome State Fault Refusal := .next (s.placeEntry q.val 0x0030 e)
/-- SVC_VERIFY. -/
def execSvcVerify (q : Fin 1024) (e : Sqe) (s : State) : Host.Outcome State Fault Refusal := .next (s.placeEntry q.val 0x0031 e)
/-- SVC_DIGEST. -/
def execSvcDigest (q : Fin 1024) (e : Sqe) (s : State) : Host.Outcome State Fault Refusal := .next (s.placeEntry q.val 0x0032 e)

end Sys2Proof.Machine
end

