-- ==== Sys2Proof/Machine/Keys.lean ====
section
/-!
DEFINITION. Keys and firmware: the transport key ceremony (R333), wrapped keys and KEY_IMPORT (R334, R335), firmware images in flash
and their verification (R338–R342), the measurement blocks (R193, R346) and the attestation report (R347).
-/
namespace Sys2Proof.Machine
open Sys2Proof

/-! ## The key ceremony (R333) -/

/-- Bytes XORed with as many of another list. -/
def xorBytes (a b : List Byte) : List Byte := a.zipWith (fun x y => x ^^^ y) b

/-- The check value of a key: the 3-byte KMAC256 of the empty string (R333). -/
def kcv (key : List Byte) : List Byte := kmac256 3 key [] (ascii "STXKCV")

/-- A component of a ceremony arrives; the last one sets KT to the XOR of all (R333). The index numbers the components of an EPOCH,
whatever it counts from (Assumption 18). -/
def State.keyComponent (s : State) (idx count epoch : Nat) (val : List Byte) : State :=
  let c : KtComp := { idx := idx, count := count, epoch := epoch, val := fit 32 val }
  let same := s.keys.comps.filter (fun x => x.epoch == epoch && x.count == count && decide (x.idx ≠ idx)) ++ [c]
  let rest := s.keys.comps.filter (fun x => decide (x.epoch ≠ epoch))
  if count ≠ 2 ∧ count ≠ 3 then s
  else if same.length < count then { s with keys := { s.keys with comps := rest ++ same } }
  else
    let kt := same.foldl (fun acc x => xorBytes acc x.val) (List.replicate 32 0)
    ({ s with keys := { s.keys with kt := some (epoch, kt), comps := rest } }).evt keysPage 2

/-! ## Wrapped keys (R334, R335) -/

/-- The key-wrapping key of a transport key and its EPOCH (R334). -/
def wrapKey (kt : List Byte) (epoch : Nat) : List Byte :=
  kmac256 32 kt (ascii "STX9192 KWK" ++ Word.leBytes 4 epoch) (ascii "KWK")

/-- KEY_LEN of a kind, if it fits (R334). -/
def keyLenOk (kind len : Nat) : Bool :=
  if kind = 1 then len == 4098 else if kind = 2 ∨ kind = 4 then len == 1793
  else if kind = 3 then decide (1 ≤ len) && decide (len ≤ 128) else len == 0

/-- Whether USAGE names only usages of its kind (R332, R334, Assumption 18). -/
def keyUsageOk (kind usage : Nat) : Bool :=
  decide (usage < 16) && (if kind = 1 then decide (usage < 4) else if kind = 2 then usage % 2 == 0 && decide (usage < 4)
    else if kind = 3 then usage % 4 == 0 && decide (usage ≠ 0) else true)

/-- Whether a slot lies in the range of a kind; an erase may name any slot that imports fill (R332, R335). -/
def keySlotOk (kind slot : Nat) : Bool :=
  let pair := decide (0x001 ≤ slot) && decide (slot ≤ 0x040)
  let sym := decide (0x100 ≤ slot) && decide (slot < 0x200)
  let pub := decide (0x200 ≤ slot) && decide (slot < 0x600)
  let auth := decide (0x600 ≤ slot) && decide (slot < 0x610)
  if kind = 1 then pair else if kind = 2 then pub else if kind = 3 then sym else if kind = 4 then auth
  else pair || sym || pub || auth

/-- Whether key bytes have their kind's encoding (R327, R335 reason 4). -/
def keyEncodingOk (kind : Nat) (key : List Byte) : Bool :=
  if kind = 1 then falconPair (key.take 2305) (key.drop 2305) else if kind = 2 ∨ kind = 4 then (falconPub key).isSome else true

/-- What the prompt book records of a key: the SHAKE256 of the public key, or the check value of a symmetric one (R335). -/
def keyDigest (kind : Nat) (key : List Byte) : List Byte :=
  if kind = 1 then shake256 64 (key.drop 2305) else if kind = 2 ∨ kind = 4 then shake256 64 key
  else if kind = 3 then kcv key else []

/-- The checks of KEY_IMPORT in their order: the import, or the reason (R335). -/
def State.keyCheck (s : State) (w : List Byte) : Except Nat Change :=
  let slot := field w 8 2
  let kind := field w 10 1
  let usage := field w 11 1
  let len := field w 12 4
  let epoch := field w 16 4
  if w.take 8 ≠ ascii "STXKEYWR" ∨ 4 < kind ∨ keyUsageOk kind usage = false ∨ keyLenOk kind len = false ∨
      w.length ≠ 88 + len then .error 1
  else match s.keys.kt with
    | none => .error 2
    | some (e, kt) =>
      if e ≠ epoch then .error 2
      else
        let kwk := wrapKey kt epoch
        if kmac256 32 kwk (w.take (56 + len)) (ascii "TAG") ≠ slice w (56 + len) 32 then .error 3
        else
          let key := xorBytes (slice w 56 len) (kmac256 len kwk (slice w 24 32) (ascii "ENC"))
          if keyEncodingOk kind key = false then .error 4
          else if keySlotOk kind slot = false then .error 5
          else if kind ≠ 0 ∧ (s.keySlot slot).isSome then .error 6
          else .ok (.keyImport slot (if kind = 0 then none else some { kind := kind, usage := usage, key := key }) kind
            (keyDigest kind key))

/-- An accepted import or erase takes effect (R335, R337). -/
def State.keyApply (s : State) (slot : Nat) (k : Option KeySlot) : State :=
  ((s.setKeySlot slot k).addReg keysPage 0x07C 1).evt keysPage 0

/-- A refused import is counted (R335, R337). -/
def State.keyRefused (s : State) : State := (s.addReg keysPage 0x080 1).evt keysPage 1

/-- The public key a VERIFY uses, or a symmetric key's usage, by slot kind: the slots in use of a kind (the KEYS page). -/
def State.slotsUsed (s : State) (kind : Nat) : Nat :=
  (s.keys.slots.filter (fun p => match p.2 with
    | some k => k.kind == kind
    | none => false)).length

/-! ## Firmware slots (R338–R342) -/

/-- The FLASH page. -/
def flashPage : Nat := pageOf .flash 0

/-- A firmware slot: 0 A, 1 B. -/
def Flash.slot (f : Flash) (i : Nat) : FwSlot := if i = 0 then f.slotA else f.slotB

/-- A firmware slot replaced. -/
def Flash.setSlot (f : Flash) (i : Nat) (x : FwSlot) : Flash := if i = 0 then { f with slotA := x } else { f with slotB := x }

/-- The slot that is not ACTIVE. -/
def Flash.inactive (f : Flash) : Nat := 1 - f.active

/-- The first `n` bytes of a slot, if all have been written. -/
def FwSlot.bytesUpTo (x : FwSlot) (n : Nat) : Option (List Byte) :=
  (List.range n).mapM (fun i => Sparse.get (fun _ => none) x.bytes i)

/-- A chunk is written into a slot; one at offset 0 begins a new download and erases the slot first (R342, Assumption 19). -/
def FwSlot.write (x : FwSlot) (off : Nat) (bs : List Byte) : FwSlot :=
  { factory := false, bytes := Sparse.setRun (fun _ => none) (if off = 0 ∨ x.factory = true then [] else x.bytes) off (bs.map some) }

/-- The root whose hash a KEY_HASH is and that is not revoked (R339, R340). -/
def Flash.rootOf (f : Flash) (hash : List Byte) : Option Nat :=
  (List.range 4).find? (fun i => !Word.bit i f.revoked && keyHash (Config.rootKey i) == hash)

/-- A verified image (R340). -/
structure FwImage where
  info : FwInfo
  revoke : Nat
  deriving DecidableEq, Repr

/-- The verification of a firmware slot: the image, or the reason (R340–R342, Assumption 19). The image the module was made with
verifies while its SVN, 0, is no lower than the fused one (Assumption 10). -/
def Flash.verify (f : Flash) (i : Nat) : Except Nat (Option FwImage) :=
  let x := f.slot i
  if x.factory then (if 0 < f.svnFuse then .error 6 else .ok none)
  else match x.bytesUpTo 128 with
    | none => .error 8
    | some h =>
      let len := field h 20 4
      if field h 8 2 ≠ 0x9192 ∨ field h 10 1 ≠ 0xB0 then .error 1
      else if len % 64 ≠ 0 ∨ len < 1728 ∨ 2 ^ 26 < len then .error 7
      else match x.bytesUpTo len with
        | none => .error 8
        | some img =>
          let b := img.drop (len - 1600)
          let sigLen := field b 12 4
          if !((b.take 8 == ascii "STXSIGBK") && field b 8 4 == 1 && decide (1 ≤ sigLen) && decide (sigLen ≤ 1462) &&
              allZero (slice b 112 16) && allZero (slice b 1590 10) && allZero (slice b (128 + sigLen) (1462 - sigLen))) then .error 2
          else match f.rootOf (slice b 16 32) with
            | none => .error 3
            | some root =>
              let dig := slice b 48 64
              if dig ≠ shake256 64 (img.take (len - 1600)) then .error 4
              else if falconVerify (Config.rootKey root) (ascii "STXFWIM1" ++ dig) (slice b 128 sigLen) = false then .error 5
              else if field h 16 1 < f.svnFuse then .error 6
              else if h.take 8 ≠ ascii "STXFWIMG" ∨ field h 11 1 ≠ 1 ∨ 63 < field h 16 1 ∨ field h 124 4 ≠ crc32c (h.take 124) then
                .error 7
              else .ok (some { info := { version := field h 12 4, svn := field h 16 1, lib := slice h 32 64, digest := dig, root := root },
                               revoke := field h 96 1 })

/-- The revocation bits after an image's first boot: never its own root's, never the last unrevoked one (R342). -/
def burnRoots (own mask : Nat) (revoked : Nat) : Nat :=
  (List.range 4).foldl (fun r i =>
    if Word.bit i mask && decide (i ≠ own) && !Word.bit i r &&
        decide (1 < ((List.range 4).filter (fun k => !Word.bit k r)).length) then r + 2 ^ i else r) revoked

/-- A verified slot starts (R341, R342). -/
def Flash.start (f : Flash) (i : Nat) (fallback : Bool) (img : Option FwImage) : Flash :=
  { f with booted := i, fallback := fallback, run := img.map FwImage.info,
           revoked := match img with
             | some x => burnRoots x.info.root x.revoke f.revoked
             | none => f.revoked }

/-- The boot ROM: the ACTIVE slot, else the other one with FALLBACK, else none (R341). -/
def Flash.boot (f : Flash) : Option Flash :=
  match f.verify f.active, f.verify f.inactive with
  | .ok img, _ => some (f.start f.active false img)
  | .error _, .ok img => some (f.start f.inactive true img)
  | .error _, .error _ => none

/-- A flash write: FLASH.STAT.BUSY, and erases counted in an open number (the FLASH page, Assumption 19). -/
def State.flashWrite (s : State) (f : Flash) : State :=
  let (n, s1) := s.freeW
  { s1 with flash := { f with busy := true } }.setReg flashPage 0x054 (n.truncate 32)

/-- An image chunk is written into the inactive slot (R342). -/
def State.fwWrite (s : State) (off : Nat) (bs : List Byte) : State :=
  let i := s.flash.inactive
  s.flashWrite (s.flash.setSlot i ((s.flash.slot i).write off bs))

/-- FW_ACTIVATE's checks: the digest of the image in the inactive slot, or the reason (R342). -/
def State.fwCheck (s : State) : Except Nat (List Byte) :=
  match s.flash.verify s.flash.inactive with
  | .ok (some x) => .ok x.info.digest
  | .ok none => .ok (fit 64 Config.fwDigest)
  | .error r => .error r

/-- Whether COMMIT_SVN is allowed: the running image was booted from the ACTIVE slot without fallback (R342). -/
def State.svnAllowed (s : State) : Bool := decide (s.flash.booted = s.flash.active) && !s.flash.fallback

/-- FW_ACTIVATE takes effect: the boot record names the other slot, or the fused SVN rises to the running image's (R342). -/
def State.fwApply (s : State) (commit : Bool) : State :=
  let f := s.flash
  if commit then { s with flash := { f with svnFuse := match f.run with
    | some i => max f.svnFuse i.svn
    | none => f.svnFuse } }
  else { s with flash := { f with active := f.inactive, busy := true } }

/-! ## Measurements and attestation (R193, R346, R347) -/

/-- DIGEST of the running firmware. -/
def State.fwDigest (s : State) : List Byte := match s.flash.run with
  | some i => i.digest
  | none => Config.fwDigest
/-- VERSION of the running firmware. -/
def State.fwVersion (s : State) : Nat := match s.flash.run with
  | some i => i.version
  | none => Config.fwVersion
/-- SVN of the running firmware. -/
def State.fwSvn (s : State) : Nat := match s.flash.run with
  | some i => i.svn
  | none => 0

/-- A manifest entry of a loaded pipeline: the fields R193 lists (Assumption 20). -/
def manifestEntry (p : Pipe) : List Byte :=
  Word.leBytes 2 p.id ++ Word.leBytes 1 p.cls ++ List.replicate 5 0 ++ p.keyHash.take 8 ++ fit 64 p.digest

/-- The pipeline set digest of a set (R192). -/
def setDigest (ps : List Pipe) : List Byte :=
  shake256 64 (ps.flatMap (fun p => Word.leBytes 2 p.id ++ Word.leBytes 1 p.cls ++ List.replicate 5 0 ++ fit 64 p.digest))

/-- The pipeline set in force at the last sealed cue (R193). -/
def State.setAtSeal (s : State) : List Pipe := if s.cue.number = 0 then s.pipes else s.cue.sealedPipes

/-- The identity of the last act seal, as the seal in memory gives it (R346, R354). -/
def State.lastSeal (s : State) : List Byte :=
  if s.pbook.sealedAct = 0 then List.replicate 84 0
  else
    let b := s.bytesAt (s.pbook.sealAddr s.pbook.sealedAct) 2048
    slice b 8 20 ++ slice b 32 64

/-- A measurement: its index, whether it is a digest, and its value (R346). -/
structure Measure where
  idx : Nat
  digest : Bool
  val : List Byte
  deriving DecidableEq, Repr

/-- The measurements of R346, in index order (Assumption 20). -/
def State.measures (s : State) : List Measure :=
  let m := fun (i : Nat) (d : Bool) (v : List Byte) => ({ idx := i, digest := d, val := v } : Measure)
  [m 0x01 true (fit 64 Config.romDigest), m 0x02 true (fit 64 s.fwDigest),
   m 0x03 false (Word.leBytes 4 s.fwVersion ++ Word.leBytes 1 s.fwSvn ++ fit 64 s.libDigest),
   m 0x04 false ((List.range 4).flatMap (fun i => keyHash (Config.rootKey i)) ++ Word.leBytes 1 s.flash.revoked ++
     Word.leBytes 1 s.flash.svnFuse),
   m 0x05 false (keyHash Config.identityPub),
   m 0x10 false (setDigest s.setAtSeal ++ Word.leBytes 8 s.cue.number),
   m 0x11 false (s.setAtSeal.flatMap manifestEntry),
   m 0x12 false (s.keys.slots.flatMap (fun p => match p.2 with
     | some k => Word.leBytes 2 p.1 ++ Word.leBytes 1 k.kind ++ Word.leBytes 1 k.usage ++ keyDigest k.kind k.key
     | none => [])),
   m 0x13 false s.lastSeal]

/-- A measurement block in the DMTF format (R346, Assumption 20). -/
def Measure.block (m : Measure) : List Byte :=
  let v := BitVec.ofNat 8 ((if m.digest then 0 else 128) + Config.dmtfType m.idx % 128) :: (Word.leBytes 2 m.val.length ++ m.val)
  Word.leBytes 1 m.idx ++ [1#8] ++ Word.leBytes 2 v.length ++ v

/-- The stage manager signs with the identity key, on the first usable unit whose signature passes its self-check; a unit whose
signature fails goes into FAULT (R328, R332). -/
def State.idSign (s : State) (msg : List Byte) : List Nat → Option (List Byte) × State
  | [] => (none, s)
  | u :: r =>
    if !s.lsuUsable u then s.idSign msg r
    else match s.freshSig Config.identityPub msg with
      | (some sig, t) => (some sig, t.addReg (lsuPage u) 0x04C 1)
      | (none, t) => (t.lsuFault u 0).idSign msg r

/-- The eight units. -/
def lsuAll : List Nat := List.range 8

/-- What the attestation report signs (R347). -/
def State.attestBody (s : State) (nonce : List Byte) : List Byte :=
  ascii "STXATTST" ++ fit 32 nonce ++ Word.leBytes 8 s.cue.number ++ s.measures.flatMap Measure.block ++ fit 10752 Config.certChain

end Sys2Proof.Machine
end

