-- ==== Sys2Proof/Machine/AdminChecks.lean ====
section
/-!
DEFINITION. The checks of admin commands: field ranges (R416), search array images (R311–R315), attach, detach and load (R110–R115),
and the test of START_CUES (R56, R73, R76, R101, R364). A command that passes leaves a change.
-/
namespace Sys2Proof.Machine
open Sys2Proof

/-- A refused admin command: its status and CQE bytes 16–31. -/
structure Refuse where
  status : Nat
  info : List Byte
  deriving DecidableEq, Repr

/-- ADMIN_FIELD, naming the SQE byte offset of the field (R416). -/
def adminField (off : Nat) : Refuse := { status := 0x010E, info := Word.leBytes 4 off }

/-- The first of a list of field tests that fails, as ADMIN_FIELD. -/
def fieldsBad (l : List (Bool × Nat)) : Option Refuse := (l.find? (fun p => p.1)).map (fun p => adminField p.2)

/-- Whether a range fails its alignment or reaches beyond 2^44 (R398, R416). -/
def rangeBad (a align n : Nat) : Bool := a % align != 0 || decide (2 ^ 44 < a + n)

/-- Whether a number lies outside bounds. -/
def outOf (lo hi v : Nat) : Bool := decide (v < lo) || decide (hi < v)

/-! ## Search array images (R311–R315) -/

/-- An entry of an image (R311). -/
def camLineOf (e : List Byte) : CamLine :=
  { idx := field e 0 4, valid := Word.bit 0 (field e 4 1),
    ent := { key := BitVec.ofNat 160 (field e 8 20), care := BitVec.ofNat 160 (field e 28 20), data := BitVec.ofNat 64 (field e 48 8) } }

/-- CAM_IMAGE_BAD with its reason and entry (R315). -/
def camBad (reason entry : Nat) : Refuse := { status := 0x010D, info := Word.leBytes 4 reason ++ Word.leBytes 4 entry }

/-- IMAGE_REFUSED with its reason (R181, R315). -/
def imageRefused (reason : Nat) : Refuse := { status := 0x0401, info := Word.leBytes 4 reason }

/-- The first entry whose INDEX lies outside the target or does not rise (R311). -/
def camOrder (size : Nat) : Nat → Option Nat → List CamLine → Option Nat
  | _, _, [] => none
  | i, prev, l :: r =>
    let low := match prev with
      | some p => decide (l.idx ≤ p)
      | none => false
    if decide (size ≤ l.idx) || low then some i else camOrder size (i + 1) (some l.idx) r

/-- Whether a loaded pipeline, or an image that a running job holds, has a handle on any array of a target (R312). -/
def State.camInUse (s : State) (target : Nat) : Bool :=
  let covers := fun (p : Pipe) => p.cams.any (fun h => (handleArrays h).any (fun a => (handleArrays target).contains a))
  s.pipes.any covers || (s.jobs.filter (fun j => j.state != .waiting)).any (fun j => covers j.pipe)

/-- DELTA loads that wait for an array (R313). -/
def State.deltasOf (s : State) (a : Nat) : Nat := (s.camDeltas.filter (fun d => (handleArrays d.target).contains a)).length

/-- The checks of CAM_LOAD, in the order of R315. -/
def State.camCheck (s : State) (sqe img : List Byte) : Except Refuse CamPending :=
  let n := field img 16 4
  let kind := field img 12 1
  let target := field img 13 1
  let mode := field img 14 1
  let head := 0xFFFFFFFF
  if img.length < 128 then .error (imageRefused 2)
  else if field img 8 2 ≠ 0x9192 ∨ field img 10 1 ≠ 0xB0 then .error (imageRefused 1)
  else if img.length < 1728 then .error (imageRefused 2)
  else if s.sigBlock "STXCAMI1" img ≠ 0 then .error (imageRefused (s.sigBlock "STXCAMI1" img))
  else if img.take 8 ≠ ascii "STXCAMIM" ∨ field img 11 1 ≠ 1 ∨ field img 124 4 ≠ crc32c (img.take 124) ∨ 1 < kind ∨ 2 < target ∨
      1 < mode then .error (camBad 1 head)
  else if field img 24 8 ≠ img.length ∨ img.length ≠ 128 + 64 * n + 1600 ∨ (kind = 0 ∧ handleSize target < n) ∨
      (kind = 1 ∧ (n < 1 ∨ 512 < n)) then .error (camBad 2 head)
  else if slice img 32 64 ≠ shake256 64 (slice img 128 (64 * n)) then .error (camBad 3 head)
  else
    let raw := (List.range n).map (fun i => slice img (128 + 64 * i) 64)
    let lines := raw.map camLineOf
    match camOrder (handleSize target) 0 none lines with
    | some i => .error (camBad 4 i)
    | none =>
      if kind = 1 ∧ (handleArrays target).any (fun a => (s.cam a).mode != mode) then .error (camBad 5 head)
      else match raw.findIdx? (fun e => decide (2 ≤ field e 4 1) || !allZero (slice e 5 3) || !allZero (slice e 56 8)) with
        | some i => .error (camBad 6 i)
        | none =>
          if kind = 0 ∧ s.camInUse target then .error { status := 0x0206, info := [] }
          else if kind = 1 ∧ (handleArrays target).any (fun a => decide (16 ≤ s.deltasOf a)) then .error { status := 0x0202, info := [] }
          else .ok { target := target, full := kind == 0, mode := mode, lines := lines, sqe := sqe, digest := slice img 32 64,
                     written := false, ident := none, ok := true }

/-! ## Tables (R110, R112, R114, R115) -/

/-- TABLE_IMAGE_BAD with a reason. -/
def tableBad (reason : Nat) : Refuse := { status := 0x0106, info := (badImage reason 0 0).info }

/-- The descriptors of the attached tables. -/
def State.tableDefs (s : State) : List TableDef := s.tableList.map (fun p => p.2.desc)

/-- The checks of ATTACH_TABLE (R101, R110, R115). -/
def State.attachCheck (s : State) (reattach : Bool) (b : List Byte) : Except Refuse Change :=
  let d := tableDefOf b
  let used := decide (2 ≤ b.length) && (s.table (field b 0 2)).isSome
  if used then .error { status := 0x0204, info := [] }
  else
    let survivor := Sparse.get (fun _ => none) s.detached (field b 0 2)
    let matches_ := match survivor with
      | some x => shake256 64 x.desc.bytes == shake256 64 b && decide (s.pbook.verify = 2)
      | none => false
    if reattach && !matches_ then .error (tableBad 10)
    else if !descOk b then .error (tableBad 9)
    else if !s.fits (s.tableDefs ++ [d]) s.cue.stageWrites then .error { status := 0x0202, info := [] }
    else .ok (.attach d reattach)

/-- Whether a loaded pipeline names a table, or a running job reads or writes it (R114). -/
def State.tableHeld (s : State) (t : Nat) : Bool :=
  let names := fun (p : Pipe) => p.trefs.any (fun r => r.table == t)
  s.pipes.any names || (s.jobs.filter (fun j => j.state == .running)).any (fun j => names j.pipe || j.writes.contains t)

/-- The checks of TABLE_LOAD (R112, R114). A scratch table, and one that has rows, cannot be loaded; the spec names no status for
that, and the command answers ADMIN_FIELD for its TABLE field (Assumption 21). -/
def State.tableLoadCheck (s : State) (t : Nat) (img : List Byte) : Except Refuse Change :=
  match s.table t with
  | none => .error (adminField 32)
  | some x =>
    if x.desc.scratch ∨ x.nextRow ≠ 0 then .error (adminField 32)
    else match s.tableImage x img with
      | .error f => .error { status := f.status, info := f.info }
      | .ok y => .ok (.tableLoad t y (slice img 32 64))

/-! ## The changes a command can leave -/

/-- The change that an admin command makes once its checks pass (R36, R171, R174, R335, R342, R408, R416), or its refusal. Opcodes that
make no change have none. -/
def State.changeOf (s : State) (sqe data : List Byte) : Option (Except Refuse Change) :=
  let a16 := field sqe 32 2
  match field sqe 0 2 with
  | 0x03 => some (
    if outOf 1 1023 a16 then .error (adminField 32)
    else if !(s.qp a16).sqOn then .error { status := 0x0209, info := [] }
    else if (s.qp a16).paused then .error { status := 0x0200, info := [] }
    else .ok (.deleteSq a16))
  | 0x10 => some (match s.pipeLoad data (Word.bit 0 (field sqe 32 1)) with
    | .ok p => .ok (.load p)
    | .error e => .error { status := e.1, info := e.2 })
  | 0x11 => some (if (s.pipe a16).isSome then .ok (.unload a16) else .error { status := 0x0103, info := [] })
  | 0x18 => some (s.attachCheck (Word.bit 0 (field sqe 32 1)) data)
  | 0x19 => some (match s.table a16 with
    | none => .error (adminField 32)
    | some _ => if s.tableHeld a16 then .error { status := 0x0204, info := [] } else .ok (.detach a16))
  | 0x1A => some (s.tableLoadCheck a16 data)
  | 0x1B => some (match s.table a16 with
    | none => .error (adminField 32)
    | some x => if x.desc.scratch then .error (adminField 32) else .ok (.snapshot a16 (field sqe 24 8) (field sqe 40 8)))
  | 0x1C => some (match s.camCheck sqe data with
    | .error r => .error r
    | .ok c => .ok (.camFull c))
  | 0x21 => some (.ok .hold)
  | 0x30 => some (match s.keyCheck data with
    | .ok c => .ok c
    | .error r => .error { status := 0x0400, info := Word.leBytes 4 r })
  | 0x39 => some (
    if Word.bit 0 (field sqe 32 1) then
      (if s.svnAllowed then .ok (.fwActivate true)
       else .error { status := 0x0401, info := Word.leBytes 4 (Config.freeWord s.fresh).toNat })
    else match s.fwCheck with
      | .ok _ => .ok (.fwActivate false)
      | .error r => .error { status := 0x0401, info := Word.leBytes 4 r })
  | _ => none

/-! ## START_CUES -/

/-- CUE_PARAM_REFUSED. -/
def cueRefused (info : List Byte) : Refuse := { status := 0x0203, info := info }

/-- The rules that tie the parameters together, in their order: the page offset of the first broken one (R73). -/
def ruleBroken (c : CueParams) : Option Nat :=
  if 4 * c.period < c.admits then some 0x044 else if c.admits < c.cluster then some 0x048
  else if c.period / 2 < c.reserve then some 0x400 else none

/-- The tests of START_CUES in their order (R56, R73, R76, R101, R232, R355, R364). -/
def State.startCheck (s : State) : Option Refuse :=
  let c := s.cueRegs
  if s.rehearse.done then some (cueRefused (Word.leBytes 4 22))
  else match (List.range 12).find? (fun k => decide (s.fld (pageOf .clu k) 0x008 7 4 = 1)) with
  | some k => some (cueRefused (Word.leBytes 4 21 ++ Word.leBytes 4 k))
  | none => match ruleBroken c with
    | some off => some (cueRefused (Word.leBytes 4 23 ++ Word.leBytes 4 off))
    | none => match s.admission (s.settings false) s.pipes with
      | some f => some (cueRefused f.info)
      | none => if s.fits s.tableDefs (wmaxOf s.pipes * c.admits) then none else some { status := 0x0202, info := [] }

/-- The number of the next cue: 1 when a failed verification makes the next START_CUES begin anew (R28, R477). -/
def State.nextCue (s : State) : Nat := if s.pbook.verify = 3 then 1 else s.cue.number + 1

/-- The parameters and the foreground shares of a START_CUES, and the staging area sized by them (R73, R76, R183, R349, R417). -/
def State.takeParams (s : State) : State :=
  (List.range 12).foldl (fun t k => t.setFld (dispPage k) 0x040 12 8 (t.fld (dispPage k) 0x040 4 0))
    { s with cue := { s.cue with par := s.cueRegs, stageWrites := wmaxOf s.pipes * s.cueRegs.admits } }

/-- A START_CUES that passed: after a failed verification what survived is released, the prompt book is allocated when it is not,
the parameters are taken, while cues run at the next start instant, and the cues begin at that instant (R28, R56, R73, R355, R473, R477). -/
def State.startCues (s : State) : State :=
  let s1 := if s.pbook.verify = 3 then
      { s with detached := [], dupKept := [], pbook := { PBook.reset with due := s.pbook.due },
               cue := { s.cue with number := 0, committed := 0 } } else s
  let s2 := if s1.pbook.alloc then s1 else s1.pbAllocate
  let s3 := if s2.cue.unit = 2 then s2 else s2.takeParams
  { s3 with cue := { s3.cue with starting := true },
            mdl := { s3.mdl with st := if s3.mdl.st = .ready then .service else s3.mdl.st } }

end Sys2Proof.Machine
end

