-- ==== Sys2Proof/Machine/Template.lean ====
section
/-!
DEFINITION. ENCODE templates (R160–R162): what each step emits, the output byte map, the escapes, and where a template fails.
-/
namespace Sys2Proof.Machine
open Sys2Proof

/-- The decimal digits of a number below 10^20, most significant first and at least one. -/
def decimalDigits (v : Nat) : List Nat :=
  decDigits (((List.range 20).find? (fun i => decide (v < 10 ^ (i + 1)))).getD 19 + 1) v

/-- A number in decimal with a point before its last `b` digits, at least one digit before the point, and "-" first when negative
(R161). -/
def decimalBytes (neg : Bool) (v b : Nat) : List Byte :=
  let ds := decimalDigits v
  let all := (List.replicate (b + 1 - ds.length) 0 ++ ds).map (fun d => BitVec.ofNat 8 (0x30 + d))
  let whole := all.length - b
  (if neg then [0x2D#8] else []) ++ all.take whole ++ (if b = 0 then [] else [0x2E#8]) ++ all.drop whole

/-- What a step emits before MAP and ESCAPE, or none where it fails (R161). SKIP_IF_ABSENT and END emit nothing. A point position beyond
OUT_MAX stands for one just above it, since either output passes OUT_MAX. -/
def stepBytes (t vec : List Byte) (vals : List (Nat × Word64)) (e : List Byte) : Option (List Byte) :=
  let a := field e 2 2
  let b := field e 4 4
  let point := min b (field t 16 4 + 1)
  match field e 0 1 with
  | 1 => some (slice t (field t 4 4 + a) b)
  | 2 => if vecHas vec a then some (vecData vec a) else if b = 1 then some [] else none
  | 4 => let n := vecNum vec a; some (decimalBytes (decide (n < 0)) n.natAbs point)
  | 5 =>
    let n := (((vals.find? (fun p => p.1 == a)).map Prod.snd).getD 0).toInt
    some (decimalBytes (decide (n < 0)) n.natAbs point)
  | _ => some []

/-- A byte under the output byte map, the identity where there is none (R160). -/
def mapByte (t : List Byte) (b : Byte) : Byte := if field t 12 4 = 0 then b else t.getD (field t 12 4 + b.toNat) 0

/-- A byte under ESCAPE (R162). -/
def escapeByte (b : Byte) : List Byte :=
  if b = 0x26#8 then ascii "&amp;" else if b = 0x3C#8 then ascii "&lt;" else if b = 0x3E#8 then ascii "&gt;"
  else if b = 0x22#8 then ascii "&quot;" else if b = 0x27#8 then ascii "&apos;" else [b]

/-- The bytes that MAP or ESCAPE may not leave (R162). -/
def forbiddenByte (b : Byte) : Bool :=
  decide (b.toNat ≤ 8) || b == 0x0B#8 || b == 0x0C#8 || (decide (0x0E ≤ b.toNat) && decide (b.toNat ≤ 0x1F)) || decide (0x80 ≤ b.toNat)

/-- A step's bytes after MAP and then ESCAPE, or none where one of them is forbidden (R162). -/
def dressBytes (t e bs : List Byte) : Option (List Byte) :=
  let esc := Word.bit 0 (field e 1 1)
  let mapped := Word.bit 1 (field e 1 1)
  let m := if mapped then bs.map (mapByte t) else bs
  let out := if esc then m.flatMap escapeByte else m
  if (esc || mapped) && out.any forbiddenByte then none else some out

/-- The steps of a template from number `i` on, `skip` of them passed over: the output, and the number of the step that failed. A template that
runs past its last step without END fails there (R162). -/
def templateSteps (t vec : List Byte) (vals : List (Nat × Word64)) : Nat → Nat → Nat → List Byte → List Byte × Option Nat
  | 0, i, _, out => (out, some i)
  | n + 1, i, skip, out =>
    let e := slice t (32 + 8 * i) 8
    if 0 < skip then templateSteps t vec vals n (i + 1) (skip - 1) out
    else if field e 0 1 = 6 then (out, none)
    else if field e 0 1 = 3 then templateSteps t vec vals n (i + 1) (if vecHas vec (field e 2 2) then 0 else field e 4 4) out
    else match (stepBytes t vec vals e).bind (dressBytes t e) with
      | none => (out, some i)
      | some bs =>
        if field t 16 4 < out.length + bs.length then (out, some i)
        else templateSteps t vec vals n (i + 1) 0 (out ++ bs)

/-- A template executed on a field vector and item values: its output so far, and the failing step, if any (R160–R162). -/
def templateRun (t vec : List Byte) (vals : List (Nat × Word64)) : List Byte × Option Nat :=
  templateSteps t vec vals (field t 2 2) 0 0 []

end Sys2Proof.Machine
end

