-- ==== Sys2Proof/Machine/Items.lean ====
section
/-!
DEFINITION. The nodes of a transaction item (R41–R46, R54, R55, R120–R126, R157, R167, R525, R528) and the service commands (R348, R349):
what each node reads, charges, stages and gives, and how it ends its item.
-/
namespace Sys2Proof.Machine
open Sys2Proof

/-- An item's nodes so far: what each gave, the item values, the staged writes in order, the result with its signatures, the counters of R54,
and the status and CQE bytes 16–31 with which it ended, if it has. -/
structure ItemRun where
  outs : List NodeOut
  vals : List (Nat × Word64)
  ops : List StagedOp
  result : List Byte
  sigs : List SigSpan
  counts : List Nat
  stop : Option (Nat × List Byte)
  deriving DecidableEq, Repr

/-- An item before its first node. -/
def ItemRun.start : ItemRun :=
  { outs := [], vals := [], ops := [], result := [], sigs := [], counts := List.replicate 8 0, stop := none }

/-- An item ended with a status and its details (R125). -/
def ItemRun.ends (r : ItemRun) (status : Nat) (info : List Byte) : ItemRun := { r with stop := some (status, info) }

/-- BUDGET_EXCEEDED on a counter (R55). -/
def ItemRun.exceeds (r : ItemRun) (budgets : List Nat) (c : Nat) : ItemRun :=
  r.ends 0x0102 (Word.leBytes 2 c ++ [0, 0] ++ Word.leBytes 4 (budgets.getD c 0))

/-- The counter that a node above its X_MAX is reported on (R528). -/
def opCounter (op : Nat) : Nat :=
  if op = 4 then 1 else if op = 9 then 2 else if op = 14 then 5 else if op = 16 ∨ op = 17 then 7 else 0

/-- A charge to one counter, refused where it would go above the budget (R54, R55). -/
def ItemRun.charge (r : ItemRun) (budgets : List Nat) (c amount : Nat) : ItemRun :=
  if r.stop.isSome then r
  else
    let v := r.counts.getD c 0 + amount
    if budgets.getD c 0 < v then r.exceeds budgets c else { r with counts := r.counts.set c v }

/-- A node finds its x: above X_MAX it ends the item before anything is charged, else its exact charge follows (R120, R528). -/
def ItemRun.takes (r : ItemRun) (p : Pipe) (n : PNode) (x c amount : Nat) : ItemRun :=
  if n.xMax < x then r.exceeds p.budgets (opCounter n.op)
  else if c = 0 then r else r.charge p.budgets c amount

/-- What a node gives, if its item goes on. -/
def ItemRun.gives (r : ItemRun) (o : NodeOut) : ItemRun := if r.stop.isSome then r else { r with outs := r.outs ++ [o] }

/-- A key refused, or a signature that fails, in a node (R125). -/
def ItemRun.keyEnds (r : ItemRun) (status slot node : Nat) : ItemRun :=
  if r.stop.isSome then r else r.ends status (Word.leBytes 2 slot ++ [0, 0] ++ Word.leBytes 4 node)

/-- OPERATOR_FAULT through a unit job of a node (R217, R510). -/
def ItemRun.unitEnds (r : ItemRun) (status node : Nat) : ItemRun :=
  if r.stop.isSome then r else r.ends 0x010C ([0, 0] ++ Word.leBytes 2 status ++ Word.leBytes 4 node)

/-! ## What an item sees (R41, R42, R123) -/

/-- The plain writes that the earlier items of an item's domain have staged in the cue (R41). -/
def State.overlay (s : State) (pos key : Nat) : Sweep := s.staged s.cue.sealedSet pos key []

/-- The row of a staged write as the overlay holds it. -/
def Sweep.rowOf (w : Sweep) (t : Nat) (r : RowRef) : Option RowWork := w.rows.find? (fun x => x.table == t && x.key == rowKeyOf r)

/-- The rows that a key under an index matches for an item, in ascending row number and then as they were staged: the state committed at
the last cue, without rows that the overlay ends, and the rows it inserts (R41, R123). -/
def State.itemFind (s : State) (w : Sweep) (t idx : Nat) (key : List Byte) : List RowRef :=
  match s.table t with
  | none => []
  | some x =>
    let live := (x.probe idx s.cue.committed key).filterMap (fun p =>
      match w.rowOf t (.committed p.2.row) with
      | some r => if r.dead then none else some (RowRef.committed p.2.row)
      | none => some (.committed p.2.row))
    let staged := match x.desc.idxs[idx]? with
      | none => []
      | some d => w.rows.filterMap (fun r => match r.key with
        | .ins pos k => if r.table = t ∧ r.dead = false ∧ d.keys.flatMap (fun c => r.cells.getD c []) = key then
            some (RowRef.inserted pos k) else none
        | _ => none)
    live ++ staged

/-- A column of a row as an item reads it: the committed value as the overlay modifies it; merges of the cue are not seen (R41, R42). -/
def State.itemCell (s : State) (w : Sweep) (h : Hit) (c : Nat) : List Byte :=
  match h.row with
  | none => []
  | some r => match w.rowOf h.table r with
    | some x => x.cells.getD c []
    | none => match s.table h.table, r with
      | some x, .committed n => ((x.rowAt s.cue.committed n).map (fun v => v.2.cell c)).getD []
      | _, _ => []

/-- The pairs of a ring that an item of the running cue sees (R97); a row the cue inserts has none. -/
def State.itemPairs (s : State) (h : Hit) (c : Nat) : List (Nat × Word64) :=
  match h.row, s.table h.table with
  | some (.committed n), some x => match x.desc.col c, (x.ringsOf n).find? (fun g => g.col == c) with
    | some d, some g => (ringWindow d s.cue.number g.pairs).map (fun p => (p.1, wordOf (d.num p.2)))
    | _, _ => []
  | _, _ => []

/-- What the stage programs of an item see. -/
def State.itemEnv (s : State) (pos : Nat) (e : Entry) (r : ItemRun) : Env :=
  let w := s.overlay pos e.key
  { msg := e.message.take e.declLen, key := e.key, cue := s.cue.number, vals := r.vals, outs := r.outs,
    colType := fun t c => match (s.table t).bind (fun x => x.desc.col c) with
      | some d => d.res
      | none => intCol 3,
    cell := s.itemCell w, find := s.itemFind w }

/-! ## DECODE and ENCODE (R157, R159, R161) -/

/-- The message that a DECODE parses: a leading one with TRAILER_OK leaves the trailer out (R157, R412). -/
def decodeMessage (f : List Byte) (leading : Bool) (e : Entry) (m : List Byte) : List Byte :=
  match codecWalk f m with
  | .error ((st, _, off), _) => if st = stLenLong ∧ leading = true ∧ Word.bit 3 e.flags = true then m.take off else m
  | .ok _ => m

/-- DECODE: the field vector of a message, or DECODE_FAIL with its field and offset (R122, R125, R156, R157). -/
def ItemRun.decode (r : ItemRun) (p : Pipe) (n : PNode) (f m : List Byte) (x : Stream) : ItemRun :=
  let fail := fun (k off : Nat) => r.ends 0x0107 (Word.leBytes 2 k ++ [0, 0] ++ Word.leBytes 4 off)
  match codecWalk f m with
  | .error ((_, k, off), _) => fail k off
  | .ok q => match vecBytes f q with
    | .error ((_, k, off), _) => fail k off
    | .ok vec => (r.takes p n q.fields.length 6 q.used).gives { stream := x, vec := vec }

/-- A field vector with some of its entries set or removed, its data area written anew (R156, R159). -/
def editVec (vec : List Byte) (edits : List (Nat × Option (List Byte))) : List Byte :=
  let data := fun (k : Nat) => match edits.find? (fun q => q.1 == k) with
    | some q => q.2
    | none => if vecHas vec k then some (vecData vec k) else none
  let pre := slice vec 4160 (field vec 4 2)
  let placed := (List.range 256).foldl (fun (acc : List (Nat × Nat × List Byte) × Nat) k => match data k with
    | some b => (acc.1 ++ [(k, acc.2, b)], acc.2 + b.length)
    | none => acc) ([], 4160 + pre.length)
  let has := fun (k : Nat) => placed.1.any (fun q => q.1 == k)
  let bits := fun (lo m : Nat) => (List.range m).foldl (fun v i => if has (lo + i) then v + 2 ^ i else v) 0
  let ent := fun (k : Nat) => match placed.1.find? (fun q => q.1 == k) with
    | some q =>
      let old := vecEntry vec k
      let keep := if edits.any (fun z => z.1 == k) then 1 else field old 6 1
      Word.leBytes 4 q.2.1 ++ Word.leBytes 2 q.2.2.length ++ Word.leBytes 1 keep ++ [0#8] ++ slice old 8 8
    | none => List.replicate 16 0
  slice vec 0 6 ++ Word.leBytes 2 ((List.range 192).filter has).length ++ Word.leBytes 24 (bits 0 192) ++ Word.leBytes 8 (bits 192 64) ++
    Word.leBytes 4 (placed.2 - 4160) ++ slice vec 44 20 ++ (List.range 256).flatMap ent ++ pre ++ placed.1.flatMap (fun q => q.2.2)

/-- The fields that a vector holds (R156). -/
def vecFields (vec : List Byte) : Nat := ((List.range 192).filter (fun k => Word.bit (k % 64) (field vec (8 + 8 * (k / 64)) 8))).length

/-- ENCODE_FAIL (R125). -/
def ItemRun.encodeFails (r : ItemRun) (at_ bytes : Nat) : ItemRun :=
  r.ends 0x0108 (Word.leBytes 2 at_ ++ [0, 0] ++ Word.leBytes 4 bytes)

/-- ENCODE through the codec: its bytes are charged as they are built, up to the budget (R54, R120, R159, R214). -/
def ItemRun.encodeBuild (r : ItemRun) (p : Pipe) (n : PNode) (f vec : List Byte) (outMax : Nat) (x : Stream) : ItemRun :=
  let r1 := r.takes p n (vecFields vec) 0 0
  if r1.stop.isSome then r1
  else
    let room := p.budgets.getD 6 0 - r1.counts.getD 6 0
    let (out, _, err) := codecBuild f vec (min outMax room)
    match err with
    | some (st, k, _) => if st = stOutFull ∧ room < outMax then r1.exceeds p.budgets 6 else r1.encodeFails k out.length
    | none => (r1.charge p.budgets 6 out.length).gives { stream := x, vec := vec, built := out }

/-- ENCODE through a template (R161, R162). -/
def ItemRun.encodeTemplate (r : ItemRun) (p : Pipe) (n : PNode) (t vec : List Byte) (x : Stream) : ItemRun :=
  let (out, fail) := templateRun t vec r.vals
  let r1 := r.takes p n out.length 0 0
  if r1.stop.isSome then r1
  else match fail with
    | some i => r1.encodeFails i out.length
    | none => r1.gives { stream := x, vec := vec, built := out }

/-! ## WRITE and MERGE (R45–R47, R123–R125, R525) -/

/-- The row that a WRITE or MERGE names, none for a miss (R525). -/
def askRow (v : Env) (row : Row) : RowAsk → Option Hit
  | .here => row.hit
  | .probed n i => (v.rowAt n i).2.hit

/-- The columns of a write, evaluated. -/
def askCols (v : Env) (x : Stream) (row : Row) (cols : List (Nat × List Piece)) : List (Nat × List Byte) :=
  cols.map (fun c => (c.1, piecesBytes v x.cols row c.2))

/-- The staged operation that one ask of a WRITE node comes to on a row: none where its condition fails or its target is a miss (R525). -/
def writeOp (v : Env) (table : Nat) (x : Stream) (row : Row) : WriteAsk → Option StagedOp
  | .insert cond cols => if exprEval v cond x.cols row = 0 then none else some (.insert table (askCols v x row cols))
  | .update cond a cols => if exprEval v cond x.cols row = 0 then none
      else ((askRow v row a).bind Hit.row).map (fun h => .update table h (askCols v x row cols))
  | .endRow cond a => if exprEval v cond x.cols row = 0 then none
      else ((askRow v row a).bind Hit.row).map (fun h => .endRow table h)

/-- The merge operation of a FUNCTION code (R166). -/
def mergeFn (f : Nat) : MergeOp :=
  if f = 1 then .add else if f = 2 then .min else if f = 3 then .max else if f = 4 then .or else if f = 5 then .count else .ringPush

/-- The contribution of a MERGE node on a row: none where its condition fails or its row-form target is a miss (R47, R525). -/
def mergeOp (v : Env) (table : Nat) (n : PNode) (x : Stream) (row : Row) (cond : Expr) (target : MergeAsk) (c : Nat) (e : Expr) :
    Option StagedOp :=
  if exprEval v cond x.cols row = 0 then none
  else
    let arg := exprEval v e x.cols row
    match target with
    | .row a => ((askRow v row a).bind Hit.row).map (fun h => .merge table (.row h) c (mergeFn n.func) arg)
    | .key vals => some (.merge table (.key n.idx (vals.map (piecesBytes v x.cols row))) c (mergeFn n.func) arg)

/-- One operation of a WRITE or MERGE node is staged, the `k`-th it performs: above X_MAX or the WRITES budget it is not performed; a write
outside the domain or a repeated unique key ends the item (R46, R124, R125, R528). -/
def State.stageOp (s : State) (pos : Nat) (e : Entry) (p : Pipe) (n : PNode) (acc : ItemRun × Nat) (o : StagedOp) : ItemRun × Nat :=
  let (r, k) := acc
  if r.stop.isSome then acc
  else
    let r1 := r.takes p n (k + 1) 7 1
    if r1.stop.isSome then (r1, k)
    else if s.outside e.key o then (r1.ends 0x0105 [], k)
    else match s.duplicate pos e.key (r1.ops ++ [o]) r1.ops.length with
      | some (idx, t) => (r1.ends 0x010A (Word.leBytes 2 idx ++ [0, 0] ++ Word.leBytes 4 t), k)
      | none => ({ r1 with ops := r1.ops ++ [o] }, k + 1)

/-! ## EMIT (R126, R167) -/

/-- The bytes of an EMIT on a row, and the signatures among them, from an offset of the result on. -/
def emitPieces (v : Env) (cs : List ResCol) (row : Row) (at_ : Nat) (ps : List Piece) : List Byte × List SigSpan :=
  ps.foldl (fun acc q =>
    let b := pieceBytes v true cs row q
    let g := match q with
      | .sig n => match (v.outs[n]?).bind NodeOut.signed with
        | some z => [({ off := at_ + acc.1.length, len := b.length, slot := z.slot, msg := z.msg } : SigSpan)]
        | none => []
      | _ => []
    (acc.1 ++ b, acc.2 ++ g)) ([], [])

/-- EMIT: its bytes join the result, up to RESULT_MAX (R122, R125, R126, R167). -/
def ItemRun.emit (r : ItemRun) (v : Env) (p : Pipe) (n : PNode) (ps : List Piece) (x : Stream) : ItemRun :=
  let (bs, gs) := x.rows.foldl (fun acc row =>
    let q := emitPieces v x.cols row (r.result.length + acc.1.length) ps
    (acc.1 ++ q.1, acc.2 ++ q.2)) (([], []) : List Byte × List SigSpan)
  let r1 := r.takes p n (Word.ceilDiv bs.length 256) 0 0
  let total := r.result.length + bs.length
  if r1.stop.isSome then r1
  else if p.resultMax < total then r1.ends 0x0109 (List.replicate 4 0 ++ Word.leBytes 4 p.resultMax ++ Word.leBytes 8 total)
  else { r1 with result := r.result ++ bs, sigs := r.sigs ++ gs }.gives { stream := x, built := bs }

/-! ## The nodes -/

/-- The section of a template or format table that a node names (R166). -/
def Pipe.sectionOf (p : Pipe) (n : PNode) : List Byte :=
  let l := if n.op = 11 ∧ Word.bit 0 n.flags = false then p.templates else p.formats
  ((l.find? (fun f => f.1 == n.fmt)).map Prod.snd).getD []

/-- One node of an item, whose plan is of its operator (R120, R122, R125). A VERIFY or SIGN node runs only when the entry asks for it
(R413). -/
def State.itemDo (s : State) (pos : Nat) (e : Entry) (p : Pipe) (r : ItemRun) (k : Nat) (n : PNode) (pl : NodePlan) : ItemRun :=
  let v := s.itemEnv pos e r
  let x := v.input n.in0
  let rows := x.rows.length
  let table := (p.trefs[n.tref]?.map PTabRef.table).getD 4096
  let bytesIn := fun (q : List Piece) => piecesBytes v x.cols (x.rows.headD (Row.of [])) q
  let msg := if n.in0 = 0xFFFE then v.msg else ((v.outs[n.in0]?).map NodeOut.built).getD []
  match pl with
  | .filter c => (r.takes p n rows 0 0).gives { stream := filterRows v c x }
  | .project cols vals =>
    let set := (vals.filter (fun q => decide (q.1 < 64))).map (fun q => (q.1, exprEval v q.2 x.cols (x.rows.headD (Row.of []))))
    let r1 := (r.takes p n rows 0 0).gives { stream := projectRows v cols x }
    { r1 with vals := set ++ r1.vals }
  | .probe all keys => (r.takes p n (rows * keys.length) 1 (rows * keys.length)).gives { stream := probeRows v table n.idx all keys x }
  | .window c =>
    let y := x.rows.map (fun row => { row with pairs := match row.hit with
      | some h => s.itemPairs h c
      | none => [] })
    (r.takes p n (y.map (fun row => row.pairs.length)).sum 0 0).gives { stream := { x with rows := y } }
  | .route h keys casc =>
    (r.takes p n (rows * keys.length) 2 (rows * keys.length)).gives { stream := s.routeRows v h keys casc x }
  | .decode => r.decode p n (p.sectionOf n) (decodeMessage (p.sectionOf n) (decide (k = 0 ∧ n.in0 = 0xFFFE)) e msg) x
  | .encode from_ edits outMax =>
    let vec := editVec (v.vecOf from_) (edits.map (fun q => (q.1, q.2.map bytesIn)))
    if Word.bit 0 n.flags then r.encodeBuild p n (p.sectionOf n) vec outMax x else r.encodeTemplate p n (p.sectionOf n) vec x
  | .verify m g =>
    if Word.bit 2 e.flags then
      let r1 := r.takes p n 1 3 1
      let text := bytesIn m
      if text.isEmpty || decide (16384 < text.length) then r1.unitEnds stDescBad k
      else match s.verifyKey n.slot with
        | none => r1.keyEnds 0x0400 n.slot k
        | some pk => if falconVerify pk text (bytesIn g) then r1.gives { stream := x } else r1.keyEnds 0x0104 n.slot k
    else r.gives { stream := x }
  | .sign m =>
    if Word.bit 1 e.flags then
      let r1 := r.takes p n 1 4 1
      let text := bytesIn m
      if text.isEmpty || decide (16384 < text.length) then r1.unitEnds stDescBad k
      else match s.signKey n.slot with
        | none => r1.keyEnds 0x0400 n.slot k
        | some _ => r1.gives { stream := x, signed := some { slot := n.slot, msg := text, sig := Config.freeSig (s.fresh + k) } }
    else r.gives { stream := x }
  | .digest m cust len =>
    let d := (digFixed n.func).getD len
    let blocks := (x.rows.map (fun row => digCharge n.func (piecesBytes v x.cols row m).length d)).sum
    let r1 := r.takes p n blocks 5 blocks
    match s.digestRows v n.func n.slot m cust len x with
    | some y => r1.gives { stream := y, built := bytesIn m }
    | none => r1.keyEnds 0x0400 n.slot k
  | .emit _ ps => r.emit v p n ps x
  | .write asks =>
    let ops := x.rows.flatMap (fun row => asks.filterMap (writeOp v table x row))
    (ops.foldl (s.stageOp pos e p n) (r, 0)).1.gives { stream := x }
  | .merge cond target c a =>
    let ops := x.rows.filterMap (fun row => mergeOp v table n x row cond target c a)
    (ops.foldl (s.stageOp pos e p n) (r, 0)).1.gives { stream := x }
  | .fault st => r.unitEnds st k
  | _ => r.gives { stream := x }

/-- One node of an item; a node without a plan of its operator passes its input on. -/
def State.itemNode (s : State) (pos : Nat) (e : Entry) (p : Pipe) (plan : List NodePlan) (r : ItemRun) (k : Nat) : ItemRun :=
  match r.stop, p.nodes[k]? with
  | none, some n =>
    let pl := match plan[k]? with
      | some q => if planFits q n.op then q else .compress 0 0 0
      | none => .compress 0 0 0
    s.itemDo pos e p r k n pl
  | _, _ => r

/-- A transaction item: its nodes in node order (R122, R167). -/
def State.itemRun (s : State) (pos : Nat) (e : Entry) (p : Pipe) (plan : List NodePlan) : ItemRun :=
  (List.range p.nodes.length).foldl (s.itemNode pos e p plan) ItemRun.start

/-! ## Service commands (R348, R349) -/

/-- A service command refused for its key or its arguments, or failing verification (R125, R348). -/
def svcEnds (status slot : Nat) : ItemRun := ItemRun.start.keyEnds status slot noNode

/-- A service command that ends OK. -/
def svcGives (result : List Byte) (sigs : List SigSpan) : ItemRun := { ItemRun.start with result := result, sigs := sigs }

/-- SVC_SIGN: the signature of its message, with its length first (R348). -/
def State.svcSignItem (s : State) (e : Entry) : ItemRun :=
  let slot := field e.sqe 32 2
  match s.signKey slot with
  | none => svcEnds 0x0400 slot
  | some _ =>
    let sig := Config.freeSig s.fresh
    svcGives (Word.leBytes 2 sig.length ++ [0, 0] ++ sig) [{ off := 4, len := sig.length, slot := slot, msg := e.message.take e.declLen }]

/-- SVC_VERIFY: VERIFY_FAIL or OK, without a result (R348). -/
def State.svcVerifyItem (s : State) (e : Entry) : ItemRun :=
  let slot := field e.sqe 32 2
  let m := field e.sqe 36 4
  let data := e.message.take e.declLen
  match s.verifyKey slot with
  | none => svcEnds 0x0400 slot
  | some pk =>
    if m = 0 then svcEnds 0x0400 slot
    else if falconVerify pk (data.take m) (data.drop m) then svcGives [] [] else svcEnds 0x0104 slot

/-- SVC_DIGEST: the digest of its message under its customization, within 260 blocks (R121, R318, R348, R349). -/
def State.svcDigestItem (s : State) (e : Entry) : ItemRun :=
  let f := field e.sqe 32 1
  let cl := field e.sqe 33 1
  let d := field e.sqe 34 2
  let slot := field e.sqe 36 2
  let data := e.message.take e.declLen
  let bad := decide (f = 0) || decide (10 < f) || decide (64 < cl) || (decide (cl ≠ 0) && decide (f < 9)) || (match digFixed f with
      | some n => decide (d ≠ n)
      | none => decide (d = 0) || decide (1024 < d)) || (!digKeyed f && decide (slot ≠ 0xFFFF))
  if bad then svcEnds 0x0400 slot
  else if 260 < digCharge f (data.length - cl) d then ItemRun.start.exceeds [300, 0, 0, 0, 0, 260, 0, 0] 5
  else match s.digKey (fit 64 ([0, BitVec.ofNat 8 f] ++ List.replicate 24 0 ++ Word.leBytes 2 slot)) with
    | none => svcEnds 0x0400 slot
    | some k => svcGives (digFinal f d k (digInit f k (data.take cl)) (data.drop cl)) []

/-- What an entry's item comes to (R54, R122, R348). -/
def State.itemWork (s : State) (pos : Nat) (e : Entry) (plan : List NodePlan) : ItemRun :=
  match e.opc with
  | 0x10 => match s.pipe e.pipe with
    | some p => s.itemRun pos e p plan
    | none => ItemRun.start
  | 0x30 => s.svcSignItem e
  | 0x31 => s.svcVerifyItem e
  | 0x32 => s.svcDigestItem e
  | _ => ItemRun.start

/-! ## The end of an item -/

/-- How an item ends: with an exhausted budget or an operator fault that its core met (R55, R217); else as its nodes end (R122); else with the
status it is given (R213). Whatever ends it with an error discards its writes (R55). -/
def State.itemEnd (s : State) (pos : Nat) (e : Entry) (f : ItemFin) : ItemEnd :=
  let r := s.itemWork pos e f.plan
  let out : ItemOutput := { ops := r.ops, result := r.result, sigs := r.sigs }
  let (status, info) := if f.status = 0x0102 ∨ f.status = 0x010C then (f.status, f.info)
    else match r.stop with
      | some x => x
      | none => (f.status, if f.status = 0 then [] else f.info)
  { status := status, info := fit 16 info, out := out }

/-- An entry of the sealed set ends (R213); every act seal that waits is signed ahead of its signatures (R23). Signatures used free values
(Assumption 3). -/
def State.endEntry (s : State) (pos : Nat) (f : ItemFin) : State :=
  match s.cue.sealedSet[pos]? with
  | none => s
  | some x =>
    let s := if (s.itemEnd pos x.entry f).out.sigs.isEmpty then s else s.sealsFirst
    let y := { x with fin := some (s.itemEnd pos x.entry f) }
    { s with cue := { s.cue with sealedSet := s.cue.sealedSet.set pos y }, fresh := s.fresh + 256 }

end Sys2Proof.Machine
end

