-- ==== Sys2Proof/Machine/Rehearsal.lean ====
section
/-!
DEFINITION. Rehearsal (R361–R365): the stream of export blocks, and the
re-execution of its cues.
-/
namespace Sys2Proof.Machine
open Sys2Proof

/-! ## The stream (R350, R357, R358, R363) -/

/-- The REHEARSE page. -/
def rehPage : Nat := pageOf .rehearse 0

/-- A place where the stream is bad: the result, and the record number reported. -/
def rehBad (fault diff : Nat) : RehItem := { bytes := [], input := [], count := 0, fault := fault, diff := diff }

/-- The records of a block's body in order. Every CUE record takes the next input log section, which must be its own; a record whose
PREV is not the SHAKE256 of the one before breaks the chain (R350, R357, R363). -/
def rehRecords (prev : Option (List Byte)) : List (List Byte) → List Byte → List RehItem
  | [], _ => []
  | r :: rest, log =>
    let num := field r 8 6
    let want := match prev with
      | some p => some (shake256 32 p)
      | none => if field r 14 1 = 1 then some (List.replicate 32 0) else none
    let broken := match want with
      | some w => w != slice r 224 32
      | none => false
    if broken then [rehBad 5 num]
    else if field r 14 1 = 3 then
      let len := field log 8 4
      if log.length < 16 + len ∨ field log 0 8 ≠ field r 0 8 then [rehBad 8 num]
      else { bytes := r, input := slice log 16 len, count := field log 12 4, fault := 0, diff := 0 } ::
        rehRecords (some r) rest (log.drop (16 + Word.ceilDiv len 8 * 8))
    else { bytes := r, input := [], count := 0, fault := 0, diff := 0 } :: rehRecords (some r) rest log

/-- Whether a seal fails its root or its signature, under one of a list of keys (R353, R354, R363). -/
def sealBad (keys : List (List Byte)) (recs : List (List Byte)) (sl : List Byte) : Bool :=
  let root := actRootOf (recs.length + 1) (recs.map (fun r => shake256 64 (0x00#8 :: r)))
  let n := field sl 96 2
  sl.take 8 != ascii "STXSEAL1" || field sl 16 8 != field (recs.headD []) 8 6 || field sl 24 4 != recs.length ||
    slice sl 32 64 != root || !keys.any (fun k => falconVerify k (sl.take 96) (slice sl 128 n))

/-- The raw body of a block and the bytes of the block, if it is well formed (R358). -/
def rehBody (bs : List Byte) : Option (List Byte × Nat) :=
  let stored := field bs 36 4
  let len := Word.ceilDiv (64 + stored) 64 * 64
  let body := slice bs 64 stored
  let raw := if field bs 28 2 = 0 then some body else if field bs 28 2 = 1 then inflate body else none
  match raw with
  | none => none
  | some r =>
    if bs.take 8 != ascii "STXJRNBK" || field bs 60 4 != crc32c (bs.take 60) || decide (bs.length < len) || r.length != field bs 32 4 ||
        field bs 40 4 != crc32c r || field bs 20 4 != 1 || field bs 16 4 == 0 || r.length != 256 * field bs 16 4 + 2048 + field bs 24 4
    then none else some (r, len)

/-- The records of a stream, block by block, up to the first place where it is bad (R363). -/
def rehStream (keys : List (List Byte)) (prev : Option (List Byte)) : Nat → List Byte → List RehItem
  | 0, _ => []
  | _, [] => []
  | n + 1, bs =>
    match rehBody bs with
    | none => [rehBad 8 (field bs 8 6)]
    | some (r, len) =>
      let cnt := field bs 16 4
      let recs := (List.range cnt).map (fun i => slice r (256 * i) 256)
      let items := rehRecords prev recs (r.drop (256 * cnt + 2048))
      if items.any (fun i => decide (i.fault ≠ 0)) then items
      else if sealBad keys recs (slice r (256 * cnt) 2048) then [rehBad 6 (field bs 8 6)]
      else items ++ rehStream keys recs.getLast? n (bs.drop len)

/-- The keys that a stream's seals may be signed with: the authority whose KEY_HASH its GENESIS record names, or, in a stream without
one, any enrolled authority (R361, R363, Assumption 22). -/
def State.rehKeys (s : State) (bs : List Byte) : List (List Byte) :=
  match rehBody bs with
  | some (r, _) => if field r 14 1 = 1 then (s.authorityOf (slice r 24 32)).toList
      else (List.range 16).filterMap (fun i => s.authority (0x600 + i))
  | none => []

/-! ## The cues (R363, step 4) -/

/-- The sealed entries of an input log section (R66, R357). -/
def State.rehEntries (s : State) : Nat → List Byte → List Sealed
  | 0, _ => []
  | n + 1, bs =>
    let len := field bs 4 4
    let e : Entry := { sq := field bs 0 2, idx := 0, sqe := slice bs 8 64, data := slice bs 72 len }
    let d := field bs 2 2
    sealedAs e d (if d = 0x0003 then s.dupFind e.sq e.seq else none) :: s.rehEntries n (bs.drop (72 + len))

/-- The items of a rehearsed cue end as the run gave; one of which the run says nothing ends with a free status (Assumption 3). -/
def State.rehItems (s : State) (ends : List ItemFin) : Nat → List Sealed → State
  | _, [] => s
  | pos, x :: r =>
    if x.disp = 0 ∧ x.entry.fg then
      match ends with
      | f :: fs => (s.endEntry pos f).rehItems fs (pos + 1) r
      | [] =>
        let (v, s1) := s.freeW
        (s1.endEntry pos { status := v.toNat % 65536, info := [], plan := [] }).rehItems []
          (pos + 1) r
    else s.rehItems ends (pos + 1) r

/-- A CUE record is rehearsed: its result, or 0, with the state after its cue. The prompt book writes nothing, and nothing is released
(R363, R364). -/
def State.rehCue (s : State) (x : RehItem) (ends : List ItemFin) : Nat × State :=
  let r := x.bytes
  let n := field r 0 8
  if n ≠ s.cue.number + 1 then (8, s)
  else if slice r 208 16 != s.psetDigest.take 16 then (4, s)
  else if slice r 16 64 != shake256 64 x.input then (1, s)
  else
    let set := s.rehEntries x.count x.input
    let s1 : State := { s with cue := { s.cue with number := n, sealedSet := set, delta := [], flags := 0 } }
    let s2 := (s1.rehItems ends 0 set).sweep 0
    let d := s2.cue.digests
    let flags := s2.cue.flags
    let s3 : State := { s2 with pbook := s.pbook, cue := { s2.cue with phase := .none, sealedSet := [], release := [] } }
    if slice r 80 64 != d.out then (2, s3)
    else if slice r 144 64 != d.delta ∨ field r 15 1 ≠ flags then (3, s3)
    else (0, ((s3.setWide rehPage 0x040 n).addReg rehPage 0x054 1))

/-- What a rehearsal ends with: the result and the place of the difference. -/
structure RehEnd where
  result : Nat
  diff : Nat
  deriving DecidableEq, Repr

/-- The records of the stream are taken in order until a difference, a pause, or cue `e` (R363, R364). `runs` are the ends of the items
of the cues to come. -/
def State.rehTake (s : State) (e : Nat) : List RehItem → List (List ItemFin) → RehEnd × State
  | [], _ => (if e ≤ s.cue.number then { result := 0, diff := 0 } else { result := 8, diff := s.cue.number + 1 }, s)
  | x :: rest, runs =>
    if e ≤ s.cue.number then ({ result := 0, diff := 0 }, s)
    else if x.fault ≠ 0 then ({ result := x.fault, diff := x.diff }, s)
    else
      let num := field x.bytes 8 6
      match field x.bytes 14 1 with
      | 2 => if slice x.bytes 80 64 = fit 64 s.libDigest then s.rehTake e rest runs else ({ result := 9, diff := num }, s)
      | 3 =>
        let (res, s1) := s.rehCue x (runs.headD [])
        if res = 0 then s1.rehTake e rest (runs.drop 1) else ({ result := res, diff := field x.bytes 0 8 }, s1)
      | 4 => ({ result := 7, diff := num },
          { s with rehearse := { s.rehearse with paused := some x.bytes, items := rest } })
      | k => if k = 1 ∨ k = 5 ∨ k = 6 then s.rehTake e rest runs else ({ result := 8, diff := num }, s)

/-- A rehearsal's registers, events and completion (R364, R365). -/
def State.rehAnswer (s : State) (sqe : List Byte) (r : RehEnd) : State :=
  let s1 := ((s.setReg rehPage 0x048 (BitVec.ofNat 32 r.result)).setWide rehPage 0x04C r.diff).evt rehPage
    (if r.result = 0 then 0 else if r.result = 7 then 2 else 1)
  s1.adminCqe sqe 0 (s.wideAt rehPage 0x040) (Word.leBytes 4 r.result ++ List.replicate 4 0 ++ Word.leBytes 8 r.diff)

/-- Whether REHEARSE is refused: START_CUES was issued, or a wing partner is accepted (R361). -/
def State.rehRefused (s : State) : Bool :=
  s.cue.startedEver || s.cue.starting || s.pbook.alloc || (List.range 4).any (fun p => s.wingLive p)

/-- REHEARSE with PREPARE (R362). -/
def State.rehPrepare (s : State) (sqe : List Byte) : State :=
  let base := field sqe 48 8
  if s.rehRefused || s.rehearse.prepared || s.tableList.any (fun t => decide (t.2.nextRow ≠ 0)) then
    s.adminCqe sqe 0x0207 s.cue.committed []
  else
    let s1 : State := { s with cue := { s.cue with number := base, committed := base },
                               rehearse := { s.rehearse with prepared := true, done := true } }
    ((s1.setWide commitPage 0x040 base).setWide rehPage 0x040 base).adminCqe sqe 0 base []

/-- REHEARSE with a stream, or with RESUME: an ADMIN record at which it paused is compared with the change made since (R363, Assumption 22).
The runs that its row brought are used up. -/
def State.rehRun (s : State) (sqe data : List Byte) : State :=
  let runs := s.rehearse.runs.headD []
  let e := field sqe 40 8
  let s0 := ({ s with rehearse := { s.rehearse with runs := s.rehearse.runs.drop 1 } }).setReg rehPage 0x054 0
  if s.rehRefused then s0.adminCqe sqe 0x0207 s.cue.committed []
  else if Word.bit 0 (field sqe 32 1) then
    match s.rehearse.paused with
    | none => s0.adminCqe sqe 0x0207 s.cue.committed []
    | some r =>
      let same := match s.pbook.due.getLast? with
        | some b => fit 64 b.a == slice r 16 64 && fit 64 b.b == slice r 80 64
        | none => false
      if !same then s0.rehAnswer sqe { result := 7, diff := field r 8 6 }
      else
        let s1 : State := { s0 with rehearse := { s0.rehearse with paused := none, items := [] } }
        let (x, s2) := s1.rehTake e s.rehearse.items runs
        s2.rehAnswer sqe x
  else
    let items := rehStream (s.rehKeys data) none (data.length + 1) data
    let s1 : State := { s0 with rehearse := { s0.rehearse with done := true, paused := none, items := [] } }
    let (x, s2) := s1.rehTake e items runs
    s2.rehAnswer sqe x

end Sys2Proof.Machine
end

