-- ==== Sys2Proof/Machine/Admin.lean ====
section
/-!
DEFINITION. Admin commands (R36, R110–R115, R171–R174, R312–R315, R335, R342, R347, R361–R364, R407, R408, R415–R418, R450, R452): how they are
fetched and run one at a time, the changes they make, and their completions.
-/
namespace Sys2Proof.Machine
open Sys2Proof

/-! ## When a change takes effect -/

/-- Whether no cue runs that a change could divide, and no journal-lag hold makes changes wait: a change takes effect once its
checks complete (R64, R172, R356, R489). -/
def State.changeNow (s : State) : Bool := s.mdl.curtain || (s.cue.unit != 2 && !(s.cue.holdLag && !s.cue.holdCmd))

/-- The last committed cue, or behind the curtain the abandoned one: CUE of an admin command without a change (R415, R489). -/
def State.plainCue (s : State) : Nat := if s.mdl.curtain then s.mdl.faultCue else s.cue.committed

/-- CUE of a change that takes effect at once: the first cue that will be sealed with it (R415). -/
def State.soonCue (s : State) : Nat := if s.mdl.curtain then s.mdl.faultCue else s.nextCue

/-- Whether this module is a lead with its understudy in lockstep or catching up, which receives every change (R452, R462). -/
def State.sendsChanges (s : State) : Bool := s.role == 1 && (s.redundant || s.company.catchS.isSome) && !s.pairLinks.isEmpty

/-- Opcodes whose changes are forwarded to an understudy (R36, R452). -/
def forwarded (opc : Nat) : Bool := [0x10, 0x11, 0x18, 0x19, 0x1A, 0x1C, 0x30].contains opc

/-- The CHANGE frames of a command: its submission entry, then its data (R439, R452, Assumption 21). -/
def changeFrames (ident opc total : Nat) : Nat → Nat → List Byte → List (List Byte)
  | 0, _, _ => []
  | n + 1, off, bs =>
    (Word.leBytes 8 ident ++ Word.leBytes 2 opc ++ [0, 0] ++ Word.leBytes 4 off ++ Word.leBytes 4 total ++ Word.leBytes 4 0 ++
      bs.take 4072) :: (if bs.length ≤ 4072 then [] else changeFrames ident opc total n (off + 4072) (bs.drop 4072))

/-- A change is sent on the pair links (R452). -/
def State.sendChange (s : State) (ident : Nat) (sqe data : List Byte) : State :=
  let bs := sqe ++ data
  (changeFrames ident (field sqe 0 2) bs.length (bs.length / 4072 + 1) 0 bs).foldl (fun t f => t.wingSendAll s.pairLinks 0x30 4 f) s

/-- A START_CUES whose cues begin is sent as a change of its own, with the parameters of its START record as data, and the cue names it
(R352, R451, Assumption 135). -/
def State.sendStart (s : State) : State :=
  if s.cue.starting && s.sendsChanges then
    let t : State := { s.sendChange s.changeSeq (fit 64 [0x20#8]) s.startRec.a with changeSeq := s.changeSeq + 1 }
    { t with cue := { t.cue with changeIds := t.cue.changeIds ++ [s.changeSeq] } }
  else s

/-! ## The effect of a change -/

/-- The option of a command in its ADMIN record (R351). -/
def recOption (sqe : List Byte) : Nat :=
  if [0x10, 0x18, 0x39].contains (field sqe 0 2) then field sqe 32 1 % 2 else 0

/-- Jobs whose image holds a handle that covers an array of a target end as at an eviction (R314). -/
def State.camJobs (s : State) (target cue : Nat) : State :=
  (s.jobs.filter (fun j => j.state != .ended && j.pipe.cams.any (fun h =>
    (handleArrays h).any (fun a => (handleArrays target).contains a)))).foldl (fun t j =>
      (t.jobStops j 0x0201 cue).addReg strikePage 0x060 1) s

/-- A search array change takes effect: its jobs end and it is recorded (R312–R314, R351). A DELTA is written now. -/
def State.camEffect (s : State) (c : CamPending) (n jobCue : Nat) : State :=
  let s1 := if c.full then s else s.camWrite c.target false c.mode c.lines
  ((s1.camChanged c.target n).camJobs c.target jobCue).recordAdmin (adminRec 0x1C c.target 0 c.digest [])

/-- A table that survived a reset returns with its state (R115); with the first one the duplicate window returns (R459). -/
def State.reattach (s : State) (d : TableDef) : State :=
  let x := Sparse.get (fun _ => none) s.detached d.num
  let s1 := { s.setTable d.num x with detached := Sparse.set (fun _ => none) s.detached d.num none }
  if s1.dupKept.isEmpty then s1 else
    let all := s1.dupKept ++ s1.dup
    { s1 with dup := all.drop (all.length - 2 ^ 20), dupKept := [] }

/-- A change to pipelines, tables, keys or firmware takes effect, and is recorded (R36, R110, R113–R115, R173, R174, R335, R342, R351).
`n` is the first cue sealed with it. -/
def State.makeChange (s : State) (sqe : List Byte) (c : Change) (n jobCue : Nat) : State :=
  let rec_ := fun (t : State) (subject : Nat) (b k : List Byte) =>
    t.recordAdmin (adminRec (field sqe 0 2) subject (recOption sqe) b k)
  match c with
  | .load p => rec_ (s.placePipe p) p.id p.digest p.keyHash
  | .unload id =>
    let old := s.pipe id
    rec_ { s with pipes := s.pipes.filter (fun p => decide (p.id ≠ id)) } id ((old.map Pipe.digest).getD []) ((old.map Pipe.keyHash).getD [])
  | .attach d re =>
    let s1 := if re then s.reattach d
      else { s.setTable d.num (some (Table.empty d)) with detached := Sparse.set (fun _ => none) s.detached d.num none }
    rec_ s1 d.num (shake256 64 d.bytes) []
  | .detach t => rec_ (s.setTable t none) t [] []
  | .tableLoad t x dig => rec_ (s.setTable t (some (x.begun n))) t dig []
  | .camFull x => s.camEffect x n jobCue
  | .keyImport slot k _ dig => rec_ (s.keyApply slot k) slot dig []
  | .fwActivate commit =>
    let dig := if commit then [] else match s.fwCheck with
      | .ok d => d
      | .error _ => []
    rec_ (s.fwApply commit) 0 dig []
  | .snapshot _ _ _ => s
  | .deleteSq _ => s
  | .hold => s

/-! ## Queues (R408) -/

/-- A submission queue is deleted: its entries not yet sealed and its jobs are gone, and its sealed entries complete (R187, R408, R419). -/
def State.dropSq (s : State) (q : Nat) : State :=
  let s1 : State := { s with cue := s.cue.keepOnly (fun e => decide (e.sq ≠ q)) }
  let s2 := s1.jobsDrop (fun j => j.sq == q)
  let p := s2.qp q
  s2.setQp q { p with sqOn := false, rung := false, paused := false, fetched := [], reserved := p.held.length }

/-- A table whose rows a cue has written since its load was checked is no longer empty, and the load is refused (R112, Assumption 21). -/
def State.loadLate (s : State) (c : Change) : Bool := match c with
  | .tableLoad t _ _ => match s.table t with
    | some x => decide (x.nextRow ≠ 0)
    | none => true
  | _ => false

/-- A commanded hold is in force: cues stop, the act in progress closes, and HELD is raised (R29, R63). -/
def State.enterHold (s : State) (cmd : Bool) : State :=
  let c := s.cue
  if c.unit = 3 then { s with cue := { c with holdCmd := c.holdCmd || cmd, holdLag := c.holdLag || !cmd, holdReq := c.holdReq && !cmd } }
  else
    ({ s with cue := { c with unit := 3, phase := .none, sealedSet := [], holdCmd := cmd, holdLag := !cmd, holdReq := c.holdReq && !cmd,
                              actBreak := true } }.closeAct).evt cuePage 2

/-- The identifier of a change that the next SEAL and DELTA name (R439, R451). -/
def State.nameChange (s : State) (ident : Option Nat) : State :=
  { s with cue := { s.cue with changeIds := s.cue.changeIds ++ ident.toList } }

/-- The command that waits takes effect: at a start instant that seals cue `n`, or at once where no cue runs. A SNAPSHOT_EXPORT pins the
last committed cue and goes on (R36, R63, R408, R416). -/
def State.changeDue (s : State) (w : AdminWait) (n jobCue : Nat) : State :=
  let s1 := ({ s with adminWait := none } : State).nameChange w.ident
  match w.change with
  | .snapshot t addr len =>
    { s1.pin .snapshot s.cue.committed with snapExport := some (w.sqe, t, addr, len, s.cue.committed) }
  | .deleteSq q => (s1.dropSq q).adminCqe w.sqe 0 n []
  | .hold => s1.adminCqe w.sqe 0 s.plainCue []
  | c => if s.loadLate c then s1.adminCqe w.sqe 0x010E s.plainCue (Word.leBytes 4 32)
      else (s1.makeChange w.sqe c n jobCue).adminCqe w.sqe 0 n []

/-- Whether a waiting command may take effect: the understudy has answered, and an array write has completed (R312, R452). -/
def AdminWait.ripe (w : AdminWait) : Bool := w.ok && (match w.change with
  | .camFull c => c.written
  | _ => true)

/-- DELTA loads take effect at a start instant: for each array the oldest, in submission order; at once, all of them (R313). -/
def State.deltasDue (s : State) (n jobCue : Nat) (all : Bool) : List Nat → List CamPending → State
  | _, [] => { s with camDeltas := [] }
  | used, c :: r =>
    let arrays := handleArrays c.target
    if c.ok && !arrays.any (fun a => used.contains a) then
      (((s.nameChange c.ident).camEffect c n jobCue).adminCqe c.sqe 0 n []).deltasDue n jobCue all (if all then used else used ++ arrays) r
    else
      let t := s.deltasDue n jobCue all (used ++ arrays) r
      { t with camDeltas := c :: t.camDeltas }

/-- What waits takes effect where no cue runs (R64, R172, R313). -/
def State.changesNow (s : State) : State :=
  if !s.changeNow then s
  else
    let s1 := match s.adminWait with
      | some w => match w.change with
        | .hold => s
        | _ => if w.ripe then s.changeDue w s.soonCue s.cueNow else s
      | none => s
    s1.deltasDue s1.soonCue s1.cueNow true [] s1.camDeltas

/-- A change whose checks are complete waits for its start instant, after it was sent to an understudy; where no cue runs it takes
effect now. DELTA loads wait beside the commands behind them (R36, R313, R452). -/
def State.changeBegins (s : State) (sqe data : List Byte) (c : Change) : State :=
  let send := s.sendsChanges && forwarded (field sqe 0 2)
  let s1 := if send then { s.sendChange s.changeSeq sqe data with changeSeq := s.changeSeq + 1 } else s
  let ident := if send then some s.changeSeq else none
  let ok := !(send && (s.redundant || s.company.lockAt.isSome))
  let plain : State := { s1 with adminWait := some { sqe := sqe, change := c, ident := ident, ok := ok } }
  (match c with
    | .camFull x =>
      let y := { x with ident := ident, ok := ok }
      if x.full then { s1 with adminWait := some { sqe := sqe, change := .camFull y, ident := ident, ok := ok } }
      else { s1 with camDeltas := s1.camDeltas ++ [y] }
    | .fwActivate false => { plain with flash := { plain.flash with busy := true } }
    | .hold => { plain with cue := { plain.cue with holdReq := true, starting := false } }
    | _ => plain).changesNow

/-- HOLD_CUES, or a write of CUE.CTL.EN = 0: while cues run the hold begins at the next start instant; in a journal-lag hold it is
commanded too from now on (R63, R72). -/
def State.holdCommand (s : State) : State :=
  if s.cue.unit = 2 then { s with cue := { s.cue with holdReq := true, starting := false } }
  else ({ s with cue := { s.cue with starting := false, holdCmd := decide (s.cue.unit = 3) } } : State).changesNow

/-! ## Commands without a change -/

/-- Bytes 0–3 of a CQE's RESULT field for a refusal. -/
def State.refuse (s : State) (sqe : List Byte) (r : Refuse) : State := s.adminCqe sqe r.status s.plainCue r.info

/-- CREATE_CQ (R408, R416). -/
def State.createCq (s : State) (b : List Byte) : State :=
  let q := field b 32 2
  let log := field b 34 1
  match fieldsBad [(outOf 1 1023 q, 32), (outOf 4 16 log, 34), (outOf 2 2047 (field b 36 2), 36),
      (rangeBad (field b 40 8) 4096 (32 * 2 ^ min log 16), 40), (rangeBad (field b 48 8) 256 256, 48)] with
  | some r => s.refuse b r
  | none =>
    let isJ := (s.journal.map JournalQ.qid) == some q
    if (s.qp q).cqOn ∨ isJ = true then s.refuse b { status := 0x0208, info := [] }
    else
      let s1 := s.setQp q { QPair.none with cqOn := true, cqLog := log, cqAddr := field b 40 8, idxAddr := field b 48 8,
                                            vector := field b 36 2 }
      ((s1.resetPage (qctxPage q)).pokeHost (field b 48 8 + 0x80) (Word.leBytes 4 0)).adminCqe b 0 s.plainCue []

/-- CREATE_SQ (R408, R416). -/
def State.createSq (s : State) (b : List Byte) : State :=
  let q := field b 32 2
  let log := field b 34 1
  let win := field b 35 1
  let stride := field b 36 4
  match fieldsBad [(outOf 1 1023 q, 32), (outOf 4 16 log, 34), (outOf 12 44 win, 35),
      (stride != 0 && (outOf 64 16384 stride || stride % 64 != 0), 36),
      (rangeBad (field b 40 8) 4096 (64 * 2 ^ min log 16), 40), (rangeBad (field b 48 8) 64 (stride * 2 ^ min log 16), 48),
      (rangeBad (field b 56 8) (2 ^ min win 44) (2 ^ min win 44), 56)] with
  | some r => s.refuse b r
  | none =>
    let p := s.qp q
    if !p.cqOn then s.refuse b { status := 0x0209, info := [] }
    else if p.sqOn then s.refuse b { status := 0x0208, info := [] }
    else
      let prod := s.hostValAt p.idxAddr 4
      (s.setQp q { p with sqOn := true, sqLog := log, winLog := win, resStride := stride, sqAddr := field b 40 8, resBase := field b 48 8,
                          winBase := field b 56 8, sqCons := prod, sqProd := prod, rung := false }).adminCqe b 0 s.plainCue []

/-- DELETE_CQ, of a completion queue or of the journal queue (R408). -/
def State.deleteCq (s : State) (b : List Byte) : State :=
  let q := field b 32 2
  let p := s.qp q
  if outOf 1 1023 q then s.refuse b (adminField 32)
  else if (s.journal.map JournalQ.qid) = some q then
    ({ s with journal := none, exports := [] } : State).adminCqe b 0 s.plainCue []
  else if !p.cqOn then s.refuse b { status := 0x0209, info := [] }
  else if p.sqOn ∨ p.held ≠ [] then s.refuse b { status := 0x020A, info := [] }
  else (s.setQp q QPair.none).adminCqe b 0 s.plainCue []

/-- CREATE_JOURNAL_Q (R408, R416, R418). -/
def State.createJournal (s : State) (b : List Byte) : State :=
  let q := field b 32 2
  let log := field b 34 1
  let len := field b 16 4
  match fieldsBad [(len % 2 ^ 20 != 0 || decide (len < 2 ^ 26), 16), (outOf 1 1023 q, 32), (outOf 4 16 log, 34),
      (outOf 0 1 (field b 35 1), 35), (outOf 2 2047 (field b 36 2), 36), (rangeBad (field b 40 8) 4096 (32 * 2 ^ min log 16), 40),
      (rangeBad (field b 48 8) 256 256, 48)] with
  | some r => s.refuse b r
  | none =>
    if s.journal.isSome ∨ (s.qp q).cqOn then s.refuse b { status := 0x0208, info := [] }
    else
      let j : JournalQ := { qid := q, log := log, ring := field b 40 8, idxAddr := field b 48 8, vector := field b 36 2,
                            bufAddr := field b 24 8, bufLen := len, prod := 0, cons := 0, bufHead := 0, bufFree := 0, ents := [],
                            rung := false }
      let s1 : State := { s with journal := some j, journalCodec := field b 35 1 }
      (({ s1 with exports := s1.exportBacklog }).pokeHost (field b 48 8 + 0x80) (Word.leBytes 4 0)).adminCqe b 0 s.plainCue []

/-- GET_FEATURE (R417). -/
def State.getFeature (s : State) (b : List Byte) : State :=
  let v := fun n => s.adminCqe b 0 s.plainCue (Word.leBytes 8 n)
  match field b 32 2 with
  | 0x0001 => v s.poolGib
  | 0x0002 => v (2 ^ 20)
  | 0x0010 => v s.journalCodec
  | _ => s.refuse b (adminField 32)

/-- SET_FEATURE (R417). -/
def State.setFeature (s : State) (b : List Byte) : State :=
  let v := field b 40 8
  match field b 32 2 with
  | 0x0001 => if outOf 1 64 v then s.refuse b (adminField 40) else ({ s with poolGib := v } : State).adminCqe b 0 s.plainCue []
  | 0x0010 => if outOf 0 1 v then s.refuse b (adminField 40) else ({ s with journalCodec := v } : State).adminCqe b 0 s.plainCue []
  | _ => s.refuse b (adminField 32)

/-- START_CUES (R56, R73): refused, or complete with the number of the first cue. -/
def State.startCommand (s : State) (b : List Byte) : State :=
  match s.startCheck with
  | some r => s.refuse b r
  | none =>
    let n := s.nextCue
    s.startCues.adminCqe b 0 n []

/-- ATTEST (R347): the report and its signature go to the buffer. A buffer too short for them receives nothing; without a unit that can
sign, the command ends with a status that the spec does not give (Assumption 3). -/
def State.attest (s : State) (b : List Byte) : State :=
  let body := s.attestBody (slice b 32 32)
  if field b 16 4 < body.length + 1464 then s.refuse b { status := 0x0109, info := [] }
  else match s.idSign body lsuAll with
    | (some sig, t) => (t.pokeHost (field b 24 8) (body ++ sigField sig)).adminCqe b 0 s.plainCue
        (Word.leBytes 4 (body.length + 1464))
    | (none, t) =>
      let (v, u) := t.freeW
      u.adminCqe b (v.toNat % 65536) s.plainCue []

/-- FW_DOWNLOAD (R342). -/
def State.fwDownload (s : State) (b data : List Byte) : State :=
  let off := field b 40 8
  if 2 ^ 26 < off + data.length then s.refuse b (adminField 40)
  else (s.fwWrite off data).adminCqe b 0 s.plainCue []

/-! ## Running commands -/

/-- Commands that run behind the curtain (R489). -/
def curtainOps : List Nat := [0x01, 0x02, 0x03, 0x04, 0x05, 0x08, 0x30, 0x31, 0x38, 0x39]

/-- Commands that only a lead or a solo module takes (R450). -/
def leadOps : List Nat := [0x10, 0x11, 0x18, 0x19, 0x1A, 0x1C, 0x30, 0x20, 0x21, 0x22, 0x09]

/-- Whether this module is an understudy, is catching up or has lost step (R450). -/
def State.isFollower (s : State) : Bool := s.role == 2 || s.role == 3 || s.role == 4

/-- One admin command runs: its checks, and its effect or the wait for it (R415, R416). -/
def State.adminOne (s : State) (x : AdminEntry) : State :=
  let b := x.sqe
  let opc := field b 0 2
  if s.mdl.curtain && !curtainOps.contains opc then s.refuse b { status := 0x0300, info := [] }
  else if s.isFollower && leadOps.contains opc then s.refuse b { status := 0x0305, info := [] }
  else match opc with
    | 0x01 => s.createCq b
    | 0x02 => s.createSq b
    | 0x04 => s.deleteCq b
    | 0x05 => s.createJournal b
    | 0x08 => s.getFeature b
    | 0x09 => s.setFeature b
    | 0x20 => s.startCommand b
    | 0x22 => if Word.bit 1 (field b 32 1) then s.rehPrepare b else s.rehRun b x.data
    | 0x31 => s.attest b
    | 0x38 => s.fwDownload b x.data
    | _ => match s.changeOf b x.data with
      | some (.ok .hold) =>
        if s.cue.unit = 2 then s.changeBegins b x.data .hold
        else s.holdCommand.adminCqe b 0 s.plainCue []
      | some (.ok c) => s.changeBegins b x.data c
      | some (.error r) =>
        let s1 := if opc = 0x30 then s.keyRefused else if opc = 0x39 then { s with fresh := s.fresh + 1 } else s
        s1.refuse b r
      | none => s

/-- Whether a command is in progress, so that those behind it wait (R415). -/
def State.adminBusy (s : State) : Bool := s.adminWait.isSome || s.snapExport.isSome || s.evictedExport.isSome

/-- Commands run in queue order until one waits (R415). -/
def State.adminRun (s : State) : Nat → State
  | 0 => s
  | n + 1 => match s.adminBacklog with
    | [] => s
    | x :: r => if s.adminBusy then s else (({ s with adminBacklog := r } : State).adminOne x).adminRun n

/-- Every command that can run, runs. -/
def State.adminGo (s : State) : State := s.adminRun s.adminBacklog.length

/-! ## Fetching (R396, R406, R407, R419, R421, R422) -/

/-- The data of an admin entry: the bytes that DECL_LEN or IMAGE_LEN names; output buffers are not read (R416). -/
def State.adminData (s : State) (b : List Byte) : List Byte :=
  match field b 0 2 with
  | 0x1A => s.hostBytesAt (field b 24 8) (field b 40 8)
  | 0x1B => []
  | 0x31 => []
  | 0x05 => []
  | _ => s.hostBytesAt (field b 24 8) (field b 16 4)

/-- The admin window (R407). -/
def State.aqWindow (s : State) : Nat × Nat := ((s.qp 0).winBase, (s.qp 0).winLog)

/-- Admin entries are fetched one by one, and run; none is fetched while the admin completion ring is full, and a malformed one halts
the module (R419, R421, R422). -/
def State.adminFetch (s : State) : Nat → State
  | 0 => s
  | n + 1 =>
    let p := s.qp 0
    if 2 ^ p.cqLog ≤ ringDist p.cqProd p.cqCons then s.setQp 0 { p with rung := true }
    else
      let b := s.hostBytesAt (p.sqAddr + 64 * (p.sqCons % 2 ^ p.sqLog)) 64
      match adminFault p.winBase p.winLog b with
      | some c => s.houseHalt c 0 p.sqCons
      | none =>
        let x : AdminEntry := { sqe := b, data := s.adminData b }
        let cons := (p.sqCons + 1) % 2 ^ 32
        let s1 := (s.setQp 0 { p with sqCons := cons }).addReg qengPage 0x074 1
        let s2 : State := { s1 with adminBacklog := s1.adminBacklog ++ [x] }
        ((s2.pokeHost (p.idxAddr + 0x40) (Word.leBytes 4 cons)).adminGo).adminFetch n

/-- The admin submission doorbell is served (R406). -/
def State.adminServe (s : State) : State :=
  let p := s.qp 0
  if !p.sqOn then s
  else if !s.hostOk then s.setQp 0 { p with rung := true }
  else
    let prod := s.hostValAt p.idxAddr 4
    let d := ringDist prod p.sqCons
    let s1 := s.setQp 0 { p with sqProd := prod, rung := false }
    if 2 ^ p.sqLog < d then s1.houseHalt 4 0 prod else s1.adminFetch d

/-- The admin completion doorbell is served (R406, R419). -/
def State.adminCqServe (s : State) : State :=
  let p := s.qp 0
  if !p.cqOn then s
  else if !s.hostOk then s.setQp 0 { p with cqRung := true }
  else
    let s1 := s.readCons 0
    if s1.mdl.halt then s1
    else
      let (s2, wrote) := s1.flushCq 0
      let s3 := if wrote then s2.raiseVector 0 else s2
      if (s3.qp 0).rung then s3.adminServe else s3

/-- Everything recorded while the host could not be reached is served, the admin pair first (R398, R403, R427, R481). -/
def State.hostBack (s : State) : State :=
  if !s.hostOk then s
  else
    let s1 := if (s.qp 0).cqRung then s.adminCqServe else
      let (t, wrote) := s.flushCq 0
      if wrote then t.raiseVector 0 else t
    let s2 := if (s1.qp 0).rung then s1.adminServe else s1
    s2.serveRung

/-- A write of the admin SQ doorbell (R396). -/
def State.adminDoorbell (s : State) : State :=
  if !s.hostReaches then s else if !(s.qp 0).sqOn then s.stray else s.adminServe

/-- The driver places an admin entry in ring 0 and rings its doorbell. `opt` are bits 0 and 1 of byte 32, for a command with options. -/
def State.adminRow (s : State) (opc : Nat) (opt : Option Nat) (e : Sqe) : State :=
  let args := match opt with
    | some o => match fit 32 e.args with
      | a :: r => BitVec.ofNat 8 (a.toNat / 4 * 4 + o) :: r
      | [] => []
    | none => e.args
  (s.placeEntry 0 opc { e with args := args }).adminDoorbell

/-- As `adminRow`, for a command with one option bit. -/
def State.adminRow1 (s : State) (opc opt : Nat) (e : Sqe) : State :=
  match fit 32 e.args with
  | a :: r => (s.placeEntry 0 opc { e with args := BitVec.ofNat 8 (a.toNat / 2 * 2 + opt) :: r }).adminDoorbell
  | [] => s

/-! ## AQ_ENABLE, and what completes later -/

/-- AQ_CTL.EN is written 1: the pair starts with SQ_CONS = SQ_PROD as read, and CQ_PROD = 0 (R407, R433). -/
def State.aqEnable (s : State) (log2 : Nat) : State :=
  let pg := qengPage
  if s.fld pg 0x040 31 31 = 1 then s.err pg 0x0101 0x040 0 0
  else if outOf 4 16 log2 then s.err pg 0x0100 0x040 0 0
  else
    let s1 := s.setReg pg 0x040 (BitVec.ofNat 32 (2 ^ 31 + log2))
    let idx := s.pageAddr pg 0x054 0x058
    let p : QPair := { QPair.none with
      sqOn := true, cqOn := true, sqLog := log2, cqLog := log2, sqAddr := s.pageAddr pg 0x044 0x048, cqAddr := s.pageAddr pg 0x04C 0x050,
      idxAddr := idx, winBase := s.pageAddr pg 0x05C 0x060, winLog := s.fld pg 0x064 5 0 }
    let prod := s.hostValAt idx 4
    let s2 := (s1.resetPage (qctxPage 0)).setQp 0 { p with sqCons := prod, sqProd := prod }
    s2.pokeHost (idx + 0x80) (Word.leBytes 4 0)

/-- The array write of a FULL image completes (R312). -/
def State.camFullWritten (s : State) (a : Nat) : State :=
  match s.adminWait with
  | some w => match w.change with
    | .camFull c =>
      if c.written ∨ !(handleArrays c.target).contains a then s
      else
        let s1 := s.camWrite c.target true c.mode c.lines
        ({ s1 with adminWait := some { w with change := .camFull { c with written := true } } } : State).changesNow.adminGo
    | _ => s
  | none => s

/-- A SNAPSHOT_EXPORT's image is written with its signature block (R111, R416). A buffer too small receives undefined bytes. -/
def State.snapshotDone (s : State) : State :=
  match s.snapExport with
  | none => s
  | some (sqe, t, addr, len, snap) =>
    let s0 := { s.unpin .snapshot with snapExport := none }
    match s.table t with
    | none => s
    | some x =>
      if !s.hostReachable then s
      else
        let body := x.snapshotBody snap
        let total := body.length + 1600
        if len < total then
          let (bs, s1) := s0.freeBytes len
          ((s1.pokeHost addr bs).adminCqe sqe 0x0109 snap []).adminGo
        else match s0.idSign (ascii "STXTBLI1" ++ shake256 64 body) lsuAll with
          | (some sig, u) =>
            ((u.pokeHost addr (body ++ sigBlockBytes Config.identityPub body sig)).adminCqe sqe 0 snap (Word.leBytes 8 total)).adminGo
          | (none, u) =>
            let (v, u1) := u.freeW
            (u1.adminCqe sqe (v.toNat % 65536) snap []).adminGo

end Sys2Proof.Machine
end

