-- ==== Sys2Proof/Machine/Curtain.lean ====
section
/-!
DEFINITION. The safety curtain (R485–R491): what a unit fault does, in its order.
-/
namespace Sys2Proof.Machine
open Sys2Proof

/-- Standby ends at once, whatever part of it is in progress (R484). -/
def State.endStandby (s : State) : State :=
  let m := s.mdl
  if m.st == MState.standby || m.standbyOp.isSome then
    ({ s with mdl := { m with st := if m.st == MState.standby then m.before else m.st, standbyOp := none } }).setFld (pageOf .pwr 0) 0x040 0 0 0
  else s

/-- The admin commands that waited: those that run behind the curtain take effect, every other one completes with CURTAIN; the commands
behind them run (R488, R489). -/
def State.adminAtCurtain (s : State) : State :=
  let n := s.mdl.faultCue
  let stop := fun (t : State) (sqe : List Byte) => t.adminCqe sqe 0x0300 n []
  let s1 := match s.adminWait with
    | some w => match w.change with
      | .keyImport _ _ _ _ => s.changeDue w n n
      | .fwActivate _ => s.changeDue w n n
      | .deleteSq _ => s.changeDue w n n
      | _ => stop { s with adminWait := none } w.sqe
    | none => s
  let s2 := s1.camDeltas.foldl (fun t c => stop t c.sqe) s1
  let s3 := match s2.snapExport with
    | some x => stop (s2.unpin .snapshot) x.1
    | none => s2
  let s4 := match s3.evictedExport with
    | some q => stop s3 q
    | none => s3
  ({ s4 with camDeltas := [], snapExport := none, evictedExport := none } : State).adminGo

/-- A unit fault of a class in a block's page drops the safety curtain (R484, R487, R489, R491): the cue is abandoned and work stops, the CURTAIN
record is written and its act sealed, a lead yields, every open entry completes with CURTAIN, and vector 1 is raised. A second fault,
and a fault of a module that is off, booting or in recovery, has no such effect; of a boot only TRAIN_FAIL has (R15, R473). -/
def State.enterCurtain (s : State) (cls page : Nat) : State :=
  let m := s.mdl
  if m.curtain || m.st == .off || m.st == .recovery || (m.st == .boot && cls != 8) then s
  else
    let es := s.openEntries
    let n := s.cue.number
    let err := (s.reg page 0x020).toNat % 65536
    let s1 := s.endStandby.stopWork.showStop
    let s2 : State := { s1 with mdl := { s1.mdl with curtain := true, st := if m.st == .boot then .ready else s1.mdl.st } }
    let s3 := (s2.setReg modctlPage 0x044 (BitVec.ofNat 32 (page * 65536 + cls))).setReg modctlPage 0x048 (BitVec.ofNat 32 err)
    let s4 := (s3.recordStop 6 n (Word.leBytes 2 page ++ Word.leBytes 2 err ++ Word.leBytes 1 cls)).yieldLead 1
    let s5 : State := { s4 with qpairs := s4.qpairs.map (fun p =>
      (p.1, { p.2 with fetched := p.2.fetched.dropWhile (fun e => (ioFault p.2 e.sqe).isNone) })) }
    if m.halt then s5.evt modctlPage 1
    else ((s5.completeAll es 0x0300 n).evt modctlPage 1).adminAtCurtain

end Sys2Proof.Machine
end

