-- ==== Sys2Proof/Machine/AdminRows.lean ====
section
/-!
DEFINITION. The rows of the admin queue (R407, R415, R416): each is an entry that the driver places in ring 0 with its doorbell, and the admin
commands that complete later.
-/
namespace Sys2Proof.Machine
open Sys2Proof

/-- CREATE_CQ: a completion queue is created (R408). -/
def execCreateCq (e : Sqe) (s : State) : Host.Outcome State Fault Refusal := .next (s.adminRow 0x01 none e)

/-- CREATE_SQ: a submission queue is created (R408). -/
def execCreateSq (e : Sqe) (s : State) : Host.Outcome State Fault Refusal := .next (s.adminRow 0x02 none e)

/-- DELETE_SQ: a submission queue is deleted at a start instant (R408). -/
def execDeleteSq (e : Sqe) (s : State) : Host.Outcome State Fault Refusal := .next (s.adminRow 0x03 none e)

/-- DELETE_CQ: a completion queue is deleted (R408). -/
def execDeleteCq (e : Sqe) (s : State) : Host.Outcome State Fault Refusal := .next (s.adminRow 0x04 none e)

/-- CREATE_JOURNAL_Q: the journal queue is created (R408, R418). -/
def execCreateJournalQ (e : Sqe) (s : State) : Host.Outcome State Fault Refusal := .next (s.adminRow 0x05 none e)

/-- GET_FEATURE: a feature is read (R417). -/
def execGetFeature (e : Sqe) (s : State) : Host.Outcome State Fault Refusal := .next (s.adminRow 0x08 none e)

/-- SET_FEATURE: a feature is set (R417). -/
def execSetFeature (e : Sqe) (s : State) : Host.Outcome State Fault Refusal := .next (s.adminRow 0x09 none e)

/-- LOAD_PIPELINE: a pipeline image is checked and admitted (R171). -/
def execLoadPipeline (e : Sqe) (s : State) : Host.Outcome State Fault Refusal := .next (s.adminRow1 0x10 0 e)

/-- LOAD_PIPELINE_REPLACE: a pipeline image replaces the one under its PIPE_ID (R173). -/
def execLoadPipelineReplace (e : Sqe) (s : State) : Host.Outcome State Fault Refusal := .next (s.adminRow1 0x10 1 e)

/-- UNLOAD_PIPELINE: a pipeline is unloaded (R174). -/
def execUnloadPipeline (e : Sqe) (s : State) : Host.Outcome State Fault Refusal := .next (s.adminRow 0x11 none e)

/-- ATTACH_TABLE: an empty table is attached (R110). -/
def execAttachTable (e : Sqe) (s : State) : Host.Outcome State Fault Refusal := .next (s.adminRow1 0x18 0 e)

/-- ATTACH_TABLE_REATTACH: a table that survived a reset returns with its state (R115). -/
def execAttachTableReattach (e : Sqe) (s : State) : Host.Outcome State Fault Refusal := .next (s.adminRow1 0x18 1 e)

/-- DETACH_TABLE: a table is detached (R114). -/
def execDetachTable (e : Sqe) (s : State) : Host.Outcome State Fault Refusal := .next (s.adminRow 0x19 none e)

/-- TABLE_LOAD: a table image is loaded (R112). -/
def execTableLoad (e : Sqe) (s : State) : Host.Outcome State Fault Refusal := .next (s.adminRow 0x1A none e)

/-- SNAPSHOT_EXPORT: a snapshot of a table begins to be written (R111). -/
def execSnapshotExport (e : Sqe) (s : State) : Host.Outcome State Fault Refusal := .next (s.adminRow 0x1B none e)

/-- CAM_LOAD: a search array image is loaded (R312). -/
def execCamLoad (e : Sqe) (s : State) : Host.Outcome State Fault Refusal := .next (s.adminRow 0x1C none e)

/-- START_CUES: cues start (R73). -/
def execStartCues (e : Sqe) (s : State) : Host.Outcome State Fault Refusal := .next (s.adminRow 0x20 none e)

/-- HOLD_CUES: cues are held (R63). -/
def execHoldCues (e : Sqe) (s : State) : Host.Outcome State Fault Refusal := .next (s.adminRow 0x21 none e)

/-- REHEARSE_PREPARE: rehearsal is prepared (R361). -/
def execRehearsePrepare (e : Sqe) (s : State) : Host.Outcome State Fault Refusal := .next (s.adminRow 0x22 (some 2) e)

/-- KEY_IMPORT: a wrapped key is imported or a slot erased (R335). -/
def execKeyImport (e : Sqe) (s : State) : Host.Outcome State Fault Refusal := .next (s.adminRow 0x30 none e)

/-- ATTEST: an attestation report is written (R347). -/
def execAttest (e : Sqe) (s : State) : Host.Outcome State Fault Refusal := .next (s.adminRow 0x31 none e)

/-- FW_DOWNLOAD: a piece of a firmware image is stored (R342). -/
def execFwDownload (e : Sqe) (s : State) : Host.Outcome State Fault Refusal := .next (s.adminRow 0x38 none e)

/-- FW_ACTIVATE: the downloaded image is made the one for the next boot (R342). -/
def execFwActivate (e : Sqe) (s : State) : Host.Outcome State Fault Refusal := .next (s.adminRow1 0x39 0 e)

/-- FW_ACTIVATE_COMMIT_SVN: the running image's SVN is fused (R342). -/
def execFwActivateCommitSvn (e : Sqe) (s : State) : Host.Outcome State Fault Refusal := .next (s.adminRow1 0x39 1 e)

/-- REHEARSE: a recorded stream is rehearsed; `runs` is what the items of its cues end with (R361–R364). -/
def execRehearse (e : Sqe) (runs : List (List ItemFin)) (s : State) : Host.Outcome State Fault Refusal :=
  .next (({ s with rehearse := { s.rehearse with runs := if (s.qp 0).sqOn then s.rehearse.runs ++ [runs] else s.rehearse.runs } } : State).adminRow
    0x22 (some 0) e)

/-- REHEARSE_RESUME: a paused rehearsal goes on; `runs` is what the items of its cues end with (R361–R364). -/
def execRehearseResume (e : Sqe) (runs : List (List ItemFin)) (s : State) : Host.Outcome State Fault Refusal :=
  .next (({ s with rehearse := { s.rehearse with runs := if (s.qp 0).sqOn then s.rehearse.runs ++ [runs] else s.rehearse.runs } } : State).adminRow
    0x22 (some 1) e)

/-- AQ_ENABLE: AQ_CTL.EN is written 1 and the admin queue begins (R407). -/
def execAqEnable (log2Depth : BitVec 5) (s : State) : Host.Outcome State Fault Refusal := .next (s.aqEnable log2Depth.toNat)

/-- CAM_FULL_WRITE_DONE: the array write of a FULL image completes (R312). -/
def execCamFullWriteDone (a : Fin 2) (s : State) : Host.Outcome State Fault Refusal := .next (s.camFullWritten a.val)

/-- SNAPSHOT_EXPORT_DONE: the snapshot's image is written (R111). -/
def execSnapshotExportDone (s : State) : Host.Outcome State Fault Refusal := .next s.snapshotDone

end Sys2Proof.Machine
end

