-- ==== Sys2Proof/Machine/Hep.lean ====
section
/-!
DEFINITION. The host endpoint as the host and the link act on it (R395, R397, R398, R401, R403, R425–R428, R430, R432): containment and its
release, the inbound window, and the function's configuration.
-/
namespace Sys2Proof.Machine
open Sys2Proof

/-- The configuration space, the BARs and the MSI-X table at their reset values (R426, R430). -/
def Hep.configReset (h : Hep) : Hep :=
  { h with bme := false, d0 := true, msixEn := false, msixMask := false, unmasked := [], pba := [], maxTags := 32 }

/-- Pending MSI-X messages whose vectors may now be sent are sent (R401). -/
def State.msixFlush (s : State) : State :=
  let h := s.hep
  if h.canSend && h.msixEn && !h.msixMask then
    { s with hep := { h with sent := h.sent ++ h.pba.filter (fun v => h.unmasked.contains v),
                             pba := h.pba.filter (fun v => !h.unmasked.contains v) } }
  else s

/-- The host can be reached again: what was recorded is served, and pending messages leave (R398, R401, R403). -/
def State.hostReturns (s : State) : State := s.hostBack.msixFlush

/-- The HEP freezes, on an uncorrectable error with its AER status or on a link-down, which also resets configuration space (R425, R426). A cause
that comes while it is frozen is added to CAUSE (the HEP page). -/
def State.hepFreeze (s : State) (linkDown : Bool) (aer : Nat) : State :=
  if s.mdl.st = .off then s
  else
    let pg := hepPage
    let new := (if !linkDown || aer ≠ 0 then 1 else 0) + (if linkDown then 2 else 0)
    let cause := if s.hep.frozen then Nat.lor (s.fld pg 0x044 1 0) new else new
    let s1 := (s.setFld pg 0x044 1 0 cause).err pg 0x0103 aer 0 0
    let s2 := if s.hep.frozen then s1 else (s1.addReg pg 0x050 1).evt pg 0
    let s3 : State := { s2 with hep := { s2.hep with frozen := true } }
    if linkDown then ({ s3 with hep := { s3.hep.configReset with linkUp := false } } : State).evt pg 3 else s3

/-- CONTAIN.RELEASE (R427): every doorbell counts as rung, held completions are written, and vector 1 is raised. How long the freeze
lasted is a free value (Assumption 3). -/
def State.containRelease (s : State) : State :=
  let pg := hepPage
  if !s.hep.frozen then s.err pg 0x0101 0 0 0
  else if !s.hep.linkUp then s.err pg 0x0102 0 0 0
  else
    let (v, s1) := s.freeW
    let s2 : State := { s1 with hep := { s1.hep with frozen := false } }
    ((((s2.setReg pg 0x04C (v.truncate 32)).evt pg 1).ringAll.hostReturns).evt modctlPage 3)

/-- A freeze that has lasted longer than CONTAIN_TIMEOUT: a lead whose understudy is in lockstep yields (R428, R456). -/
def State.containTimeout (s : State) (us : Nat) : State :=
  if s.hep.frozen && decide (s.fld hepPage 0x048 16 0 < us) then
    let s1 := s.evt hepPage 2
    if s1.role == 1 && s1.redundant then s1.yieldLead 3 else s1
  else s

/-- A BAR0 access of another size or alignment than the pages take (R395, R432). -/
def State.bar0BadSize (s : State) (off : Nat) : State := if s.hostReaches then s.err hepPage 0x0104 off 0 0 else s

/-- INWIN_BASE (the HEP page). -/
def State.inwinBase (s : State) : Nat := s.pageAddr hepPage 0x058 0x05C

/-- A write through the inbound window: stored while cues do not run, else counted and discarded; one beyond the window is discarded (R397). -/
def State.inwinWrite (s : State) (off : Nat) (bs : List Byte) : State :=
  if !s.hostReaches || decide (s.fld hepPage 0x060 7 0 * 2 ^ 20 < off + bs.length) then s
  else if s.cue.unit = 2 then (s.addReg hepPage 0x064 1).evt hepPage 4
  else s.storeMem (s.inwinBase + off) bs

/-- The bytes that a read of the inbound window returns; none beyond it, which is answered with Unsupported Request (R397). -/
def State.inwinRead (s : State) (off n : Nat) : Option (List Byte) :=
  if !s.hostReaches || decide (s.fld hepPage 0x060 7 0 * 2 ^ 20 < off + n) then none else some (s.bytesAt (s.inwinBase + off) n)

/-- The link reaches L0; a freeze stays until its release (R426, R427). -/
def State.linkUp (s : State) (speed width : Nat) : State :=
  if s.mdl.st = .off then s
  else { s with hep := { s.hep with linkUp := true, everUp := true, speed := speed, width := width } }

/-- Bus Master Enable is written (R398, R427). -/
def State.busMaster (s : State) (en : Bool) : State :=
  let s1 : State := { s with hep := { s.hep with bme := en } }
  if en then s1.hostReturns else s1

/-- MSI-X is enabled with the function unmasked, or one vector is unmasked: pending messages leave (R401). -/
def State.msixUnmask (s : State) (v : Option Nat) : State :=
  let h := s.hep
  ({ s with hep := match v with
      | none => { h with msixEn := true, msixMask := false }
      | some n => { h with unmasked := if h.unmasked.contains n then h.unmasked else h.unmasked ++ [n] } } : State).msixFlush

/-- The function enters D3hot: what the queue engine holds stays held (R403). -/
def State.d3hot (s : State) : State := { s with hep := { s.hep with d0 := false } }

/-- The function returns to D0 (R398, R403). -/
def State.d0Return (s : State) : State := ({ s with hep := { s.hep with d0 := true } } : State).hostReturns

/-- HEP SOFT_RESET clears the counters (the HEP page). -/
def State.hepSoftReset (s : State) : State := s.zeroRegs hepPage [0x050, 0x064]

/-! ## The commands -/

/-- HEP_FREEZE. -/
def execHepFreeze (linkDown : Bool) (aer : Word32) (s : State) : Host.Outcome State Fault Refusal := .next (s.hepFreeze linkDown aer.toNat)
/-- CONTAIN_RELEASE. -/
def execContainRelease (s : State) : Host.Outcome State Fault Refusal := .next s.containRelease
/-- CONTAIN_TIMEOUT. -/
def execContainTimeout (us : Nat) (s : State) : Host.Outcome State Fault Refusal := .next (s.containTimeout us)
/-- BAR0_BAD_SIZE_ACCESS. -/
def execBar0BadSizeAccess (off : BitVec 25) (_write : Bool) (s : State) : Host.Outcome State Fault Refusal := .next (s.bar0BadSize off.toNat)
/-- INWIN_WRITE. -/
def execInwinWrite (off : Nat) (data : List Byte) (s : State) : Host.Outcome State Fault Refusal := .next (s.inwinWrite off data)
/-- INWIN_READ: the read changes nothing; what it returns is `inwinRead`. -/
def execInwinRead (_off _len : Nat) (s : State) : Host.Outcome State Fault Refusal := .next s
/-- PCIE_LINK_UP. -/
def execPcieLinkUp (speed : BitVec 4) (width : BitVec 5) (s : State) : Host.Outcome State Fault Refusal :=
  .next (s.linkUp speed.toNat width.toNat)
/-- BUS_MASTER_ENABLE_WRITE. -/
def execBusMasterEnableWrite (en : Bool) (s : State) : Host.Outcome State Fault Refusal := .next (s.busMaster en)
/-- MSIX_UNMASK. -/
def execMsixUnmask (vector : Option (Fin 2048)) (s : State) : Host.Outcome State Fault Refusal := .next (s.msixUnmask (vector.map Fin.val))
/-- D3HOT_ENTRY. -/
def execD3hotEntry (s : State) : Host.Outcome State Fault Refusal := .next s.d3hot
/-- D0_RETURN. -/
def execD0Return (s : State) : Host.Outcome State Fault Refusal := .next s.d0Return
/-- HEP_SOFT_RESET. -/
def execHepSoftReset (s : State) : Host.Outcome State Fault Refusal := .next s.hepSoftReset

end Sys2Proof.Machine
end

