-- ==== Sys2Proof/Machine/MemOps.lean ====
section
/-!
DEFINITION. The page operations of a cluster L2 (R237–R249, R268) and the memory controllers (R255–R270).
-/
namespace Sys2Proof.Machine
open Sys2Proof

/-- An error event that FAULT_SEEN reports: an L1 parity refetch, a corrected error, a self-check, a link replay (R453). -/
def State.errorSeen (s : State) : State := { s with company := { s.company with faultSeen := true } }

/-! ## The pages of a cluster L2 -/

/-- Whether CLU.MODE is MAINTENANCE (R232). -/
def State.maintenance (s : State) (c : Nat) : Bool := decide (s.fld (pageOf .clu c) 0x008 7 4 = 1)

/-- Whether the cue logic is in RUN. -/
def State.running (s : State) : Bool := s.cue.unit == 2

/-- Whether a unit queue holds a job. -/
def UnitQ.busy (u : UnitQ) : Bool := !u.fifo.isEmpty || !u.fifo2.isEmpty || u.run.isSome || u.held.isSome

/-- Whether a digest unit holds a job or a suspended context. -/
def DigUnit.busy (u : DigUnit) : Bool := !u.fifo.isEmpty || !u.slots.isEmpty || !u.susp.isEmpty

/-- Whether a page belongs to a cluster (the directory). -/
def inCluster (c page : Nat) : Bool := decide (0x100 + 0x20 * c ≤ page) && decide (page < 0x120 + 0x20 * c)

/-- Whether a core of the cluster is not waiting in TAKE, or a unit of the cluster holds a job or a suspended context (R246). -/
def State.clusterActive (s : State) (c : Nat) : Bool :=
  (List.range 16).any (fun k => (s.coreAt (16 * c + k)).take.isNone) ||
    s.units.any (fun p => inCluster c p.1 && p.2.busy) || s.digs.any (fun p => inCluster c p.1 && p.2.busy)

/-- A write of L2.GREEN.WAYS starts a conversion or is refused (R241, R245, R246). -/
def State.greenWrite (s : State) (c : Nat) (v : Word32) : State :=
  let pg := l2Page c
  let w := Word.bits 3 0 v.toNat
  if s.l2Busy c then s.err pg 0x0101 0x040 0 0
  else if 12 < w ∨ w % 2 = 1 then s.err pg 0x0102 0x040 0 0
  else if s.running then s.err pg 0x0100 0x040 0 0
  else if s.clusterActive c then s.err pg 0x0105 0x040 0 0
  else if s.fld pg 0x400 11 0 ≠ 0 then s.err pg 0x0104 0x040 0 0
  else (s.setReg pg 0x040 (BitVec.ofNat 32 w)).setL2Op c (some (.convert w))

/-- The conversion completes (R247). -/
def State.convertDone (s : State) (c : Nat) : State := match (s.cluster c).l2.op with
  | some (.convert w) => ((s.l2Convert c w).setL2Op c none).evt (l2Page c) 2
  | _ => s

/-- L2.MAINT written with GO: OP 1 CLEAN, 2 INVAL, 3 CLEAN_INVAL on a set and way, an address, or all cache ways (R240, R241). -/
def State.maintGo (s : State) (c : Nat) (v : Word32) : State :=
  let pg := l2Page c
  let op := Word.bits 29 28 v.toNat
  let scope := Word.bits 27 26 v.toNat
  if s.l2Busy c then s.err pg 0x0101 0x044 0 0
  else if op = 0 ∨ scope = 3 then s.err pg 0x0102 0x044 0 0
  else
    let o : MaintOp := if op = 1 then .clean else if op = 2 then .inval else .cleanInval
    let s1 := s.setReg pg 0x044 (v &&& 0x3C0FFFFF#32)
    let s2 := if scope = 0 then s1.l2MaintAt c o (Word.bits 11 0 v.toNat * 16 + Word.bits 19 16 v.toNat)
      else if scope = 1 then s1.l2MaintAddr c o (s.pageAddr pg 0x048 0x04C) else s1.l2MaintAll c o
    s2.setL2Op c (some .maint)

/-- A maintenance operation completes (R241). -/
def State.maintDone (s : State) (c : Nat) : State :=
  if (s.cluster c).l2.op = some .maint then (s.setL2Op c none).evt (l2Page c) 0 else s

/-- L2.PRELOAD written with GO (R241, R248). A way above 11 or a count out of range is PARAM_RANGE; a green room way is WAY_CONFLICT, as for
LOCK.WAYS (DEDUCED, Assumption 23). Under bypass the L2 holds nothing, and a preload places no line (R242, R243, Assumption 143). -/
def State.preloadGo (s : State) (c : Nat) (v : Word32) : State :=
  let pg := l2Page c
  let way := Word.bits 19 16 v.toNat
  let n := Word.bits 12 0 v.toNat
  if !s.maintenance c then s.err pg 0x0103 0x40C 0 0
  else if s.l2Busy c then s.err pg 0x0101 0x40C 0 0
  else if 11 < way ∨ n = 0 ∨ 4096 < n then s.err pg 0x0102 0x40C 0 0
  else if way < s.greenNow c then s.err pg 0x0104 0x40C 0 0
  else
    let s1 := s.setReg pg 0x40C (v &&& 0x000F1FFF#32)
    (if s.bypassed c then s1 else s1.l2Preload c way (s.pageAddr pg 0x404 0x408) n).setL2Op c (some .preload)

/-- A preload completes (R248). -/
def State.preloadDone (s : State) (c : Nat) : State :=
  if (s.cluster c).l2.op = some .preload then (s.setL2Op c none).evt (l2Page c) 1 else s

/-- A write of L2.LOCK.WAYS (R248). -/
def State.lockWrite (s : State) (c : Nat) (v : Word32) : State :=
  let pg := l2Page c
  if !s.maintenance c then s.err pg 0x0103 0x400 0 0
  else if 4096 ≤ v.toNat ∨ v.toNat % 2 ^ s.greenNow c ≠ 0 then s.err pg 0x0104 0x400 0 0
  else s.setReg pg 0x400 v

/-- A write of L2.LFSR.SEED (R238). -/
def State.seedWrite (s : State) (c : Nat) (v : Word32) : State :=
  let pg := l2Page c
  let x := Word.bits 15 0 v.toNat
  if x = 0 then s.err pg 0x0102 0x050 0 0 else s.setReg pg 0x050 (BitVec.ofNat 32 (x * 65536 + x))

/-- A write of L2.CTL.EN (R241–R243). -/
def State.l2EnWrite (s : State) (c : Nat) (en : Bool) : State :=
  let pg := l2Page c
  if s.l2Busy c then s.err pg 0x0101 0x008 0 0
  else if en then
    if s.bypassed c then ((s.setFld pg 0x008 0 0 1).setFld pg 0x00C 9 9 0).setFld pg 0x00C 3 0 (if s.fld pg 0x00C 3 0 = 5 then 5 else 2)
    else s
  else if s.running then s.err pg 0x0100 0x008 0 0
  else if s.bypassed c then s
  else (s.setFld pg 0x008 0 0 0).setL2Op c (some .disable)

/-- The clean of a disable completes and bypass begins (R242). -/
def State.bypassBegins (s : State) (c : Nat) : State :=
  let pg := l2Page c
  if (s.cluster c).l2.op = some .disable then
    ((((s.l2MaintAll c .cleanInval).setL2Op c none).setFld pg 0x00C 9 9 1).setFld pg 0x00C 3 0
      (if s.fld pg 0x00C 3 0 = 5 then 5 else 0)).evt pg 3
  else s

/-- L2 SOFT_RESET: every cache way is cleaned and invalidated and the counters cleared; refused while cues run (R242, the L2 page). -/
def State.l2SoftReset (s : State) (c : Nat) : State :=
  let pg := l2Page c
  if s.running then s.err pg 0x0100 0x008 0 0
  else (s.l2MaintAll c .cleanInval).zeroRegs pg [0x054, 0x058, 0x05C, 0x064]

/-- A cluster fault: data of a dirty line or of green room is lost (R237, R268, R486). -/
def State.l2Fault (s : State) (c a way set : Nat) : State :=
  let pg := l2Page c
  (((s.setFld pg 0x00C 3 0 5).err pg 0x0106 (a % 2 ^ 32) (a / 2 ^ 32) (way * 65536 + set)).evt pg 4).enterCurtain 3 pg

/-- An L2 error (R237): a clean line is dropped, with its copies in L1, and fetched again into its place; a dirty one, and eight bytes of green
room, are lost; and a correctable one is corrected in place. Corrected errors and refetched lines count in ECC.CE. -/
def State.l2EccUe (s : State) (c : Nat) : EccSite → State
  | .line set way _ =>
    let key := set.val * 16 + way.val
    match l2At (s.cluster c).l2 key with
    | none => s
    | some l =>
      let s1 := s.l2InvalAt c key
      if l.dirty then s1.l2Fault c (l.lineNo * 128) way.val set.val
      else ((s1.setL2 c (l2Put (s1.cluster c).l2 key (some l))).addReg (l2Page c) 0x064 1).errorSeen
  | .corrected set way =>
    if (l2At (s.cluster c).l2 (set.val * 16 + way.val)).isSome then (s.addReg (l2Page c) 0x064 1).errorSeen else s
  | .green off =>
    if s.greenNow c * 524288 ≤ off then s
    else
      let a := 0xC00000000000 + c * 0x01000000 + off / 8 * 8
      let (bs, s1) := s.freeBytes 8
      (s1.storeMem a bs).l2Fault c a (off / 524288) (off / 128 % 4096)

/-! ## Memory controllers -/

/-- The MEMC page of a controller. -/
def memcPage (m : Nat) : Nat := pageOf .memc m
/-- The MEMT page of a controller. -/
def memtPage (m : Nat) : Nat := pageOf .memt m

/-- Whether a controller trains in hardware: HBM, and DDR5 of STX9192-A1 (R259). -/
def State.hwTrained (s : State) (m : Nat) : Bool := decide (16 ≤ m) || decide (s.build.ordering = 1)

/-- Ranks on a controller's channel (INFO.RANKS): the DIMMs hold 64 GiB a rank (R4, Assumption 24). -/
def State.ranks (s : State) (m : Nat) : Nat := if 16 ≤ m then 0 else s.build.ordering

/-- Local interleave units of a controller (R255). -/
def State.localUnits (s : State) (m : Nat) : Nat := if 16 ≤ m then 589824 else s.build.ordering * 2 ^ 20

/-- The device address of a byte of a controller's units (R255). -/
def memcAddr (m o : Nat) : Nat :=
  if 16 ≤ m then (o / 65536 * 6 + (m - 16)) * 65536 + o % 65536
  else 0x010000000000 + (o / 65536 * 16 + m) * 65536 + o % 65536

/-- The place of a device address among a controller's units, if it lies there (R255). -/
def State.memcLocal (s : State) (m a : Nat) : Option Nat :=
  let inUse := match s.region a with
    | .hbm => true
    | .ddr => true
    | _ => false
  if inUse && decide (memcOf a = m) then
    some (if 16 ≤ m then a / 65536 / 6 * 65536 + a % 65536 else (a - 0x010000000000) / 65536 / 16 * 65536 + a % 65536)
  else none

/-- Whether a controller may not be taken offline or trained (R256). -/
def State.memcInUse (s : State) : Bool :=
  s.cue.unit == 2 || s.cue.unit == 3 || !s.tableList.isEmpty || decide (0 < s.storeUsed) || s.pbook.alloc

/-- MEMC.CTL.EN written 0 (R256, R267). -/
def State.memcDisable (s : State) (m : Nat) : State :=
  let pg := memcPage m
  let x := s.memc m
  if s.memcInUse then s.err pg 0x0101 0x008 0 0
  else if s.fld pg 0x008 0 0 = 0 then s
  else (s.setFld pg 0x008 0 0 0).setMemc m (if x.unit = 4 ∨ x.unit = 5 then x else { x with unit := 0, op := some .enter })

/-- MEMC.CTL.EN written 1 (R267). -/
def State.memcEnable (s : State) (m : Nat) : State :=
  let pg := memcPage m
  let x := s.memc m
  if s.fld pg 0x008 0 0 = 1 then s
  else (s.setFld pg 0x008 0 0 1).setMemc m (if x.unit = 0 then { x with op := some .exit } else x)

/-- A self-refresh sequence completes: an entry, or the exit of a controller that was OFF, which serves traffic again (R267). -/
def State.selfRefreshDone (s : State) (m : Nat) : State :=
  let x := s.memc m
  match x.op with
  | some .enter => s.setMemc m { x with selfRefresh := true, op := none }
  | some .exit => s.setMemc m { x with selfRefresh := false, op := none, unit :=
      if x.unit ≠ 0 then x.unit else if s.fld (memcPage m) 0x008 7 4 = 1 ∨ x.trained = false then 1 else 2 }
  | _ => s

/-- MEMC.CTL.MODE written TRAIN: the DIMMs are reset and programmed, with BUSY set meanwhile, once a self-refresh sequence in progress is over
(R256, R260, R267, R269). -/
def State.trainMode (s : State) (m : Nat) : State :=
  let pg := memcPage m
  let x := s.memc m
  if s.hwTrained m then s.err pg 0x0102 0x008 0 0
  else if s.memcInUse then s.err pg 0x0101 0x008 0 0
  else if s.fld pg 0x008 7 4 = 1 then s
  else
    let s1 := (s.setFld pg 0x008 7 4 1).setMemc m { x with
      unit := if x.unit = 2 ∨ x.unit = 1 then 1 else x.unit, op := if x.op = some .enter ∨ x.op = some .exit then x.op else some .setup }
    s1.setReg (memtPage m) 0x404 0

/-- MEMC.CTL.MODE written SERVICE: the delays in force are those last written; a training run or setup ends, a self-refresh sequence goes on
(R260, R267). -/
def State.serviceMode (s : State) (m : Nat) : State :=
  let pg := memcPage m
  let x := s.memc m
  if s.fld pg 0x008 7 4 = 0 then s
  else (s.setFld pg 0x008 7 4 0).setMemc m { x with
    unit := if x.unit = 1 then 2 else x.unit, trained := true, op := if x.op = some .enter ∨ x.op = some .exit then x.op else none }

/-- MEMC SOFT_RESET (the MEMC page). -/
def State.memcSoftReset (s : State) (m : Nat) : State := s.zeroRegs (memcPage m) [0x048, 0x05C]

/-- A controller freezes: the capture registers are latched, it goes into self-refresh, and the module drops the curtain (R265, R266). -/
def State.memcFreeze (s : State) (m : Nat) (f : FreezeReport) : State :=
  let pg := memcPage m
  let x := s.memc m
  if x.unit = 4 ∨ x.unit = 5 ∨ x.unit = 0 then s
  else
    let w := fun (t : State) (p : Nat × Nat) => t.setReg pg p.1 (BitVec.ofNat 32 p.2)
    let caps := [(0x080, f.cause.toNat), (0x084, f.addr.toNat % 2 ^ 32), (0x088, f.addr.toNat / 2 ^ 32), (0x08C, f.cmd.toNat / 2048 * 2048),
      (0x090, f.row.toNat), (0x094, (f.synd.getD 0 0).toNat), (0x098, (f.synd.getD 1 0).toNat), (0x09C, (f.synd.getD 2 0).toNat),
      (0x0A0, (f.synd.getD 3 0).toNat), (0x0A4, f.beat.toNat), (0x0A8, s.cue.number % 2 ^ 32), (0x0AC, s.cue.number / 2 ^ 32)]
    let s1 := if s.reg pg 0x080 = 0 then caps.foldl w s else s
    let s2 := s1.setMemc m { x with unit := 4, op := some .enter }
    ((s2.err pg 0x0104 f.cause.toNat 0 0).evt pg 1).enterCurtain 1 pg

/-- A correctable error is corrected, written back and counted (R263, R453). -/
def State.memcCorrected (s : State) (m a : Nat) : State :=
  let pg := memcPage m
  let s1 := ((s.addReg pg 0x048 1).setReg pg 0x04C (BitVec.ofNat 32 a)).setReg pg 0x050 (BitVec.ofNat 32 (a / 2 ^ 32 % 65536))
  let limit := (s.reg pg 0x054).toNat
  let s2 := if limit ≠ 0 ∧ (s1.reg pg 0x048).toNat % limit = 0 then s1.evt pg 0 else s1
  s2.errorSeen

/-- Patrol scrub reads the next local unit; at the last one its pass ends (R264). -/
def State.scrub (s : State) (m : Nat) : State :=
  let pg := memcPage m
  let x := s.memc m
  if s.fld pg 0x058 31 31 = 0 ∨ x.unit ≠ 2 then s
  else if s.localUnits m ≤ x.scrubAt + 1 then ((s.setMemc m { x with scrubAt := 0 }).addReg pg 0x05C 1).evt pg 2
  else s.setMemc m { x with scrubAt := x.scrubAt + 1 }

/-- A refresh is issued; no result depends on it (R258). -/
def State.refresh (s : State) (m : Nat) : State :=
  let x := s.memc m
  if x.unit = 2 ∧ x.selfRefresh = false then s.setMemc m { x with refreshes := x.refreshes + 1 } else s

/-- A DRAM device reports above 85 °C: doubled refresh begins (R258, R270). -/
def State.dramHot (s : State) (m degC : Nat) : State :=
  let pg := memcPage m
  if degC ≤ 85 then s
  else
    let s1 := s.setReg pg 0x060 (BitVec.ofNat 32 (256 + degC))
    if s.fld pg 0x060 8 8 = 1 then s1 else s1.evt pg 3

/-- The DRAM temperature is back at 85 °C or below; the reading is a free value (R258, Assumption 3). -/
def State.dramCool (s : State) (m : Nat) : State :=
  let (v, s1) := s.freeW
  s1.setReg (memcPage m) 0x060 (BitVec.ofNat 32 (v.toNat % 86))

/-! ## Training runs (R260, R269) -/

/-- Whether the expert fields of a MEMT page that training uses answer: TRAIN mode of a controller that has it. -/
def State.inTrain (s : State) (m : Nat) : Bool := decide (s.fld (memcPage m) 0x008 7 4 = 1)

/-- MEMT.TRAIN_CTL written with GO (R269). While the mode is SERVICE the field ignores it. A pattern run needs a PAT_ADDR inside the
controller's units; the address is tested here because it is written in halves (DEDUCED, Assumption 30). -/
def State.trainGo (s : State) (m op rank : Nat) : State :=
  let x := s.memc m
  if !s.inTrain m then s
  else if x.op.isSome ∨ s.ranks m ≤ rank ∨ op = 0 ∨ 6 < op then s.err (memcPage m) 0x0102 0x400 0 0
  else if op ≤ 3 ∧ (s.memcLocal m (s.pageAddr (memtPage m) 0x410 0x414)).isNone then s.err (memcPage m) 0x0102 0x410 0 0
  else
    let s1 := (s.setReg (memtPage m) 0x400 (BitVec.ofNat 32 (op * 2 ^ 24 + rank * 65536))).setReg (memtPage m) 0x404 0
    (s1.zeroRegs (memtPage m) ((List.range 10).map (fun l => 0x424 + 4 * l))).setMemc m { x with op := some (.run op) }

/-- The bytes that a pattern write covers are undefined: the controller is untrained, and the spec gives the pattern's place in its units only
by its first address (R260, Assumptions 3 and 24). -/
def State.patternWrite (s : State) (m : Nat) : State :=
  let pg := memtPage m
  match s.memcLocal m (s.pageAddr pg 0x410 0x414) with
  | none => s
  | some o =>
    let n := 64 * s.fld pg 0x40C 23 0
    let first := min n (65536 - o % 65536)
    let put := fun (t : State) (p : Nat × Nat) =>
      let (bs, u) := t.freeBytes p.2
      u.pokeBytes (memcAddr m p.1) bs
    let rest := (List.range (Word.ceilDiv (n - first) 65536)).map (fun i => (o + first + 65536 * i, min 65536 (n - first - 65536 * i)))
    ((o, first) :: rest).foldl put s

/-- A training run completes: LANE_ERR, ANY_ERR and DONE (R260, R269, R270). The DIMM setup that TRAIN mode begins with completes without them
(Assumption 52). A WRITE_PATTERN run compares nothing, and CA_CHECK counts on lane 0. -/
def State.trainDone (s : State) (m : Nat) (laneErr : List Nat) : State :=
  let x := s.memc m
  let pg := memtPage m
  match x.op with
  | some (.run op) =>
    let errs := (List.range 10).map (fun l => if op = 1 ∨ (op = 4 ∧ l ≠ 0) then 0 else min 65535 (laneErr.getD l 0))
    let s0 := if op = 1 ∨ op = 3 then s.patternWrite m else s
    let s1 := errs.zipIdx.foldl (fun t e => t.setReg pg (0x424 + 4 * e.2) (BitVec.ofNat 32 e.1)) s0
    let any := errs.any (fun e => decide (e ≠ 0))
    ((s1.setReg pg 0x404 (if any then 3 else 1)).setMemc m { x with op := none }).evt (memcPage m) 4
  | some .setup => s.setMemc m { x with op := none }
  | _ => s

/-! ## Training at a boot (R259–R261) -/

/-- The place of a delay among a controller's: rank, lane and kind. -/
def dlyKey (rank lane kind : Nat) : Nat := rank * 128 + lane * 8 + kind

/-- The training cache's key of a channel (R261). -/
def State.trainKey (s : State) (m : Nat) : List Nat :=
  [s.build.serial, m, (s.reg (memtPage m) 0x45C).toNat, (s.reg (memtPage m) 0x460).toNat, s.fld (memcPage m) 0x040 15 0]

/-- A window of fewer than 16 steps (R259, R260). -/
def LaneWindow.short (w : LaneWindow) : Bool := decide (w.last.toNat < w.first.toNat + 16)

/-- The smallest window of a list, in steps (EYE). -/
def eyeMin (ws : List LaneWindow) (kinds : List Nat) : Nat :=
  match (ws.filter (fun w => kinds.contains w.kind.toNat)).map (fun w => w.last.toNat - w.first.toNat) with
  | [] => 0
  | x :: r => r.foldl min x

/-- A lane that fails its sweep puts the controller into FAULT (R259, R270). -/
def State.trainFail (s : State) (w : LaneWindow) : State :=
  let m := w.m.val
  (s.setMemc m { s.memc m with unit := 5 }).err (memcPage m) 0x0103 (w.rank.toNat * 65536 + w.lane.toNat * 256 + w.kind.toNat) 0 0

/-- One controller trains at a boot: from the cache where the key matches and the check passes, else from its sweeps, whose centres it
takes; firmware then stores the channel's values (R259–R261). -/
def State.trainOne (s : State) (r : BootReport) (m : Nat) : State :=
  let x := s.memc m
  let pg := memtPage m
  let run := { x with unit := 2, trained := true, selfRefresh := false, op := none }
  let old := s.flash.cache.find? (fun e => e.chan == m && e.key == s.trainKey m)
  let cached := match old with
    | some e => if !s.hwTrained m && r.cacheOk.any (fun k => decide (k.val = m)) then some e else none
    | none => none
  match cached with
  | some e => (s.setMemc m { run with dly := e.dly }).setReg pg 0x458 1
  | none =>
    let ws := r.windows.filter (fun w => decide (w.m.val = m))
    match ws.find? LaneWindow.short with
    | some w => s.trainFail w
    | none =>
      let dly := ws.foldl (fun d w => Sparse.set (fun _ => 0) d (dlyKey w.rank.toNat w.lane.toNat w.kind.toNat)
        ((w.first.toNat + w.last.toNat) / 2)) []
      let s1 := s.setMemc m { run with dly := dly }
      let s2 := s1.setReg pg 0x040 (BitVec.ofNat 32 (eyeMin ws [1, 3] * 256 + eyeMin ws [0, 2]))
      if s.hwTrained m then s2.setReg pg 0x458 0
      else
        let ent : TrainEnt := { chan := m, key := s.trainKey m, dly := dly }
        ({ s2 with flash := { s2.flash with cache := s2.flash.cache.filter (fun (e : TrainEnt) => decide (e.chan ≠ m)) ++ [ent] } }).setReg pg 0x458
          (if old.isSome then 3 else 2)

/-- What INFO, CAPACITY and SERIAL show of a controller: from the build and the SPD contents (the MEMC and MEMT pages, Assumption 24). -/
def State.memcInfo (s : State) (m : Nat) : State :=
  let serial := fun (i : Nat) => BitVec.ofNat 32 (((s.build.dimmSerial.find? (fun p => p.1 == 2 * m + i)).map Prod.snd).getD 0)
  if 16 ≤ m then
    (s.setReg (memcPage m) 0x040 (BitVec.ofNat 32 (2 ^ 16 + 9375))).setReg (memcPage m) 0x044 36864
  else
    let dimms := if s.build.ordering = 1 then 1 else 2
    let mts := if s.build.ordering = 1 then 6400 else 5600
    (((s.setReg (memcPage m) 0x040 (BitVec.ofNat 32 (dimms * 2 ^ 28 + s.ranks m * 2 ^ 24 + mts))).setReg (memcPage m) 0x044
      (BitVec.ofNat 32 (65536 * s.build.ordering))).setReg (memtPage m) 0x45C (serial 0)).setReg (memtPage m) 0x460
      (if dimms = 2 then serial 1 else 0)

/-! ## The commands -/

/-- GREEN_WAYS_WRITE. -/
def execGreenWaysWrite (c : Fin 12) (val : BitVec 32) (s : State) : Host.Outcome State Fault Refusal := .next (s.greenWrite c.val val)
/-- CONVERT_DONE. -/
def execConvertDone (c : Fin 12) (s : State) : Host.Outcome State Fault Refusal := .next (s.convertDone c.val)
/-- The word that a MAINT row writes: GO, an operation, scope, way and set. -/
def maintWord (op : Nat) (scope : BitVec 2) (way : BitVec 4) (set : BitVec 12) : Word32 :=
  BitVec.ofNat 32 (2 ^ 31 + op * 2 ^ 28 + scope.toNat * 2 ^ 26 + way.toNat * 65536 + set.toNat)
/-- L2_MAINT_CLEAN. -/
def execL2MaintClean (c : Fin 12) (scope : BitVec 2) (way : BitVec 4) (set : BitVec 12) (s : State) : Host.Outcome State Fault Refusal :=
  .next (s.maintGo c.val (maintWord 1 scope way set))
/-- L2_MAINT_INVAL. -/
def execL2MaintInval (c : Fin 12) (scope : BitVec 2) (way : BitVec 4) (set : BitVec 12) (s : State) : Host.Outcome State Fault Refusal :=
  .next (s.maintGo c.val (maintWord 2 scope way set))
/-- L2_MAINT_CLEAN_INVAL. -/
def execL2MaintCleanInval (c : Fin 12) (scope : BitVec 2) (way : BitVec 4) (set : BitVec 12) (s : State) :
    Host.Outcome State Fault Refusal := .next (s.maintGo c.val (maintWord 3 scope way set))
/-- MAINT_DONE. -/
def execMaintDone (c : Fin 12) (s : State) : Host.Outcome State Fault Refusal := .next (s.maintDone c.val)
/-- L2_PRELOAD. -/
def execL2Preload (c : Fin 12) (way : BitVec 4) (lines : BitVec 13) (s : State) : Host.Outcome State Fault Refusal :=
  .next (s.expertDo (l2Page c.val) 0x40C (s.preloadGo c.val (BitVec.ofNat 32 (2 ^ 31 + way.toNat * 65536 + lines.toNat))))
/-- PRELOAD_DONE. -/
def execPreloadDone (c : Fin 12) (s : State) : Host.Outcome State Fault Refusal := .next (s.preloadDone c.val)
/-- LOCK_WAYS_WRITE. -/
def execLockWaysWrite (c : Fin 12) (val : BitVec 32) (s : State) : Host.Outcome State Fault Refusal :=
  .next (s.expertDo (l2Page c.val) 0x400 (s.lockWrite c.val val))
/-- LFSR_SEED_WRITE. -/
def execLfsrSeedWrite (c : Fin 12) (val : BitVec 32) (s : State) : Host.Outcome State Fault Refusal := .next (s.seedWrite c.val val)
/-- L2_DISABLE. -/
def execL2Disable (c : Fin 12) (s : State) : Host.Outcome State Fault Refusal := .next (s.l2EnWrite c.val false)
/-- BYPASS. -/
def execBypass (c : Fin 12) (s : State) : Host.Outcome State Fault Refusal := .next (s.bypassBegins c.val)
/-- L2_ENABLE. -/
def execL2Enable (c : Fin 12) (s : State) : Host.Outcome State Fault Refusal := .next (s.l2EnWrite c.val true)
/-- L2_SOFT_RESET. -/
def execL2SoftReset (c : Fin 12) (s : State) : Host.Outcome State Fault Refusal := .next (s.l2SoftReset c.val)
/-- L2_ECC_UE. -/
def execL2EccUe (c : Fin 12) (site : EccSite) (s : State) : Host.Outcome State Fault Refusal := .next (s.l2EccUe c.val site)
/-- MEMC_ENABLE. -/
def execMemcEnable (m : Fin 22) (s : State) : Host.Outcome State Fault Refusal := .next (s.memcEnable m.val)
/-- MEMC_DISABLE. -/
def execMemcDisable (m : Fin 22) (s : State) : Host.Outcome State Fault Refusal := .next (s.memcDisable m.val)
/-- MEMC_TRAIN_MODE. -/
def execMemcTrainMode (m : Fin 22) (s : State) : Host.Outcome State Fault Refusal := .next (s.trainMode m.val)
/-- MEMC_SERVICE_MODE. -/
def execMemcServiceMode (m : Fin 22) (s : State) : Host.Outcome State Fault Refusal := .next (s.serviceMode m.val)
/-- MEMC_SOFT_RESET. -/
def execMemcSoftReset (m : Fin 22) (s : State) : Host.Outcome State Fault Refusal := .next (s.memcSoftReset m.val)
/-- MEMC_FREEZE. -/
def execMemcFreeze (m : Fin 22) (f : FreezeReport) (s : State) : Host.Outcome State Fault Refusal := .next (s.memcFreeze m.val f)
/-- MEMC_CORRECTABLE_ERROR. -/
def execMemcCorrectableError (m : Fin 22) (addr : BitVec 48) (s : State) : Host.Outcome State Fault Refusal :=
  .next (s.memcCorrected m.val addr.toNat)
/-- PATROL_SCRUB. -/
def execPatrolScrub (m : Fin 22) (s : State) : Host.Outcome State Fault Refusal := .next (s.scrub m.val)
/-- REFRESH. -/
def execRefresh (m : Fin 22) (s : State) : Host.Outcome State Fault Refusal := .next (s.refresh m.val)
/-- DRAM_HOT. -/
def execDramHot (m : Fin 22) (degC : BitVec 8) (s : State) : Host.Outcome State Fault Refusal := .next (s.dramHot m.val degC.toNat)
/-- DRAM_TEMP_NORMAL. -/
def execDramTempNormal (m : Fin 22) (s : State) : Host.Outcome State Fault Refusal := .next (s.dramCool m.val)
/-- SELF_REFRESH_DONE. -/
def execSelfRefreshDone (m : Fin 22) (s : State) : Host.Outcome State Fault Refusal := .next (s.selfRefreshDone m.val)
/-- TRAIN_WRITE_PATTERN. -/
def execTrainWritePattern (m : Fin 22) (rank : BitVec 4) (s : State) : Host.Outcome State Fault Refusal :=
  .next (s.expertDo (memtPage m.val) 0x400 (s.trainGo m.val 1 rank.toNat))
/-- TRAIN_READ_COMPARE. -/
def execTrainReadCompare (m : Fin 22) (rank : BitVec 4) (s : State) : Host.Outcome State Fault Refusal :=
  .next (s.expertDo (memtPage m.val) 0x400 (s.trainGo m.val 2 rank.toNat))
/-- TRAIN_WRITE_READ_COMPARE. -/
def execTrainWriteReadCompare (m : Fin 22) (rank : BitVec 4) (s : State) : Host.Outcome State Fault Refusal :=
  .next (s.expertDo (memtPage m.val) 0x400 (s.trainGo m.val 3 rank.toNat))
/-- TRAIN_CA_CHECK. -/
def execTrainCaCheck (m : Fin 22) (rank : BitVec 4) (s : State) : Host.Outcome State Fault Refusal :=
  .next (s.expertDo (memtPage m.val) 0x400 (s.trainGo m.val 4 rank.toNat))
/-- TRAIN_LEVEL_CHECK. -/
def execTrainLevelCheck (m : Fin 22) (rank : BitVec 4) (s : State) : Host.Outcome State Fault Refusal :=
  .next (s.expertDo (memtPage m.val) 0x400 (s.trainGo m.val 5 rank.toNat))
/-- TRAIN_DRAM_PATTERN. -/
def execTrainDramPattern (m : Fin 22) (rank : BitVec 4) (s : State) : Host.Outcome State Fault Refusal :=
  .next (s.expertDo (memtPage m.val) 0x400 (s.trainGo m.val 6 rank.toNat))
/-- TRAIN_DONE. -/
def execTrainDone (m : Fin 22) (laneErr : List Nat) (s : State) : Host.Outcome State Fault Refusal := .next (s.trainDone m.val laneErr)

end Sys2Proof.Machine
end

