-- ==== Sys2Proof/Machine/Power.lean ====
section
/-!
DEFINITION. Power, boot, resets, standby and the sensors (R338–R341, R430, R473–R498, R513–R516).
-/
namespace Sys2Proof.Machine
open Sys2Proof

/-- The PWR page. -/
def pwrPage : Nat := pageOf .pwr 0

/-! ## Power and boot -/

/-- The module loses power or is held in a fundamental reset: everything R476 marks lost is lost. Keys, fuses and flash, the host's memory and
the sideband levels are not the module's to lose (R473, R476, R494). -/
def State.powerOff (s : State) (cause : Nat) : State :=
  ({ State.reset with
    pending := s.pending, fresh := s.fresh, stamp := s.stamp, beat := s.beat, build := s.build, host := s.host,
    keys := { s.keys with comps := [] }, flash := { s.flash with busy := false, run := none },
    irtr := { s.irtr with latched := [] },
    mdl := { State.reset.mdl with supply := s.mdl.supply, perst := s.mdl.perst, tripped := s.mdl.tripped } } : State).setReg
    modctlPage 0x064 (BitVec.ofNat 32 cause)

/-- The boot begins when the input is in range and PERST# is deasserted, unless a trip holds the module off: the boot ROM starts a slot that
verifies, or stays in RECOVERY (R341, R473, R479, R493, R516). -/
def State.tryBoot (s : State) : State :=
  let m := s.mdl
  if !(m.st == .off && m.supply && !m.perst && !m.tripped) then s
  else
    let s1 := if s.reg modctlPage 0x064 = 0 then s.setReg modctlPage 0x064 1 else s
    match s.flash.boot with
    | some f =>
      let s2 : State := { s1 with flash := f, mdl := { m with st := .boot } }
      if f.fallback then s2.evt flashPage 1 else s2
    | none => { s1 with mdl := { m with st := .recovery } }

/-- Training is done and the blocks are initialised; a controller that failed drops the curtain (R259, R473). -/
def State.bootComplete (s : State) (r : BootReport) : State :=
  if !(s.mdl.st == .boot) then s
  else
    let s1 := (List.range 22).foldl (fun t m => (t.memcInfo m).trainOne r m) s
    match (List.range 22).find? (fun m => (s1.memc m).unit == 5) with
    | some m => s1.enterCurtain 8 (memcPage m)
    | none => { s1 with mdl := { s1.mdl with st := .ready } }

/-- PERST# is deasserted (R473, R516). -/
def State.perstHigh (s : State) : State := ({ s with mdl := { s.mdl with perst := false } } : State).tryBoot

/-- PERST# is asserted (R473). -/
def State.perstLow (s : State) : State :=
  let s1 : State := { s with mdl := { s.mdl with perst := true } }
  if s.mdl.st == .off then s1 else s1.powerOff 2

/-- The supply is lost (R494). After a trip the cause stays the trip. -/
def State.supplyLow (s : State) : State :=
  ({ s with mdl := { s.mdl with supply := false } } : State).powerOff (if s.mdl.tripped then 5 else 1)

/-- A thermal trip (R493). -/
def State.trip (s : State) : State :=
  if s.mdl.st == .off then s else ({ s with mdl := { s.mdl with tripped := true } } : State).powerOff 5

/-- The input returns; after an absence of at least 1 s a trip no longer holds the module off (R493, R516). -/
def State.supplyHigh (s : State) (absentMs : Nat) : State :=
  let m := s.mdl
  ({ s with mdl := { m with supply := true, tripped := m.tripped && !(!m.supply && decide (1000 ≤ absentMs)) } } : State).tryBoot

/-! ## Module and hot reset (R475–R477) -/

/-- A controller at the end of a module or hot reset: out of self-refresh with its training kept; an untrained one stays so (R267, R475, R476). -/
def Memc.afterReset (x : Memc) : Memc :=
  { x with unit := if x.trained then 2 else 1, selfRefresh := false, op := none, scrubAt := 0 }

/-- The module-held registers that a module reset keeps: what training found, and RESETS.COUNT (R476). -/
def keptReg (key : Nat) : Bool :=
  decide (key = regKey modctlPage 0x068) ||
    (List.range 22).any (fun m => decide (key = regKey (memtPage m) 0x040) || decide (key = regKey (memtPage m) 0x458))

/-- Every block behind the HEP except the stage manager, the key store and the flash is reset; the cue is abandoned; tables, the duplicate
window and the prompt book stay in DRAM, detached (R475–R477). -/
def State.blocksReset (s : State) : State :=
  let s1 := (List.range 12).foldl (fun t c => t.l2MaintAll c .inval) s.endStandby
  let flash := s1.flash.boot.getD s1.flash
  let p := s1.pbook
  let r := State.reset
  let s2 : State := { s1 with
    flash := flash, regs := s1.regs.filter (fun x => keptReg x.1), wide := [], cores := [], clusters := [],
    mem := Sparse.clear s1.mem 0xC00000000000 (0xC00000000000 + 12 * 0x01000000),
    memcs := s1.memcs.map (fun x => (x.1, x.2.afterReset)),
    irtr := { s1.irtr with latched := [] },
    tables := [], detached := s1.tables.foldl (fun d x => Sparse.set (fun _ => none) d x.1 x.2) s1.detached,
    dup := [], dupKept := s1.dupKept ++ s1.dup,
    strike := r.strike, pipes := [], jobs := [], qpairs := [], journal := none, exports := [], journalCodec := 0, poolGib := 16,
    adminBacklog := [], adminWait := none, snapExport := none, evictedExport := none, camDeltas := [],
    cue := { Cue.reset with number := s1.cue.committed, committed := s1.cue.committed, sealedPipes := s1.cue.sealedPipes },
    pbook := { p with verify := if p.alloc then 1 else 0, due := [] },
    rehearse := { r.rehearse with prepared := s1.rehearse.prepared },
    cams := [], units := [], digs := [], hashes := [], lsu := r.lsu, dmas := [], wings := [], company := Company.reset,
    mdl := { s1.mdl with st := .ready, curtain := false, halt := false, faultCue := 0, standbyOp := none, tjHot := false,
                         vinWarn := false, railsBad := 0 } }
  let s3 := (List.range 22).foldl (fun t m => t.memcInfo m) s2
  (List.range 192).foldl (fun t k => t.coreReset k) s3

/-- RESETS counts and RESET_CAUSE tells a module reset from a hot reset. -/
def State.resetCounted (s : State) (cause : Nat) : State := (s.addReg modctlPage 0x068 1).setReg modctlPage 0x064 (BitVec.ofNat 32 cause)

/-- The function as a hot reset or an FLR leaves it; a containment in force stays (R430, R476, Assumption 26). -/
def State.functionReset (s : State) : State := { s with hep := s.hep.configReset }

/-- A write of MODULE_RESET.KEY (R475, R497). -/
def State.moduleReset (s : State) (key : Nat) : State :=
  if s.mdl.st == .off then s
  else if key % 65536 ≠ 0xA55E then s.err modctlPage 0x0100 key 0 0
  else if s.mdl.st == .recovery then s.err modctlPage 0x0101 key 0 0
  else s.blocksReset.resetCounted 4

/-- A hot reset (R430, R473, R475, R479): it also resets the function and ends a containment. -/
def State.hotReset (s : State) : State :=
  if s.mdl.st == .off then s
  else
    let f := { s.functionReset with hep := { s.functionReset.hep with frozen := false } }
    if s.mdl.st == .recovery then f else f.blocksReset.resetCounted 3

/-! ## FLR (R430, R431, R476) -/

/-- The pages that an FLR resets: HEP, QENG and every QCTX page (R476). -/
def flrPages : List Nat := hepPage :: qengPage :: (List.range 1024).map qctxPage

/-- A function-level reset: the queues, their completions, jobs and entries not yet sealed are gone, and so are the admin commands that
waited; the running cue commits and its completions are discarded; cues run on (R187, R430, R431, R476). QENG.HALT, which MODCTL shows, stays
with the halt (R424); the other sticky fields of the function's pages are reset with them (Assumption 144). -/
def State.flr (s : State) : State :=
  if s.mdl.st == .off then s
  else
    let s1 : State := { s with cue := s.cue.keepOnly (fun _ => false) }
    let s2 := s1.jobsDrop (fun _ => true)
    let s3 := if s2.snapExport.isSome then s2.unpin .snapshot else s2
    let held := match s3.adminWait with
      | some w => decide (w.change = .hold)
      | none => false
    let s4 : State := { s3 with
      adminWait := none, adminBacklog := [], snapExport := none, evictedExport := none, camDeltas := [], journal := none, exports := [],
      cue := { s3.cue with mute := decide (s3.cue.phase ≠ .none) || !s3.cue.release.isEmpty, holdReq := s3.cue.holdReq && !held } }
    let s5 : State := { flrPages.foldl (fun t p => t.resetPage p) s4 with qpairs := [] }
    ((s5.setReg qengPage 0x06C (s.reg qengPage 0x06C)).setReg qengPage 0x070 (s.reg qengPage 0x070)).functionReset

/-! ## Standby (R481–R484) -/

/-- The first condition of R482 that fails, if one does. -/
def State.notQuiet (s : State) : Option Nat :=
  if s.cue.unit ≠ 1 ∧ s.cue.unit ≠ 3 then some 1
  else if !s.strike.pins.isEmpty then some 2
  else if s.units.any (fun p => p.2.busy) || s.digs.any (fun p => p.2.busy) || !s.lsu.sign.isEmpty || !s.lsu.verify.isEmpty ||
      !s.lsu.runs.isEmpty || s.dmas.any (fun p => p.2.run.isSome) then some 3
  else if (List.range 4).any (fun p => [4, 5, 6].contains (s.lstate p)) then some 4
  else none

/-- PWR.STANDBY.REQ written 1 (R473, R482). Elsewhere than in READY and SERVICE it changes nothing. -/
def State.standbyRequest (s : State) : State :=
  let m := s.mdl
  if !(m.st == .ready || m.st == .service) || m.curtain || m.halt || m.standbyOp.isSome then s
  else match s.notQuiet with
    | some n => s.err pwrPage 0x0100 n 0 0
    | none => { s with mdl := { m with standbyOp := some (.entering false) } }.setFld pwrPage 0x040 0 0 1

/-- A cluster as entry leaves it: cores drained and waiting, the L2 cleaned and empty, green room, locks and the mode reset (R244, R476, R483). -/
def State.clusterSleeps (s : State) (c : Nat) : State :=
  let s1 := (List.range 16).foldl (fun t k =>
    let t1 := t.drainCore (c * 16 + k)
    let x := t1.coreAt (c * 16 + k)
    t1.setCoreAt (c * 16 + k) { x with held := none, resv := none }) s
  let s0 := (s1.l2MaintAll c .cleanInval).setL2Op c none
  let s2 := s0.setCluster c { s0.cluster c with l1d := [], l1i := [] }
  let base := 0xC00000000000 + c * 0x01000000
  let s3 : State := { s2 with mem := Sparse.clear s2.mem base (base + 0x01000000) }
  (((s3.setReg (l2Page c) 0x040 0).setFld (l2Page c) 0x00C 15 12 0).setReg (l2Page c) 0x400 0).setFld (pageOf .clu c) 0x008 7 4 0

/-- Standby entry completes; an exit asked for meanwhile follows at once (R483, R484). -/
def State.standbyIn (s : State) : State :=
  match s.mdl.standbyOp with
  | some (.entering after) =>
    let s1 := (List.range 12).foldl (fun t c => t.clusterSleeps c) s
    let s2 := (List.range 22).foldl (fun t m => t.setMemc m { t.memc m with selfRefresh := true, op := none }) s1
    ({ s2 with mdl := { s2.mdl with st := .standby, before := s.mdl.st, standbyOp := if after then some .exiting else none } } : State).evt
      pwrPage 3
  | _ => s

/-- PWR.STANDBY.REQ written 0, or a management wake (R473, R484). -/
def State.standbyExit (s : State) : State :=
  let s1 := s.setFld pwrPage 0x040 0 0 0
  let m := s.mdl
  match m.standbyOp with
  | some (.entering _) => { s1 with mdl := { m with standbyOp := some (.entering true) } }
  | some .exiting => s1
  | none => if m.st == .standby then { s1 with mdl := { m with standbyOp := some .exiting } } else s1

/-- Standby exit completes: the controllers serve traffic, the cores are reset and their pages with them, and what the host recorded is
served (R267, R476, R481, R483, Assumption 25). Management requests follow. -/
def State.standbyOut (s : State) : State :=
  if s.mdl.standbyOp ≠ some .exiting then s
  else
    let s1 := (List.range 22).foldl (fun t m => if (t.memc m).unit = 0 then t else t.setMemc m { t.memc m with selfRefresh := false }) s
    let s2 := (List.range 192).foldl (fun t k => (t.resetPage (corePage k)).coreReset k) s1
    let s3 : State := { s2 with mdl := { s2.mdl with st := s.mdl.before, standbyOp := none } }
    ((s3.setFld pwrPage 0x040 0 0 0).evt pwrPage 4).hostReturns

/-! ## Sensors (R493, R498, R514, R519, R520) -/

/-- A warning begins: WARNINGS counts. -/
def State.warned (s : State) : State := s.addReg pwrPage 0x058 1

/-- A sensor is read: its register shows it, and a warning begins or ends (R258, R493, R498). -/
def State.sense (s : State) (x : SensorReading) : State :=
  let m := s.mdl
  if m.st == .off then s
  else match x with
    | .junction sensor deg =>
      let d := deg.toNat
      let s1 := s.setReg pwrPage 0x044 (BitVec.ofNat 32 (sensor.toNat * 256 + d))
      let s2 := if s.fld pwrPage 0x048 7 0 < d then s1.setReg pwrPage 0x048 (BitVec.ofNat 32 d) else s1
      if 95 ≤ d ∧ m.tjHot = false then (({ s2 with mdl := { m with tjHot := true } } : State).warned).evt pwrPage 0
      else if d < 90 ∧ m.tjHot = true then ({ s2 with mdl := { m with tjHot := false } } : State).evt pwrPage 1
      else s2
    | .vin mv =>
      let v := mv.toNat
      let bad := decide (v < 46000) || decide (58000 < v)
      let s1 := { s with mdl := { m with vinWarn := bad } }.setReg pwrPage 0x04C (BitVec.ofNat 32 v)
      if bad && !m.vinWarn then s1.warned.evt pwrPage 2 else s1
    | .rail r p =>
      let b := 2 ^ r.val
      let was := Word.bit r.val m.railsBad
      if 30 < p then
        let s1 := { s with mdl := { m with railsBad := Nat.lor m.railsBad b } }.setReg pwrPage 0x054
          (s.reg pwrPage 0x054 ||| BitVec.ofNat 32 b)
        if was then s1 else s1.warned
      else { s with mdl := { m with railsBad := if was then m.railsBad - b else m.railsBad } }
    | .dram k deg => if 85 < deg.toNat then s.dramHot k.val deg.toNat
        else s.setReg (memcPage k.val) 0x060 (BitVec.ofNat 32 deg.toNat)

/-- The fault class of a reading beyond its curtain limit, held for the time R493 gives. -/
def curtainClass : SensorReading → Option Nat
  | .junction _ d => if 105 ≤ d.toNat then some 5 else none
  | .vin mv => if mv.toNat < 44000 ∨ 59000 < mv.toNat then some 6 else none
  | .rail _ p => if 50 < p then some 6 else none
  | .dram _ d => if 95 ≤ d.toNat then some 5 else none

/-- A reading beyond its curtain limit drops the curtain in the PWR page (R485, R493). -/
def State.senseLimit (s : State) (x : SensorReading) : State :=
  match curtainClass x with
  | some c => (s.sense x).enterCurtain c pwrPage
  | none => s.sense x

/-- MSTATE as MODCTL and the indicators show it: the halt before the curtain, and both before the module state (R473, R519). -/
inductive MShown where
  | off | boot | ready | service | standby | curtain | halt | recovery
  deriving DecidableEq, Repr

/-- The state shown (R473, R491, R519). -/
def Module.shown (m : Module) : MShown :=
  if m.halt then .halt
  else if m.curtain then .curtain
  else match m.st with
    | .off => .off
    | .boot => .boot
    | .ready => .ready
    | .service => .service
    | .standby => .standby
    | .recovery => .recovery

/-- Whether HOST_ALERT_N is driven low (R258, R493, R514). -/
def State.hostAlert (s : State) : Bool :=
  s.mdl.tjHot || s.mdl.vinWarn || s.mdl.railsBad != 0 || (List.range 22).any (fun m => s.fld (memcPage m) 0x060 8 8 == 1) ||
    s.mdl.shown == .curtain || s.mdl.shown == .halt || s.mdl.shown == .recovery

/-- How an indicator appears (R519). -/
inductive Lamp where
  | off | amberSlow | green | greenSlow | greenFast | amber | amberFast | amberGreen | blue
  deriving DecidableEq, Repr

/-- The STATUS indicator (R519). -/
def State.statusLamp (s : State) : Lamp := match s.mdl.shown with
  | .off => .off
  | .boot => .amberSlow
  | .ready => .greenSlow
  | .service => .green
  | .standby => .greenFast
  | .curtain => .amber
  | .halt => .amberFast
  | .recovery => .amberGreen

/-- A wing indicator (R519). -/
def State.wingLamp (s : State) (p : Nat) : Lamp :=
  let l := s.lstate p
  if l = 0 then .off else if l = 5 then .green else if l = 6 then .amberFast else if l = 7 then .amber else .greenSlow

/-- The REMOVE indicator (R519, R520). -/
def State.removeLamp (s : State) : Lamp :=
  let exported := !s.pbook.alloc || s.pbook.exported == s.pbook.next
  let follower := s.role == 2 || (s.role == 1 && s.redundant)
  let lit := match s.mdl.shown with
    | .off => true
    | .recovery => true
    | .ready => s.tables.all (fun p => p.2.isNone) && exported && !follower
    | .curtain => exported && !follower
    | .halt => exported && !follower
    | _ => false
  if lit then .blue else .off

/-! ## The reference clock (R513) -/

/-- REFCLK stops: the link goes down and the HEP contains; the sideband filters hold their levels. -/
def State.refclkStop (s : State) : State := ({ s with irtr := { s.irtr with refclk := false } } : State).hepFreeze true 0

/-- REFCLK returns: the filters run again. -/
def State.refclkBack (s : State) : State := { s with irtr := { s.irtr with refclk := true } }

/-! ## Soft resets of MODCTL and PWR -/

/-- MODCTL SOFT_RESET clears SKEW_COUNT and RESETS (the MODCTL page). -/
def State.modctlSoftReset (s : State) : State := s.zeroRegs modctlPage [0x060, 0x068]

/-- PWR SOFT_RESET clears TJ_PEAK, RAILS and WARNINGS (the PWR page). -/
def State.pwrSoftReset (s : State) : State := s.zeroRegs pwrPage [0x048, 0x054, 0x058]

/-! ## The commands -/

/-- PERST_DEASSERT. -/
def execPerstDeassert (s : State) : Host.Outcome State Fault Refusal := .next s.perstHigh
/-- PERST_ASSERT. -/
def execPerstAssert (s : State) : Host.Outcome State Fault Refusal := .next s.perstLow
/-- BOOT_COMPLETE. -/
def execBootComplete (r : BootReport) (s : State) : Host.Outcome State Fault Refusal := .next (s.bootComplete r)
/-- SUPPLY_LOSS. -/
def execSupplyLoss (s : State) : Host.Outcome State Fault Refusal := .next s.supplyLow
/-- SUPPLY_RESTORED. -/
def execSupplyRestored (absentMs : Nat) (s : State) : Host.Outcome State Fault Refusal := .next (s.supplyHigh absentMs)
/-- THERMAL_TRIP. -/
def execThermalTrip (s : State) : Host.Outcome State Fault Refusal := .next s.trip
/-- SENSOR_WARNING. -/
def execSensorWarning (x : SensorReading) (s : State) : Host.Outcome State Fault Refusal := .next (s.sense x)
/-- SENSOR_CURTAIN_LIMIT. -/
def execSensorCurtainLimit (x : SensorReading) (s : State) : Host.Outcome State Fault Refusal := .next (s.senseLimit x)
/-- WATCHDOG_EXPIRY: the stage manager's own watchdog, class 9 (R485). -/
def execWatchdogExpiry (s : State) : Host.Outcome State Fault Refusal := .next (s.enterCurtain 9 modctlPage)
/-- HOT_RESET. -/
def execHotReset (s : State) : Host.Outcome State Fault Refusal := .next s.hotReset
/-- FLR. -/
def execFlr (s : State) : Host.Outcome State Fault Refusal := .next s.flr
/-- MODULE_RESET. -/
def execModuleReset (key : Word32) (s : State) : Host.Outcome State Fault Refusal := .next (s.moduleReset key.toNat)
/-- PBOOK_VERIFY_DONE. -/
def execPbookVerifyDone (s : State) : Host.Outcome State Fault Refusal := .next s.pbVerifyDone
/-- STANDBY_REQUEST. -/
def execStandbyRequest (s : State) : Host.Outcome State Fault Refusal := .next s.standbyRequest
/-- STANDBY_ENTRY_DONE. -/
def execStandbyEntryDone (s : State) : Host.Outcome State Fault Refusal := .next s.standbyIn
/-- STANDBY_EXIT_REQUEST. -/
def execStandbyExitRequest (s : State) : Host.Outcome State Fault Refusal := .next s.standbyExit
/-- REFCLK_STOP. -/
def execRefclkStop (s : State) : Host.Outcome State Fault Refusal := .next s.refclkStop
/-- REFCLK_RESTORE. -/
def execRefclkRestore (s : State) : Host.Outcome State Fault Refusal := .next s.refclkBack
/-- MODCTL_SOFT_RESET. -/
def execModctlSoftReset (s : State) : Host.Outcome State Fault Refusal := .next s.modctlSoftReset
/-- PWR_SOFT_RESET. -/
def execPwrSoftReset (s : State) : Host.Outcome State Fault Refusal := .next s.pwrSoftReset

end Sys2Proof.Machine
end

