-- ==== Sys2Proof/Machine/WingLink.lean ====
section
/-!
DEFINITION. A wing port from DOWN to ACTIVE (R436, R441, R445–R448, R471): training, HELLO and AUTH, acceptance and refusal, the choice of a
lead, and the delivery of frames.
-/
namespace Sys2Proof.Machine
open Sys2Proof

/-! ## Training (R436) -/

/-- The level conditions of a port that leaves DOWN: EN, a MODE and PRESENT_N low (R436). -/
def State.wingWanted (s : State) (p : Nat) : Bool :=
  decide (s.fld (wingPage p) 0x008 0 0 = 1) && s.wingMode p != 0 && !s.sideLevel p true

/-- A port in DOWN whose conditions hold starts DETECT (R436). -/
def State.wingTry (s : State) (p : Nat) : State :=
  if s.lstate p = 0 ∧ s.wingWanted p = true then s.setLstate p 1 else s

/-- A write of WING.CTL (R436, R471): a new MODE only on a port that is DOWN; EN = 0 takes the port DOWN. -/
def State.wingCtl (s : State) (p : Nat) (v : Word32) : State :=
  let pg := wingPage p
  let mode := Word.bits 7 4 v.toNat
  if mode ≠ s.wingMode p ∧ s.lstate p ≠ 0 then s.err pg 0x0101 0x008 0 0
  else if 3 < mode then s.err pg 0x0100 0x008 0 0
  else
    let en := Word.bits 0 0 v.toNat
    let s1 := (s.setFld pg 0x008 7 4 mode).setFld pg 0x008 0 0 en
    if en = 0 then s1.wingDown p else if s1.lstate p = 0 then (s1.setLstate p 0).wingTry p else s1

/-- Receivers are detected on all 8 lanes. A port that went DOWN with its conditions still holding is in DETECT again (R436). -/
def State.wingDetect (s : State) (p : Nat) : State :=
  let s1 := s.wingTry p
  if s1.lstate p = 1 then s1.setLstate p 2 else s

/-- Every lane's error rate is low enough (R436). -/
def State.wingEqualized (s : State) (p : Nat) : State := if s.lstate p = 2 then s.setLstate p 3 else s

/-- This module's HELLO on a port, with a fresh NONCE (R445). -/
def State.helloBytes (s : State) (p : Nat) (nonce : List Byte) : List Byte :=
  let ident := s.reg companyPage 0x040
  let shards := (List.range 256).map (fun i => BitVec.ofNat 8 (s.shardRank i))
  let epoch := match s.keys.kt with
    | some k => k.1
    | none => 0
  fit 256 (Word.leBytes 2 0x9192 ++ [0xB0#8, 0x02#8] ++ Word.leBytes 1 s.build.ordering ++ Word.leBytes 1 p ++
    Word.leBytes 1 (s.wingMode p) ++ Word.leBytes 1 s.role ++
    [if 2 ≤ s.companyMode then BitVec.ofNat 8 s.rank else 0xFF#8] ++ Word.leBytes 1 s.members ++
    [if s.cue.startedEver then 1#8 else 0#8] ++ List.replicate 5 0 ++ Word.leBytes 8 s.build.serial ++
    Word.leBytes 4 ident.toNat ++ Word.leBytes 4 (s.reg companyPage 0x044).toNat ++ fit 32 (keyHash Config.identityPub) ++ fit 32 nonce ++
    Word.leBytes 8 s.cue.committed ++ shake256 64 shards ++ Word.leBytes 4 epoch)

/-- ALIGN is reached: a training port enters HELLO with every credit granted and sends its HELLO; a retrained one is ACTIVE again and
replays from its oldest unacknowledged frame (R436, R439). -/
def State.wingAligned (s : State) (p : Nat) (delay : Nat) : State :=
  if s.lstate p = 6 then s.setLstate p 5
  else if s.lstate p = 3 then
    let (nonce, s1) := (s.setReg (wingPage p) 0x058 (BitVec.ofNat 32 delay)).freeBytes 32
    let hello := s1.helloBytes p nonce
    ((s1.setWing p { Wing.reset with tag := (s1.wing p).tag, credits := grantedCredits, myHello := hello }).setLstate p 4).wingSend p 0x01 0 hello
  else s

/-- DETECT or EQUALIZE has lasted 50 ms (R436). -/
def State.wingTrainTimeout (s : State) (p : Nat) : State :=
  if s.lstate p = 1 ∨ s.lstate p = 2 then (s.wingDown p).addReg (wingPage p) 0x050 1 else s

/-- An ACTIVE port has replayed too often without progress, or lost FEC lock (R436). -/
def State.wingRetrain (s : State) (p : Nat) : State :=
  if s.lstate p = 5 then ((s.setLstate p 6).addReg (wingPage p) 0x04C 1).evt (wingPage p) 3 else s

/-- RETRAIN has lasted 5 ms: the port departs (R436, R448). -/
def State.wingRetrainTimeout (s : State) (p : Nat) : State := if s.lstate p = 6 then s.wingDown p else s

/-- A filtered PRESENT_N high (R294, R436). -/
def State.wingAbsent (s : State) (p : Nat) : State := (s.sideChange p true true).wingDown p

/-- WING SOFT_RESET forces DOWN and clears the counters (R436, the WING page). -/
def State.wingSoftReset (s : State) (p : Nat) : State :=
  (s.wingDown p).zeroRegs (wingPage p) [0x044, 0x048, 0x04C, 0x050, 0x054]

/-! ## Delivery (R437, R438, R440, R441) -/

/-- The virtual channel of a frame type (R439). -/
def vcOf (typ : Nat) : Nat :=
  if typ < 0x10 then 0 else if typ < 0x20 then 1 else if typ < 0x28 then 2 else if typ < 0x30 then 3 else if typ < 0x40 then 4 else 5

/-- A frame is received intact and in order, and a whole message is passed on. A fragment of another type than its message's first, or MORE
on a type that has no fragments, is a protocol error and takes the port DOWN (R438, R440, R441). -/
def State.receive (s : State) (p typ : Nat) (h : FrameHead) (payload : List Byte) (act : State → List Byte → State) : State :=
  if !s.wingLive p then s
  else
    let vc := vcOf typ
    let len := (payload.length + 7) / 8 * 8
    let s1 := s.wingAccept p h.ack.toNat h.credVc.toNat h.cred.toNat typ vc len
    let w := s1.wing p
    let begun := (w.partType.find? (fun x => x.1 == vc)).map Prod.snd
    let have_ := ((w.partBuf.find? (fun x => x.1 == vc)).map Prod.snd).getD []
    let wrong := match begun with
      | some t => t != typ
      | none => h.more && !fragments typ
    if wrong then s1.wingDown p
    else
      let rest := { w with partType := w.partType.filter (fun x => x.1 != vc), partBuf := w.partBuf.filter (fun x => x.1 != vc) }
      if h.more then
        s1.setWing p { rest with partType := rest.partType ++ [(vc, typ)], partBuf := rest.partBuf ++ [(vc, have_ ++ payload)] }
      else act (s1.setWing p rest) (have_ ++ payload)

/-- As `receive`, for a protocol frame, which only an ACTIVE port passes on. -/
def State.deliverFrame (s : State) (p typ : Nat) (h : FrameHead) (payload : List Byte) (act : State → List Byte → State) : State :=
  s.receive p typ h payload (fun t b => if t.lstate p = 5 then act t b else t)

/-- A link error: the frame and its successors are discarded, and a NAK names the frame expected, at most one per microsecond (R441). -/
def State.wingLinkError (s : State) (p : Nat) (nakDue : Bool) : State :=
  if !s.wingLive p then s
  else
    let s1 := s.addReg (wingPage p) 0x048 1
    if nakDue then s1.wingSend p 0x05 0 (Word.leBytes 4 (s1.wing p).rxSeq ++ List.replicate 4 0) else s1

/-- The sender replays (R441); a replay of a pair link counts as an error of the cue (R453). -/
def State.replayNow (s : State) (p : Nat) : State :=
  if !s.wingLive p || (s.wing p).replay.isEmpty then s
  else
    let s1 := s.wingReplay p
    if s.wingMode p = 1 ∨ s.wingMode p = 3 then s1.errorSeen else s1

/-! ## HELLO, AUTH and acceptance (R445–R447) -/

/-- A partner's HELLO is received: the WPEER page shows it once it is judged, and this module's AUTH answers it (R445, R446). -/
def State.helloReceived (s : State) (p : Nat) (b : List Byte) : State :=
  if s.lstate p ≠ 4 then s
  else
    let hello := fit 256 b
    let s1 := s.setWing p { s.wing p with peerHello := hello }
    match s1.idSign (ascii "STXWING1" ++ (s1.wing p).myHello ++ hello) lsuAll with
    | (some sig, t) => t.wingSend p 0x02 0 (fit 1793 Config.identityPub ++ List.replicate 3 0 ++ Word.leBytes 2 sig.length ++
        List.replicate 2 0 ++ sig)
    | (none, t) => t

/-- Whether an AUTH is valid (R446). -/
def State.authValid (s : State) (p : Nat) (b : List Byte) : Bool :=
  let w := s.wing p
  let pk := b.take 1793
  let sig := slice b 1800 (field b 1796 2)
  let pinned := (List.range 8).flatMap (fun i => Word.leBytes 4 (s.reg (wingPage p) (0x408 + 4 * i)).toNat)
  shake256 32 pk == slice w.peerHello 32 32 && falconVerify pk (ascii "STXWING1" ++ w.peerHello ++ w.myHello) sig &&
    (allZero pinned || pinned == shake256 32 pk)

/-- The partner's rank on a port, as its HELLO gave it. -/
def State.peerRank (s : State) (p : Nat) : Nat := field (s.wing p).peerHello 8 1

/-- Whether roles and ranks are inconsistent (R447, reason 6). -/
def State.roleClash (s : State) (p : Nat) : Bool :=
  let peer := (s.wing p).peerHello
  if s.wingMode p = 2 then
    s.peerRank p == s.rank || decide (s.members ≤ s.peerRank p) ||
      (List.range 4).any (fun q => q != p && s.wingMode q == 2 && [5, 6].contains (s.lstate q) && s.peerRank q == s.peerRank p)
  else (field peer 10 1 == 1 && s.cue.startedEver) || (field peer 7 1 == 1 && s.role == 1)

/-- The first check of R447 that fails, as its reason. -/
def State.partnerRefused (s : State) (p : Nat) (auth : List Byte) : Option Nat :=
  let w := s.wing p
  let me := w.myHello
  let he := w.peerHello
  let pair := s.wingMode p == 1 || s.wingMode p == 3
  let casc := s.wingMode p == 2 || s.wingMode p == 3
  if he.take 4 ≠ me.take 4 then some 1
  else if pair && field he 4 1 != field me 4 1 then some 2
  else if field he 24 8 = 0 ∨ field he 24 8 ≠ field me 24 8 then some 3
  else if !s.authValid p auth then some 4
  else if field he 6 1 ≠ s.wingMode p then some 5
  else if s.roleClash p then some 6
  else if casc && (field he 9 1 != s.members || slice he 104 64 != slice me 104 64) then some 7
  else if pair && field he 168 4 != field me 168 4 then some 8
  else none

/-- Whether this module is the lead of the pair on a port (R447): one that runs cues; else as the two desired roles decide, and of two that
desire the same the lower serial. What the partner desires is a free value (Assumption 133). -/
def State.isLeadOn (s : State) (p : Nat) : Bool :=
  let he := (s.wing p).peerHello
  let want := s.fld companyPage 0x04C 1 0
  let wish := Config.partnerWish he % 3
  if s.cue.startedEver then true
  else if field he 10 1 = 1 then false
  else if want = wish then decide (s.build.serial < field he 16 8)
  else decide (want = 1) || decide (wish = 2)

/-- The HELLO of a partner shown on its WPEER page. -/
def State.showPeer (s : State) (p : Nat) : State :=
  (List.range 42).foldl (fun t i => t.setReg (wpeerPage p) (0x040 + 4 * i) (BitVec.ofNat 32 (field (t.wing p).peerHello (4 * i) 4))) s

/-- Whether no lower rank of the cascade is left: rank 0, or the lowest that has not departed (R449, R467). -/
def State.lowestRank (s : State) : Bool := (List.range s.rank).all (fun r => s.company.dropped.contains r)

/-- Whether this module is the cue master (R449): the lead of a pair, rank 0 of a cascade, and of a pair of cascades rank 0 of the lead
cascade. -/
def State.cueMaster (s : State) : Bool :=
  decide (s.role ≤ 1) && (if 2 ≤ s.companyMode then s.lowestRank else s.companyMode != 0)

/-- CUE_MASTER and CASCADE_MASTER (R449). -/
def State.setMasters (s : State) : State :=
  (s.setFld companyPage 0x00C 10 10 (if s.cueMaster then 1 else 0)).setFld companyPage 0x00C 9 9
    (if decide (2 ≤ s.companyMode) && s.lowestRank then 1 else 0)

/-- Whether this module is a follower, so that its cues follow CUE_SYNC: an understudy, or a cascade member that is not the cue master
(R72, R449). -/
def State.mustFollow (s : State) : Bool :=
  s.role == 2 || s.role == 3 || s.role == 4 || (decide (2 ≤ s.companyMode) && !s.cueMaster)

/-- CUE.CTL[7:4] as the pair and cascade protocols write it (R72, R449); a module without a company keeps it. -/
def State.setTimebase (s : State) : State :=
  if s.companyMode = 0 then s else s.setFld (pageOf .cue 0) 0x008 7 4 (if s.mustFollow then 1 else 0)

/-- A partner joins a pair: a follower will catch up, with its prompt book areas allocated (R447, R462). -/
def State.joinPair (s : State) (p : Nat) : State :=
  if s.isLeadOn p then
    let s1 := if s.role = 0 then s.setRole 1 else s
    if s1.redundant || s1.role != 1 then s1 else { s1 with company := { s1.company with peerBehind := true } }
  else if s.role = 0 then
    let s1 := s.setRole 3
    if s1.pbook.alloc then s1 else s1.pbAllocate
  else s

/-- The stage manager judges a partner: ACTIVE, or BYE with the reason and REFUSED (R436, R447). -/
def State.authReceived (s : State) (p : Nat) (b : List Byte) : State :=
  if s.lstate p ≠ 4 ∨ (s.wing p).peerHello = [] then s
  else
    let pg := wingPage p
    match s.partnerRefused p b with
    | some r =>
      let s1 := (s.wingSend p 0x03 0 (Word.leBytes 2 r)).showPeer p
      (((s1.setWing p { s1.wing p with authed := some false }).setLstate p 7).setFld pg 0x05C 7 0 r).evt pg 2
    | none =>
      let s1 := ((s.setWing p { s.wing p with authed := some true }).showPeer p).setLstate p 5
      let s2 := (s1.evt pg 0).wingPump p
      (if s.wingMode p = 2 then s2 else s2.joinPair p).setMasters

/-- A BYE: the port goes DOWN, with the reason kept (R436). -/
def State.byeReceived (s : State) (p reason : Nat) : State := (s.setFld (wingPage p) 0x05C 7 0 reason).wingDown p

/-! ## The commands -/

/-- WING_ENABLE: CTL is written with EN and a MODE. -/
def execWingEnable (p : Fin 4) (mode : BitVec 4) (s : State) : Host.Outcome State Fault Refusal :=
  .next (s.wingCtl p.val (BitVec.ofNat 32 (mode.toNat * 16 + 1)))
/-- RECEIVER_DETECT. -/
def execReceiverDetect (p : Fin 4) (s : State) : Host.Outcome State Fault Refusal := .next (s.wingDetect p.val)
/-- EQUALIZE_DONE. -/
def execEqualizeDone (p : Fin 4) (s : State) : Host.Outcome State Fault Refusal := .next (s.wingEqualized p.val)
/-- ALIGN_DONE. -/
def execAlignDone (p : Fin 4) (delayNs : BitVec 16) (s : State) : Host.Outcome State Fault Refusal := .next (s.wingAligned p.val delayNs.toNat)
/-- LINK_TRAIN_TIMEOUT. -/
def execLinkTrainTimeout (p : Fin 4) (s : State) : Host.Outcome State Fault Refusal := .next (s.wingTrainTimeout p.val)
/-- LINK_RETRAIN. -/
def execLinkRetrain (p : Fin 4) (s : State) : Host.Outcome State Fault Refusal := .next (s.wingRetrain p.val)
/-- RETRAIN_TIMEOUT. -/
def execRetrainTimeout (p : Fin 4) (s : State) : Host.Outcome State Fault Refusal := .next (s.wingRetrainTimeout p.val)
/-- PRESENT_N_HIGH. -/
def execPresentNHigh (p : Fin 4) (s : State) : Host.Outcome State Fault Refusal := .next (s.wingAbsent p.val)
/-- WING_SOFT_RESET. -/
def execWingSoftReset (p : Fin 4) (s : State) : Host.Outcome State Fault Refusal := .next (s.wingSoftReset p.val)
/-- HELLO. -/
def execHello (p : Fin 4) (h : FrameHead) (payload : List Byte) (s : State) : Host.Outcome State Fault Refusal :=
  .next (s.receive p.val 0x01 h payload (fun t b => t.helloReceived p.val b))
/-- AUTH. -/
def execAuth (p : Fin 4) (h : FrameHead) (payload : List Byte) (s : State) : Host.Outcome State Fault Refusal :=
  .next (s.receive p.val 0x02 h payload (fun t b => t.authReceived p.val b))
/-- BYE: it takes a port DOWN from any state, REFUSED among them (R436). -/
def execBye (p : Fin 4) (h : FrameHead) (reason : BitVec 16) (s : State) : Host.Outcome State Fault Refusal :=
  .next (if s.lstate p.val = 7 then s.byeReceived p.val reason.toNat
    else s.receive p.val 0x03 h (Word.leBytes 2 reason.toNat) (fun t _ => t.byeReceived p.val reason.toNat))
/-- NAK: the frames before the one it names have arrived, and the rest are replayed. -/
def execNak (p : Fin 4) (h : FrameHead) (fseq : Word32) (s : State) : Host.Outcome State Fault Refusal :=
  .next (s.receive p.val 0x05 h (Word.leBytes 8 fseq.toNat) (fun t _ => t.replayNow p.val))
/-- CREDIT. -/
def execCredit (p : Fin 4) (h : FrameHead) (s : State) : Host.Outcome State Fault Refusal := .next (s.receive p.val 0x06 h [] (fun t _ => t))
/-- REPLAY_TIMEOUT. -/
def execReplayTimeout (p : Fin 4) (s : State) : Host.Outcome State Fault Refusal := .next (s.replayNow p.val)
/-- WING_LINK_ERROR. -/
def execWingLinkError (p : Fin 4) (nakDue : Bool) (s : State) : Host.Outcome State Fault Refusal := .next (s.wingLinkError p.val nakDue)

end Sys2Proof.Machine
end

