-- ==== Sys2Proof/Machine/Company.lean ====
section
/-!
DEFINITION. The company protocols (R449–R470): lockstep and its digests, yielding and promotion, changes, catch-up, cascades and the remote
windows, as the frames of the wing ports bring them.
-/
namespace Sys2Proof.Machine
open Sys2Proof

/-- The company state replaced. -/
def State.setCo (s : State) (c : Company) : State := { s with company := c }

/-! ## Lockstep (R451–R454) -/

/-- An ARRIVAL message (R439). -/
def arrivalBytes (e : Entry) : List Byte :=
  Word.leBytes 2 e.sq ++ [0, 0] ++ Word.leBytes 4 e.idx ++ Word.leBytes 4 e.data.length ++ List.replicate 4 0 ++ fit 64 e.sqe ++ e.data

/-- An entry as an ARRIVAL message gives it. -/
def arrivalEntry (b : List Byte) : Entry := { sq := field b 0 2, idx := field b 4 4, sqe := slice b 16 64, data := slice b 80 (field b 8 4) }

/-- Whether this module takes a lead's entries and seals: an understudy, or a catching-up module that has its LOCK (R451, R462). -/
def State.takesSeals (s : State) : Bool := s.role == 2 || (s.role == 3 && s.company.lockAt.isSome)

/-- An ARRIVAL: the first intact copy is kept (R451). -/
def State.arrivalReceived (s : State) (b : List Byte) : State :=
  let e := arrivalEntry b
  if !s.takesSeals || s.company.arrivals.any (fun x => x.sq == e.sq && x.idx == e.idx) then s
  else s.setCo { s.company with arrivals := s.company.arrivals ++ [e] }

/-- A SEAL message (R439). -/
def sealBytes (n : Nat) (set : List Sealed) (changes : List Nat) : List Byte :=
  Word.leBytes 8 n ++ Word.leBytes 4 set.length ++ Word.leBytes 4 changes.length ++
    set.flatMap (fun x => Word.leBytes 2 x.entry.sq ++ Word.leBytes 2 x.disp ++ Word.leBytes 4 x.entry.idx ++ List.replicate 8 0) ++
    changes.flatMap (Word.leBytes 8)

/-- A SEAL as its message gives it. -/
def sealMsgOf (b : List Byte) : SealMsg :=
  let n := field b 8 4
  { cue := field b 0 8,
    ents := (List.range n).map (fun i => (field b (16 + 16 * i) 2, field b (18 + 16 * i) 2, field b (20 + 16 * i) 4)),
    changes := (List.range (field b 12 4)).map (fun i => field b (16 + 16 * n + 8 * i) 8) }

/-- A SEAL: the first intact copy is kept until its cue (R451). -/
def State.sealReceived (s : State) (b : List Byte) : State :=
  let m := sealMsgOf b
  if !s.takesSeals || s.company.seals.any (fun x => x.cue == m.cue) then s
  else s.setCo { s.company with seals := s.company.seals ++ [m] }

/-- A ROLE message (R439). -/
def State.roleMsg (s : State) (role cue : Nat) : List Byte :=
  Word.leBytes 1 role ++ [if 2 ≤ s.companyMode then BitVec.ofNat 8 s.rank else 0xFF#8] ++ List.replicate 6 0 ++ Word.leBytes 8 cue

/-- BUSY of the COMPANY page: a catch-up is in progress (the COMPANY page, Assumption 136). -/
def State.setCatching (s : State) (b : Bool) : State := s.setFld companyPage 0x00C 8 8 (if b then 1 else 0)

/-- The understudy leaves lockstep: it is told DESYNC, and REDUNDANT reads 0 until lockstep returns; it will catch up again (R454). -/
def State.desyncPeer (s : State) : State :=
  let s1 := (s.wingSendAll s.pairLinks 0x08 0 (s.roleMsg 4 s.cue.number)).unpin .catchup
  ((s1.setCo { s1.company with catchS := none, lockAt := none, peerDigest := none, peerBehind := true }).setCatching false).setRedundant false

/-- Lockstep begins at a cue: REDUNDANT, LOCK_CUE and the event; the understudy's prompt book writes a START record (R462). -/
def State.lockstep (s : State) (m : Nat) : State :=
  let s1 := ((((s.setCo { s.company with catchS := none, lockAt := none, peerBehind := false }).unpin .catchup).setCatching false).setRedundant true).setWide companyPage 0x050 m
  let s2 := if s.role = 3 then (s1.setRole 2).writeRec { s1.startRec with cue := m } else s1
  s2.evt companyPage 0

/-- A DIGEST message (R439, R453). -/
def State.digestMsg (s : State) : List Byte :=
  Word.leBytes 8 s.cue.number ++ Word.leBytes 4 (if s.company.faultSeen then 1 else 0) ++ List.replicate 4 0 ++
    fit 64 s.cue.digests.inp ++ fit 64 s.cue.digests.out ++ fit 64 s.cue.digests.delta

/-- Whether the digests of the running cue are compared: in lockstep, or from the cue at which it begins (R453, R462). -/
def State.compares (s : State) : Bool :=
  s.redundant || (match s.company.lockAt with
    | some m => decide (m ≤ s.cue.number)
    | none => false)

/-- The peer's digests of the cue that waits for release are compared (R453, R454, R462): equal ones let a lead release; different ones drop
the curtain on a lead that alone saw a fault, and otherwise put the understudy out of lockstep. -/
def State.digestCheck (s : State) : State :=
  match s.company.peerDigest with
  | none => s
  | some (n, fault, d) =>
    if s.cue.phase ≠ .swept ∨ n ≠ s.cue.number ∨ s.compares = false then s
    else
      let (beats, s0) := s.freeW
      let s1 := (s0.setCo { s0.company with peerDigest := none }).setFld commitPage 0x054 15 8 (beats.toNat % 256)
      let same := d == s.cue.digests
      if s.role = 1 then
        if same then
          let s2 : State := { s1 with cue := { s1.cue with peerOk := true } }
          if s.redundant then s2 else s2.lockstep n
        else
          let s2 := (s1.addReg companyPage 0x060 1).evt companyPage 3
          if s.company.faultSeen && !fault then ((s2.setRedundant false).yieldLead 4).enterCurtain 7 companyPage
          else
            let s3 := s2.desyncPeer
            { s3 with cue := { s3.cue with peerOk := true } }
      else if s.role = 3 ∧ same = true then s1.lockstep n
      else s1

/-- A DIGEST frame (R453). -/
def State.digestReceived (s : State) (n flags : Nat) (d : Digests) : State :=
  (s.setCo { s.company with peerDigest := some (n, Word.bit 0 flags, d) }).digestCheck

/-- A follower stops executing: its running cue and the jobs of the pair are abandoned (R454, R463). -/
def State.stopFollowing (s : State) : State := s.stopCue.jobsDrop (fun _ => true)

/-- The understudy stops executing: it has lost step and will catch up again (R454, R462). -/
def State.loseStep (s : State) : State :=
  let s1 := s.stopFollowing
  ((s1.setCo { s1.company with arrivals := [], seals := [], deltas := [], loading := false, ready := false, lockAt := none,
                               peerDigest := none }).setRole 4).setRedundant false

/-- A ROLE frame: DESYNC to an understudy, or LEAD from a mirror that has promoted, which orphans a lead member (R454, R468). -/
def State.roleReceived (s : State) (p role : Nat) : State :=
  if role = 4 ∧ (s.role = 2 ∨ s.role = 3) then s.loseStep
  else if role = 1 ∧ s.role = 1 ∧ s.wingMode p = 3 then
    (({ s with cue := { s.cue with holdReq := decide (s.cue.unit = 2), release := [] } } : State).setRole 5).setRedundant false
  else s

/-! ## Failover (R455–R457, R468) -/

/-- An understudy will promote at its next start instant; a mirror tells the other members of its cascade, unless it was told (R457, R468). -/
def State.leadGone (s : State) (told : Bool) : State :=
  if s.role ≠ 2 ∨ s.company.promoting = true then s
  else
    let s1 := s.setCo { s.company with promoting := true }
    if s.companyMode = 3 ∧ told = false then
      s1.wingSendAll (s1.portsIn [2] 5) 0x07 0 (Word.leBytes 8 s.cue.number ++ Word.leBytes 2 5 ++ List.replicate 6 0)
    else s1

/-- A sideband level that passes its filter: PRESENT_N takes a port DOWN or starts it, and ALERT_N on a pair link is a YIELD when none has
come (R294, R436, R456). -/
def State.sideband (s : State) (port : Nat) (present level : Bool) (cycles : Nat) : State :=
  if !s.glitchPasses port present cycles then s
  else
    let fell := s.sideLevel port present && !level
    let s1 := s.sideChange port present level
    if present then (if level then s1.wingDown port else s1.wingTry port)
    else if fell && s.pairLinks.contains port then s1.leadGone false
    else s1

/-! ## Changes (R452) -/

/-- CHANGE_OK (R452): the change is ready for a start instant; an understudy that refuses it leaves lockstep, and the change goes on at the
lead alone. -/
def State.changeAnswered (s : State) (ident result : Nat) : State :=
  let mine := (s.adminWait.bind AdminWait.ident) == some ident || s.camDeltas.any (fun c => c.ident == some ident)
  if !mine then s
  else
    let s1 : State := { s with
      adminWait := s.adminWait.map (fun w => if w.ident = some ident then { w with ok := true } else w),
      camDeltas := s.camDeltas.map (fun c => if c.ident = some ident then { c with ok := true } else c) }
    let s2 := if result ≠ 0 ∧ (s.redundant = true ∨ s.company.lockAt.isSome = true) then s1.desyncPeer.evt companyPage 1 else s1
    s2.changesNow.adminGo

/-- A CHANGE frame: its data is placed at its offset, and the whole change is checked and answered (R438, R452). -/
def State.changeReceived (s : State) (p ident opcode off total : Nat) (data : List Byte) : State :=
  let c := s.company
  if !s.isFollower || c.changes.any (fun x => x.1 == ident) then s
  else
    let have_ := ((c.changeParts.find? (fun x => x.1 == ident)).map Prod.snd).getD []
    let others := c.changeParts.filter (fun x => x.1 != ident)
    if off ≠ have_.length then s
    else
      let all := (have_ ++ data).take total
      if all.length < total then s.setCo { c with changeParts := others ++ [(ident, all)] }
      else
        let result := match s.changeOf (all.take 64) (all.drop 64) with
          | some (.ok _) => 0
          | some (.error r) => r.status
          | none => if opcode = 0x20 then 0 else 1
        let s1 := s.setCo { c with changeParts := others,
                                   changes := if result = 0 then c.changes ++ [(ident, opcode, all)] else c.changes }
        s1.wingSend p 0x13 1 (Word.leBytes 8 ident ++ Word.leBytes 2 result ++ List.replicate 6 0)

/-- The parameters of a START_CUES that the lead sent are in force (R73, R183, Assumption 135). -/
def State.startFollows (s : State) (a : List Byte) : State :=
  let t := s.takeParams
  { t with cue := { t.cue with par := { t.cue.par with
      period := field a 0 2, admits := field a 2 2, cluster := field a 4 2, domain := field a 6 2, stretch := field a 8 1,
      reserve := field a 9 1, act := field a 10 2 } } }

/-- Whether a START_CUES is among the changes that a SEAL names. -/
def State.startNamed (s : State) (ids : List Nat) : Bool := s.company.changes.any (fun x => ids.contains x.1 && x.2.1 == 0x20)

/-- A change that a SEAL or a DELTA names takes effect at a follower, with the cue it is sealed with (R36, R451, R462). -/
def State.changeFollows (s : State) (n : Nat) (ident : Nat) : State :=
  match s.company.changes.find? (fun x => x.1 == ident) with
  | none => s
  | some (_, op, all) =>
    let s1 := s.setCo { s.company with changes := s.company.changes.filter (fun x => x.1 != ident) }
    if op = 0x20 then s1.startFollows (all.drop 64)
    else match s1.changeOf (all.take 64) (all.drop 64) with
    | some (.ok c) =>
      let s2 := match c with
        | .camFull x => if x.full then s1.camWrite x.target true x.mode x.lines else s1
        | _ => s1
      s2.makeChange (all.take 64) c n n
    | _ => s1

/-! ## Catch-up (R462, R463) -/

/-- One CATCHUP section as the lead sends it, on the link whose turn it is: the stream is shared out over the pair links (R462). The spec
gives sections no layout, so its data is a free value (Assumption 27). -/
def State.sendSection (s : State) (turn kind num : Nat) : State :=
  let (v, s1) := s.freeW
  let links := s.pairLinks
  s1.wingSendAll ((links.drop (turn % max 1 links.length)).take 1) 0x31 4 (Word.leBytes 2 kind ++ Word.leBytes 2 num ++ List.replicate 4 0 ++
    Word.leBytes 8 0 ++ Word.leBytes 8 v.toNat)

/-- A catch-up begins at a lead's start instant: its last committed cue is pinned, UNPROTECTED is raised, and the sections are streamed in
their order (R462). -/
def State.catchupBegins (s : State) : State :=
  if s.role ≠ 1 ∨ s.company.peerBehind = false ∨ s.company.catchS.isSome = true ∨ s.pairLinks = [] then s
  else
    let n := s.cue.committed
    let s1 := (((s.setCo { s.company with catchS := some n, lockAt := none }).pin .catchup n).evt companyPage 1).setReg companyPage 0x064 0
    let sects := s.pipes.map (fun p => (0, p.id)) ++ s.keys.slots.map (fun k => (1, k.1)) ++ [(2, 0)] ++
      s.tableList.map (fun t => (3, t.1)) ++ s.tableList.map (fun t => (4, t.1)) ++ [(5, 0), (5, 1), (6, 0)]
    ((sects.zipIdx.foldl (fun t x => t.sendSection x.2 x.1.1 x.1.2) s1).setReg companyPage 0x064 100).setCatching true

/-- The entries of a delta and the change identifiers after it. The trailer is the last place at which the cue, the flags and a COUNT that
equals the entries before it stand together (R67, R439). -/
def parseDelta (n : Nat) : Nat → List DeltaEnt → List Byte → Option (List DeltaEnt × List Byte) → Option (List DeltaEnt × List Byte)
  | 0, _, _, best => best
  | k + 1, es, b, best =>
    let here := decide (16 ≤ b.length) && field b 0 8 == n && decide (field b 8 4 < 8) && field b 12 4 == es.length
    let best1 := if here then some (es, b.drop 16) else best
    let vlen := field b 6 2
    let size := (16 + vlen + 7) / 8 * 8
    if b.length < size ∨ b.length < 16 then best1
    else
      let e : DeltaEnt := { table := field b 0 2, kind := field b 2 1, flags := field b 3 1, col := field b 4 2, row := field b 8 8,
                            val := slice b 16 vlen }
      parseDelta n k (es ++ [e]) (b.drop size) best1

/-- The work of one row of a delta, as the sweep would do it (R67, R462). -/
def State.deltaRow (s : State) (es : List DeltaEnt) (t row : Nat) : Option RowWork :=
  match s.table t with
  | none => none
  | some x =>
    let ins := es.any (fun e => e.kind == 0)
    let start := if ins then x.desc.defaults else match (x.newestOf row).bind x.version with
      | some v => v.cells
      | none => x.desc.defaults
    let cells := es.foldl (fun c e => if e.kind = 1 then c.set e.col e.val else c) start
    let pushes := (es.filter (fun e => e.kind == 2)).map (fun e =>
      ({ col := e.col, val := fit ((x.desc.col e.col).map ColDef.size |>.getD 0) (e.val.drop 8), flags := e.flags } : Push))
    some { table := t, key := .row row, row := row, cells := cells, ins := ins, dead := es.any (fun e => e.kind == 3), order := (0, 0),
           written := (es.filter (fun e => e.kind == 1)).map DeltaEnt.col, started := [], flags := [], pushes := pushes }

/-- A delta is applied: its changes, then its rows; the cue counts as the last committed one (R462). -/
def State.applyDelta (s : State) (n : Nat) (b : List Byte) : State :=
  match parseDelta n (b.length + 1) [] b none with
  | none => s
  | some (es, rest) =>
    let s1 := ((List.range (rest.length / 8)).map (fun i => field rest (8 * i) 8)).foldl (fun t id => t.changeFollows n id) s
    let rows := (es.map (fun e => (e.table, e.row))).eraseDups
    let s2 := rows.foldl (fun (t : State) k =>
      match t.deltaRow (es.filter (fun e => e.table == k.1 && e.row == k.2)) k.1 k.2 with
      | none => t
      | some r =>
        let t1 := t.writeRow n r
        match t1.table k.1 with
        | some x => if r.ins then t1.setTable k.1 (some { x with nextRow := max x.nextRow (k.2 + 1) }) else t1
        | none => t1) s1
    let s3 : State := { s2 with cue := { s2.cue with number := n, committed := n } }
    (s3.setCo { s3.company with appliedTo := n }).setWide commitPage 0x040 n

/-- The deltas that wait are applied in cue order; then READY is sent once (R462). -/
def State.catchApply (s : State) (p : Nat) : Nat → State
  | 0 => s
  | k + 1 =>
    let c := s.company
    if s.role ≠ 3 ∨ c.loading = true then s
    else match c.deltas.find? (fun d => d.1 == c.appliedTo + 1) with
      | some d => ((s.setCo { c with deltas := c.deltas.filter (fun x => x.1 != d.1) }).applyDelta d.1 d.2).catchApply p k
      | none => if c.ready then s
          else ((s.setCo { c with ready := true }).wingSend p 0x33 4 (Word.leBytes 8 c.appliedTo)).evt companyPage 4

/-- A DELTA frame: the first copy waits its turn (R462). -/
def State.deltaReceived (s : State) (p : Nat) (b : List Byte) : State :=
  let n := field b 0 8
  let c := s.company
  if s.role ≠ 3 ∨ n ≤ c.appliedTo ∨ c.deltas.any (fun d => d.1 == n) = true then s
  else (s.setCo { c with deltas := c.deltas ++ [(n, b.drop 8)] }).catchApply p (c.deltas.length + 3)

/-- A CATCHUP section fails a check: what follows is ignored until the catch-up starts again (R463). -/
def State.catchFails (s : State) : State := s.setCo { s.company with loading := false, ready := true, deltas := [] }

/-- A CATCHUP section is loaded (R462). Sections of the duplicate window follow the deltas too, until lockstep (R459, Assumption 134). -/
def State.catchLoad (s : State) (p : Nat) (x : CatchItem) : State :=
  let c := s.company
  match x with
  | .start cue =>
    if !(s.role == 3 || s.role == 4) then s
    else
      let n := cue.toNat
      let s0 := s.stopFollowing
      let s1 : State := { s0 with tables := [], dup := [], cams := [], cue := { s0.cue with number := n, committed := n } }
      ((s1.setCo { c with loading := true, ready := false, deltas := [], arrivals := [], seals := [], lockAt := none, appliedTo := n }).setRole
        3).setWide commitPage 0x040 n
  | .dup sq seq cqe result =>
    if s.role ≠ 3 ∨ s.dup.any (fun d => d.sq == sq && d.seq == seq) = true then s
    else
      let all := s.dup ++ [{ sq := sq, seq := seq, cqe := cqe, result := result, sigs := [] }]
      { s with dup := all.drop (all.length - 2 ^ 20) }
  | x => if !c.loading then s else match x with
    | .pipeline img => match pipeOf img with
      | .ok q => s.placePipe q
      | .error _ => s.catchFails
    | .key w => match s.keyCheck w with
      | .ok (.keyImport slot k _ _) => s.keyApply slot k
      | _ => s.catchFails
    | .params regs shards =>
      let s1 := (regs.foldl (fun t r => t.setReg cuePage r.1 r.2) s).takeParams
      (List.range 64).foldl (fun t i => t.setReg companyPage (0x400 + 4 * i) (BitVec.ofNat 32 (field shards (4 * i) 4))) s1
    | .table d next =>
      if descOk d then s.setTable (tableDefOf d).num (some { Table.empty (tableDefOf d) with nextRow := next }) else s.catchFails
    | .row t row cells rings => match s.table t with
      | some y =>
        let y1 := y.insertRow c.appliedTo row cells false
        s.setTable t (some (if rings.isEmpty then y1 else y1.setRings row (rings.map (fun g => { col := g.1, head := 0, pairs := g.2 }))))
      | none => s.catchFails
    | .cam a mode ents =>
      s.setCam a.val { ents := ents.foldl (fun l e => Sparse.set (fun _ => none) l e.1
        (some { key := e.2.1, care := e.2.2.1, data := e.2.2.2 })) [], mode := mode }
    | .done => (s.setCo { c with loading := false }).catchApply p (c.deltas.length + 2)
    | .start _ => s
    | .dup _ _ _ _ => s

/-- The first READY of a catch-up at its lead: LOCK names the cue two start instants later (R462). -/
def State.readyReceived (s : State) : State :=
  if s.role ≠ 1 ∨ s.company.catchS.isNone = true ∨ s.company.lockAt.isSome = true then s
  else
    let m := s.cue.number + 2
    ((s.setCo { s.company with lockAt := some m }).evt companyPage 4).wingSendAll s.pairLinks 0x34 4 (Word.leBytes 8 m)

/-- LOCK at a catching-up module (R462). -/
def State.lockReceived (s : State) (m : Nat) : State :=
  if s.role = 3 then s.setCo { s.company with lockAt := some m } else s

/-! ## Cascades and the remote windows (R444, R466, R469, R470) -/

/-- A PIN frame: another member's job pins a snapshot of this one, or drops its pin (R466). -/
def State.pinReceived (s : State) (p job op cue : Nat) : State :=
  if op = 1 then s.pin (.peer p job) cue else if op = 2 then s.unpin (.peer p job) else s

/-- Whether an inbound request is served: within GRANT, to memory that answers, and writes while cues run to green room only (R470). -/
def State.grants (s : State) (p addr len : Nat) (write : Bool) : Bool :=
  let pg := wwinPage p
  let log := s.fld pg 0x054 5 0
  let base := s.pageAddr pg 0x04C 0x050
  let green := match s.region addr with
    | .green _ => true
    | _ => false
  decide (log ≠ 0) && decide (base ≤ addr) && decide (addr + len ≤ base + 2 ^ log) && s.rangeOk addr len &&
    (!write || green || s.cue.unit != 2)

/-- A READ_REQ is answered (R469, R470). -/
def State.readServed (s : State) (p tag len addr : Nat) : State :=
  let ok := s.grants p addr len false
  s.wingSend p 0x28 3 (Word.leBytes 4 tag ++ Word.leBytes 4 (if ok then 0 else 1) ++ (if ok then s.bytesAt addr len else []))

/-- A WRITE_REQ is served and answered: the bytes its enables name are stored (R469, R470). -/
def State.writeServed (s : State) (p tag addr : Nat) (en : BitVec 256) (data : List Byte) : State :=
  let ok := s.grants p addr 256 true
  let bytes := (List.range 256).filterMap (fun i => if en.getLsbD i then some (i, data.getD i 0) else none)
  let s1 := if ok then (sbRuns bytes).foldl (fun t r => t.storeMem (addr + r.1) r.2) s else s
  s1.wingSend p 0x29 3 (Word.leBytes 4 tag ++ Word.leBytes 4 (if ok then 0 else 1))

/-- A request of this module has been answered: it leaves the list; a refusal is counted (R470). -/
def State.wingAnswered (s : State) (p tag status : Nat) : Option WingReq × State :=
  let w := s.wing p
  let s1 := s.setWing p { w with reqs := w.reqs.filter (fun r => decide (r.1 ≠ tag)) }
  ((w.reqs.find? (fun r => r.1 == tag)).map Prod.snd, if status = 0 then s1 else s1.addReg (wingPage p) 0x054 1)

/-- READ_RSP: the load that waits has its bytes, or an empty reply, which raises REMOTE (R224, R469, R470). -/
def State.readAnswered (s : State) (p tag status : Nat) (data : List Byte) : State :=
  match s.wingAnswered p tag status with
  | (some (.load key a n), t) =>
    let x := t.coreAt key
    t.setCoreAt key { x with remote := x.remote.map (fun r => if r.addr = a ∧ r.size = n then
      { r with reply := some (if status = 0 then fit n data else []) } else r) }
  | (_, t) => t

/-- WRITE_ACK: the store leaves its core's buffer; a refused one is lost (R223, R252, R469, R470). -/
def State.writeAnswered (s : State) (p tag status : Nat) : State :=
  match s.wingAnswered p tag status with
  | (some (.store key block), t) =>
    let x := t.coreAt key
    match x.sb.findIdx? (fun e => e.sent && e.block == block) with
    | some i =>
      let t1 := t.setCoreAt key { x with sb := x.sb.eraseIdx i }
      match x.sb[i]? with
      | some e => if status = 0 then t1 else t1.storeLost key e false
      | none => t1
    | none => t
  | (_, t) => t

/-- Whether a 16-bit MATCH report has odd parity (R444). -/
def oddParity (r : Nat) : Bool := ((List.range 16).filter (fun i => Word.bit i r)).length % 2 == 1

/-- A report on MATCH_IN: one without VALID or with bad parity counts as absent (R444). -/
def State.matchReport (s : State) (p r : Nat) : State :=
  if !Word.bit 15 r || !oddParity r then s
  else s.camMatchBit (s.peerRank p) (Word.bits 13 12 r) (Word.bits 11 1 r) (Word.bit 14 r)

/-- A CUE_SYNC edge at a follower sets its next start instant; one less than 20 beats after the last is ignored (R443). -/
def State.syncEdge (s : State) (beats : Nat) : State :=
  if (s.follows || s.mustFollow) && decide (20 ≤ beats) then s.setCo { s.company with cueSynced := true } else s

/-- A HEARTBEAT from a lead, and from one that stretches (R455). -/
def State.heartbeat (s : State) (stretching : Bool) : State :=
  if s.role = 1 then
    s.wingSendAll s.pairLinks 0x04 0 (Word.leBytes 8 s.cue.number ++ Word.leBytes 8 (if stretching then 1 else 0))
  else s

/-- COMPANY SOFT_RESET clears the counters (the COMPANY page). -/
def State.companySoftReset (s : State) : State := s.zeroRegs companyPage [0x058, 0x05C, 0x060]

/-! ## The commands -/

/-- SIDEBAND_EDGE. -/
def execSidebandEdge (port : Fin 4) (present : Bool) (level : Bool) (cycles : Nat) (s : State) : Host.Outcome State Fault Refusal :=
  .next (s.sideband port.val present level cycles)
/-- HEARTBEAT: a frame from the lead, which holds off LEAD_LOST (R455). -/
def execHeartbeat (p : Fin 4) (h : FrameHead) (cue : Word64) (flags : Word64) (s : State) : Host.Outcome State Fault Refusal :=
  .next (s.receive p.val 0x04 h (Word.leBytes 8 cue.toNat ++ Word.leBytes 8 flags.toNat) (fun t _ => t))
/-- HEARTBEAT_SEND. -/
def execHeartbeatSend (stretching : Bool) (s : State) : Host.Outcome State Fault Refusal := .next (s.heartbeat stretching)
/-- YIELD. -/
def execYield (p : Fin 4) (h : FrameHead) (cue : Word64) (cause : BitVec 16) (s : State) : Host.Outcome State Fault Refusal :=
  .next (s.deliverFrame p.val 0x07 h (Word.leBytes 8 cue.toNat ++ Word.leBytes 8 cause.toNat) (fun t _ => t.leadGone (cause == 5)))
/-- ROLE. -/
def execRole (p : Fin 4) (h : FrameHead) (role : Byte) (rank : Byte) (cue : Word64) (s : State) : Host.Outcome State Fault Refusal :=
  .next (s.deliverFrame p.val 0x08 h ([role, rank] ++ List.replicate 6 0 ++ Word.leBytes 8 cue.toNat) (fun t _ => t.roleReceived p.val role.toNat))
/-- ARRIVAL. -/
def execArrival (p : Fin 4) (h : FrameHead) (payload : List Byte) (s : State) : Host.Outcome State Fault Refusal :=
  .next (s.deliverFrame p.val 0x10 h payload (fun t b => t.arrivalReceived b))
/-- SEAL. -/
def execSeal (p : Fin 4) (h : FrameHead) (payload : List Byte) (s : State) : Host.Outcome State Fault Refusal :=
  .next (s.deliverFrame p.val 0x11 h payload (fun t b => t.sealReceived b))
/-- DIGEST. -/
def execDigest (p : Fin 4) (h : FrameHead) (cue : Word64) (flags : Word32) (inp : List Byte) (out : List Byte) (delta : List Byte)
    (s : State) : Host.Outcome State Fault Refusal :=
  .next (s.deliverFrame p.val 0x12 h (Word.leBytes 8 cue.toNat ++ Word.leBytes 8 flags.toNat ++ fit 64 inp ++ fit 64 out ++ fit 64 delta)
    (fun t _ => t.digestReceived cue.toNat flags.toNat { inp := inp, out := out, delta := delta }))
/-- CHANGE_OK. -/
def execChangeOk (p : Fin 4) (h : FrameHead) (id : Word64) (result : BitVec 16) (s : State) : Host.Outcome State Fault Refusal :=
  .next (s.deliverFrame p.val 0x13 h (Word.leBytes 8 id.toNat ++ Word.leBytes 8 result.toNat) (fun t _ => t.changeAnswered id.toNat result.toNat))
/-- PIN. -/
def execPin (p : Fin 4) (h : FrameHead) (job : Word32) (op : Byte) (cue : Word64) (s : State) : Host.Outcome State Fault Refusal :=
  .next (s.deliverFrame p.val 0x14 h (Word.leBytes 4 job.toNat ++ [op] ++ List.replicate 3 0 ++ Word.leBytes 8 cue.toNat)
    (fun t _ => t.pinReceived p.val job.toNat op.toNat cue.toNat))
/-- READ_REQ. -/
def execReadReq (p : Fin 4) (h : FrameHead) (tag : Word32) (len : Word32) (addr : Word64) (s : State) : Host.Outcome State Fault Refusal :=
  .next (s.deliverFrame p.val 0x20 h (Word.leBytes 4 tag.toNat ++ Word.leBytes 4 len.toNat ++ Word.leBytes 8 addr.toNat)
    (fun t _ => t.readServed p.val tag.toNat len.toNat addr.toNat))
/-- WRITE_REQ. -/
def execWriteReq (p : Fin 4) (h : FrameHead) (tag : Word32) (addr : Word64) (en : BitVec 256) (data : List Byte) (s : State) :
    Host.Outcome State Fault Refusal :=
  .next (s.deliverFrame p.val 0x21 h (List.replicate 304 0) (fun t _ => t.writeServed p.val tag.toNat addr.toNat en data))
/-- READ_RSP. -/
def execReadRsp (p : Fin 4) (h : FrameHead) (tag : Word32) (status : Word32) (data : List Byte) (s : State) :
    Host.Outcome State Fault Refusal :=
  .next (s.deliverFrame p.val 0x28 h (List.replicate 8 0 ++ data) (fun t _ => t.readAnswered p.val tag.toNat status.toNat data))
/-- WRITE_ACK. -/
def execWriteAck (p : Fin 4) (h : FrameHead) (tag : Word32) (status : Word32) (s : State) : Host.Outcome State Fault Refusal :=
  .next (s.deliverFrame p.val 0x29 h (List.replicate 8 0) (fun t _ => t.writeAnswered p.val tag.toNat status.toNat))
/-- CHANGE. -/
def execChange (p : Fin 4) (h : FrameHead) (id : Word64) (opcode : BitVec 16) (off : Word32) (total : Word32) (data : List Byte)
    (s : State) : Host.Outcome State Fault Refusal :=
  .next (s.deliverFrame p.val 0x30 h (List.replicate 24 0 ++ data)
    (fun t _ => t.changeReceived p.val id.toNat opcode.toNat off.toNat total.toNat data))
/-- CATCHUP. -/
def execCatchup (p : Fin 4) (h : FrameHead) (x : CatchItem) (s : State) : Host.Outcome State Fault Refusal :=
  .next (s.deliverFrame p.val 0x31 h (List.replicate 24 0) (fun t _ => t.catchLoad p.val x))
/-- DELTA. -/
def execDelta (p : Fin 4) (h : FrameHead) (payload : List Byte) (s : State) : Host.Outcome State Fault Refusal :=
  .next (s.deliverFrame p.val 0x32 h payload (fun t b => t.deltaReceived p.val b))
/-- READY. -/
def execReady (p : Fin 4) (h : FrameHead) (cue : Word64) (s : State) : Host.Outcome State Fault Refusal :=
  .next (s.deliverFrame p.val 0x33 h (Word.leBytes 8 cue.toNat) (fun t _ => t.readyReceived))
/-- LOCK. -/
def execLock (p : Fin 4) (h : FrameHead) (cue : Word64) (s : State) : Host.Outcome State Fault Refusal :=
  .next (s.deliverFrame p.val 0x34 h (Word.leBytes 8 cue.toNat) (fun t _ => t.lockReceived cue.toNat))
/-- SEARCH_KEY. -/
def execSearchKey (p : Fin 4) (h : FrameHead) (num : BitVec 16) (issuer : Byte) (key : BitVec 160) (mask : BitVec 160) (s : State) :
    Host.Outcome State Fault Refusal :=
  .next (s.deliverFrame p.val 0x40 h (List.replicate 56 0) (fun t _ => t.camKeyReceived num.toNat issuer.toNat key mask))
/-- SEARCH_RESULT. -/
def execSearchResult (p : Fin 4) (h : FrameHead) (num : BitVec 16) (issuer : Byte) (index : Word32) (count : Word32) (data : Word64)
    (s : State) : Host.Outcome State Fault Refusal :=
  .next (s.deliverFrame p.val 0x41 h (List.replicate 24 0) (fun t _ => t.camResultFrame (t.peerRank p.val) issuer.toNat num.toNat
    (Word.leBytes 4 index.toNat ++ Word.leBytes 4 count.toNat ++ Word.leBytes 8 data.toNat)))
/-- SEARCH_RESOLVED. -/
def execSearchResolved (p : Fin 4) (h : FrameHead) (num : BitVec 16) (issuer : Byte) (res : List Byte) (s : State) :
    Host.Outcome State Fault Refusal :=
  .next (s.deliverFrame p.val 0x42 h (List.replicate 32 0) (fun t _ => if issuer.toNat = t.rank then t.camResolved num.toNat (fit 24 res) else t))
/-- MATCH_REPORT. -/
def execMatchReport (p : Fin 4) (report : BitVec 16) (s : State) : Host.Outcome State Fault Refusal := .next (s.matchReport p.val report.toNat)
/-- CUE_SYNC_EDGE. -/
def execCueSyncEdge (beatsSince : Nat) (s : State) : Host.Outcome State Fault Refusal := .next (s.syncEdge beatsSince)
/-- LEAD_LOST. -/
def execLeadLost (s : State) : Host.Outcome State Fault Refusal := .next (s.leadGone false)
/-- COMPANY_SOFT_RESET. -/
def execCompanySoftReset (s : State) : Host.Outcome State Fault Refusal := .next s.companySoftReset

end Sys2Proof.Machine
end

