-- ==== Sys2Proof/Machine/Operands.lean ====
section
/-!
DEFINITION. The operand forms of the six instruction formats (R202, R203, R207): the instruction words, the immediates, the
element view of the vector and mask registers (R199, R200), and the unused fields that must be 0.
-/
namespace Sys2Proof.Machine
open Sys2Proof

/-! ## Instruction words -/

/-- Format A: MAJOR, rd, ra, rb, FN (R202). -/
def wordA (major fn : Nat) (f : FmtA) : Word32 :=
  BitVec.ofNat 32 (major * 2 ^ 26 + f.rd.toNat * 2 ^ 21 + f.ra.toNat * 2 ^ 16 + f.rb.toNat * 2 ^ 11 + fn)
/-- Format I: MAJOR, rd, ra, IMM (R202). -/
def wordI (major : Nat) (f : FmtI) : Word32 :=
  BitVec.ofNat 32 (major * 2 ^ 26 + f.rd.toNat * 2 ^ 21 + f.ra.toNat * 2 ^ 16 + f.imm.toNat)
/-- The shift immediates of MAJOR 0x0A: IMM[15:8], the operation in IMM[7:6], the amount in IMM[5:0] (R203). -/
def wordSh (op : Nat) (f : FmtSh) : Word32 :=
  BitVec.ofNat 32 (0x0A * 2 ^ 26 + f.rd.toNat * 2 ^ 21 + f.ra.toNat * 2 ^ 16 + f.hi.toNat * 2 ^ 8 + op * 2 ^ 6 + f.amt.toNat)
/-- Format M: MAJOR, rt, ra, MOP, DISP (R202). -/
def wordM (major mop : Nat) (f : FmtM) : Word32 :=
  BitVec.ofNat 32 (major * 2 ^ 26 + f.rt.toNat * 2 ^ 21 + f.ra.toNat * 2 ^ 16 + mop * 2 ^ 12 + f.disp.toNat)
/-- Format B: MAJOR, ra, rb, OFF (R202). -/
def wordB (major : Nat) (f : FmtB) : Word32 :=
  BitVec.ofNat 32 (major * 2 ^ 26 + f.ra.toNat * 2 ^ 21 + f.rb.toNat * 2 ^ 16 + f.off.toNat)
/-- Format V: MAJOR, vd, va, vb, MSK, EW, VFN (R202). -/
def wordV (major vfn : Nat) (f : FmtV) : Word32 :=
  BitVec.ofNat 32 (major * 2 ^ 26 + f.vd.toNat * 2 ^ 21 + f.va.toNat * 2 ^ 16 + f.vb.toNat * 2 ^ 11 +
    f.msk.toNat * 2 ^ 8 + f.ew.toNat * 2 ^ 6 + vfn)
/-- Format S: MAJOR 0x30, rd, ra, SYS, SFN (R202). -/
def wordS (sfn : Nat) (f : FmtS) : Word32 :=
  BitVec.ofNat 32 (0x30 * 2 ^ 26 + f.rd.toNat * 2 ^ 21 + f.ra.toNat * 2 ^ 16 + f.sys.toNat * 2 ^ 4 + sfn)

/-! ## Scalar operands -/

/-- A general register named by a field, as a number. -/
def Core.gn (x : Core) (r : BitVec 5) : Nat := (x.gr r.toNat).toNat

/-- A general register named by a field, written with a number. -/
def Core.putG (x : Core) (r : BitVec 5) (v : Nat) : Core := x.setGr r.toNat (BitVec.ofNat 64 v)

/-- A sign-extended field as a 64-bit number. -/
def sext64 {n : Nat} (f : BitVec n) : Nat := (f.signExtend 64).toNat

/-- The effective address of format M: ra + DISP × access size, modulo 2^64 (R203). -/
def Core.effAddr (x : Core) (f : FmtM) (size : Nat) : Nat := (x.gn f.ra + sext64 f.disp * size) % 2 ^ 64

/-- The target of a branch: PC + 4 × OFF (R203). -/
def Core.branchTo (x : Core) (off : BitVec 16) : Word64 := BitVec.ofNat 64 ((x.pc.toNat + 4 * sext64 off) % 2 ^ 64)

/-- The core with its pc past the instruction. -/
def Core.next (x : Core) : Core := { x with pc := x.pc + 4 }

/-! ## Vector operands -/

/-- The element width in bits that an EW field names (R202). -/
def ewBits (ew : BitVec 2) : Nat := 8 * 2 ^ ew.toNat

/-- The elements a register holds: 2,048 / EW (R199). -/
def ewCount (ew : BitVec 2) : Nat := 2048 / ewBits ew

/-- Element `e` of `w` bits of a vector register (R199). -/
def elemAt (v : VWord) (w e : Nat) : Nat := (v.extractLsb' (w * e) w).toNat

/-- A vector register with element `e` replaced. -/
def setElem (v : VWord) (w e x : Nat) : VWord :=
  let mask : VWord := BitVec.ofNat 2048 ((2 ^ w - 1) * 2 ^ (w * e))
  (v &&& ~~~mask) ||| BitVec.ofNat 2048 (x % 2 ^ w * 2 ^ (w * e))

/-- A mask register built from its bits. -/
def maskOf (f : Nat → Bool) : MWord := BitVec.ofNat 256 ((List.range 256).foldl (fun n i => if f i then n + 2 ^ i else n) 0)

/-- L = min(VL, 2,048 / EW) (R200). -/
def Core.activeLen (x : Core) (ew : BitVec 2) : Nat := min x.vl (ewCount ew)

/-- Whether element `e` is active (R200). -/
def Core.active (x : Core) (ew : BitVec 2) (msk : BitVec 3) (e : Nat) : Bool :=
  decide (e < x.activeLen ew) && (msk == 0 || (x.mr msk.toNat).getLsbD e)

/-- The active elements in ascending order. -/
def Core.actives (x : Core) (f : FmtV) : List Nat := (List.range (x.activeLen f.ew)).filter (x.active f.ew f.msk)

/-- Element `e` of the operand va. -/
def Core.vaElem (x : Core) (f : FmtV) (e : Nat) : Nat := elemAt (x.vr f.va.toNat) (ewBits f.ew) e

/-- Element `e` of the second operand: vb, or the scalar gb reduced to EW bits (R207). -/
def Core.vbElem (x : Core) (f : FmtV) (sc : Bool) (e : Nat) : Nat :=
  if sc then x.gn f.vb % 2 ^ ewBits f.ew else elemAt (x.vr f.vb.toNat) (ewBits f.ew) e

/-- The destination with every active element replaced, the others kept (R200). -/
def Core.mapActive (x : Core) (f : FmtV) (op : Nat → Nat) : Core :=
  x.setVr f.vd.toNat ((x.actives f).foldl (fun v e => setElem v (ewBits f.ew) e (op e)) (x.vr f.vd.toNat))

/-- Index element `e` of width `iw` of an operand that starts at a vector register and spans as many as it needs (R208). -/
def Core.indexElem (x : Core) (vb iw e : Nat) : Nat := elemAt (x.vr (vb + e * iw / 2048)) iw (e % (2048 / iw))

/-- The registers an index operand of width `iw` spans for elements of EW bits (R208). -/
def indexSpan (ew : BitVec 2) (iw : Nat) : Nat := (ewCount ew * iw + 2047) / 2048

/-- Entry `k` of a table of EW-bit entries that starts at a vector register (R208). -/
def Core.tableEntry (x : Core) (base : Nat) (ew : BitVec 2) (k : Nat) : Nat :=
  elemAt (x.vr (base + k / ewCount ew)) (ewBits ew) (k % ewCount ew)

end Sys2Proof.Machine
end

