-- ==== Sys2Proof/Machine/Mgmt.lean ====
section
/-!
DEFINITION. The management path (R333, R342–R346, R479, R495): key components, PLDM firmware update, SPDM, control messages, and the end of a
flash write. Message layouts that the spec takes from DSP0267 and DSP0274 are PRESUMED (Assumption 28).
-/
namespace Sys2Proof.Machine
open Sys2Proof

/-- The MGMT page. -/
def mgmtPage : Nat := pageOf .mgmt 0

/-- The management state replaced. -/
def State.setMgmt (s : State) (m : Mgmt) : State := { s with mgmt := m }

/-- A message is received on the management path (the MGMT page). -/
def State.mgmtHeard (s : State) : State := s.addReg mgmtPage 0x04C 1

/-- A message is answered. -/
def State.mgmtReply (s : State) (b : List Byte) : State := s.setMgmt { s.mgmt with replies := s.mgmt.replies ++ [b] }

/-- A malformed or unsupported message is counted. -/
def State.mgmtBad (s : State) : State := s.addReg mgmtPage 0x050 1

/-- Whether the stage manager answers a request: powered, and outside RECOVERY, where every request but firmware update and control messages
is answered with ERROR_NOT_READY (R479). -/
def State.mgmtGuard (s : State) (act : State → State) : State :=
  match s.mdl.st with
  | .off => s
  | .recovery => s.mgmtHeard.mgmtReply [0x04]
  | _ => act s.mgmtHeard

/-! ## Firmware update (R342, R479) -/

/-- One PLDM firmware update message: in its stage it is answered with success and moves on, else with INVALID_STATE (0x84). -/
def State.updStep (s : State) (code : Byte) (at_ : UpdState) (go : State → State) : State :=
  if s.mdl.st == .off then s
  else
    let s1 := s.mgmtHeard
    if s1.mgmt.upd = at_ then (go s1).mgmtReply [code, 0x00] else s1.mgmtBad.mgmtReply [code, 0x84]

/-- The stage of an update. -/
def State.setUpd (s : State) (u : UpdState) : State := s.setMgmt { s.mgmt with upd := u }

/-- RequestFirmwareData: image data goes to the inactive slot (R342). -/
def State.updData (s : State) (off : Nat) (bs : List Byte) : State :=
  let s1 := s.fwWrite off bs
  s1.setMgmt { s1.mgmt with received := max s1.mgmt.received (off + bs.length) }

/-- VerifyComplete: the inactive slot is verified as R341 gives; an image that fails ends the update. -/
def State.updVerify (s : State) : State := match s.fwCheck with
  | .ok _ => s.setUpd .apply
  | .error _ => s.setUpd .idle

/-- ActivateFirmware: the updated slot is ACTIVE from the next module reset or stronger reset. -/
def State.updActivate (s : State) : State := match s.fwCheck with
  | .ok _ => (s.fwApply false).setUpd .idle
  | .error _ => s.setUpd .idle

/-- A flash erase or program ends; a failure sets FLASH_ERROR with the flash offset (R343). -/
def State.flashDone (s : State) (fail : Option Nat) : State :=
  if !s.flash.busy then s
  else
    let s1 : State := { s with flash := { s.flash with busy := false } }
    match fail with
    | none => s1.evt flashPage 0
    | some off => s1.err flashPage 0x0100 off 0 0

/-! ## SPDM (R344–R346) -/

/-- An SPDM exchange is added to the transcript and answered. -/
def State.spdmAnswer (s : State) (req resp : List Byte) : State :=
  (s.setMgmt { s.mgmt with transcript := s.mgmt.transcript ++ req ++ resp }).mgmtReply resp

/-- An SPDM ERROR response with an error code. -/
def State.spdmError (s : State) (code data : Byte) : State :=
  s.mgmtReply [BitVec.ofNat 8 (s.mgmt.version.getD 0x10), 0x7F, code, data]

/-- GET_VERSION: versions 1.2 and 1.3; the connection begins anew (R344). -/
def State.spdmVersion (s : State) (req : List Byte) : State :=
  (s.setMgmt { s.mgmt with version := some 0x10, algos := false, transcript := [] }).spdmAnswer req
    [0x10, 0x04, 0x00, 0x00, 0x00, 0x02, 0x00, 0x12, 0x00, 0x13]

/-- GET_CAPABILITIES: CHAL_CAP, MEAS_CAP = 2, PUB_KEY_ID_CAP and CHUNK_CAP, with sizes of 65,536 bytes. CTExponent is a free value (R344,
Assumption 3). -/
def State.spdmCaps (s : State) (req : List Byte) : State :=
  if s.mgmt.version.isNone then s.spdmError 0x04 0
  else
    let v := (req.headD 0).toNat
    let (ct, s1) := s.freeBytes 1
    (s1.setMgmt { s1.mgmt with version := some v }).spdmAnswer req
      ([BitVec.ofNat 8 v, 0x61, 0, 0, 0] ++ ct ++ [0, 0] ++ Word.leBytes 4 (2 ^ 2 + 2 ^ 4 + 2 ^ 16 + 2 ^ 17) ++ Word.leBytes 4 65536 ++
        Word.leBytes 4 65536)

/-- NEGOTIATE_ALGORITHMS: SHA3-512, DMTF measurements and one extended structure for Falcon-1024; a requester that does not offer it receives
NegotiationFail, whose code the spec does not give (R345, Assumption 3). -/
def State.spdmAlgos (s : State) (req : List Byte) (offers : Bool) : State :=
  let v := BitVec.ofNat 8 (s.mgmt.version.getD 0)
  if s.mgmt.version.isNone then s.spdmError 0x04 0
  else if !offers then
    let (c, s1) := s.freeBytes 1
    s1.spdmError (c.headD 0) 0
  else (s.setMgmt { s.mgmt with algos := true }).spdmAnswer req
    ([v, 0x63, 0, 0] ++ Word.leBytes 2 40 ++ [1, 0] ++ Word.leBytes 4 (2 ^ 6) ++ Word.leBytes 4 0 ++ Word.leBytes 4 (2 ^ 5) ++
      List.replicate 12 0 ++ [1, 0, 0, 0] ++ [0x03, 0] ++ Word.leBytes 2 0x1F3B)

/-- The bytes that an SPDM signature covers: the combined prefix, then the transcript's SHA3-512 (R345). -/
def State.spdmInput (s : State) (ctx : String) (extra : List Byte) : List Byte :=
  let v := if s.mgmt.version = some 0x13 then "dmtf-spdm-v1.3.*" else "dmtf-spdm-v1.2.*"
  let p := (List.replicate 4 (ascii v)).flatten
  p ++ List.replicate (100 - p.length - ctx.length) 0 ++ ascii ctx ++ sha3_512 (s.mgmt.transcript ++ extra)

/-- A signed SPDM response; without a unit that can sign, an ERROR whose code the spec does not give (R345, Assumption 3). -/
def State.spdmSigned (s : State) (ctx : String) (req body : List Byte) : State :=
  match s.idSign (s.spdmInput ctx (req ++ body)) lsuAll with
  | (some sig, t) => t.spdmAnswer req (body ++ sigField sig)
  | (none, t) =>
    let (c, u) := t.freeBytes 1
    u.spdmError (c.headD 0) 0

/-- GET_MEASUREMENTS: the number of blocks, one block or all, signed on request (R346). -/
def State.spdmMeasure (s : State) (req : List Byte) : State :=
  if !s.mgmt.algos then s.spdmError 0x04 0
  else
    let v := BitVec.ofNat 8 (s.mgmt.version.getD 0)
    let op := field req 3 1
    let all := s.measures
    let blocks := if op = 0 then [] else if op = 0xFF then all else all.filter (fun m => m.idx == op)
    if op ≠ 0 ∧ blocks = [] then s.spdmError 0x01 0
    else
      let rec_ := blocks.flatMap Measure.block
      let (nonce, s1) := s.freeBytes 32
      let body := [v, 0x60, if op = 0 then BitVec.ofNat 8 all.length else 0, 0] ++ Word.leBytes 1 blocks.length ++
        Word.leBytes 3 rec_.length ++ rec_ ++ nonce ++ [0, 0]
      if Word.bit 0 (field req 2 1) then s1.spdmSigned "responder-measurements signing" req body else s1.spdmAnswer req body

/-- CHALLENGE: answered with the identity key's signature (R344, R345). -/
def State.spdmChallenge (s : State) (req : List Byte) : State :=
  if !s.mgmt.algos then s.spdmError 0x04 0
  else
    let v := BitVec.ofNat 8 (s.mgmt.version.getD 0)
    let (nonce, s1) := s.freeBytes 32
    let sum := if field req 3 1 = 0 then [] else sha3_512 (s.measures.flatMap Measure.block)
    s1.spdmSigned "responder-challenge_auth signing" req
      ([v, 0x03, 0x0F, 0] ++ sha3_512 (fit 1793 Config.identityPub) ++ nonce ++ sum ++ [0, 0])

/-- Any other SPDM request (R344). -/
def State.spdmOther (s : State) (req : List Byte) : State := (s.mgmtBad).spdmError 0x07 (req.getD 1 0)

/-! ## Keys and control messages -/

/-- KEY_COMPONENT (R333); a message of another form is counted as malformed. -/
def State.keyMessage (s : State) (idx count epoch : Nat) (val : List Byte) : State :=
  if (count ≠ 2 ∧ count ≠ 3) ∨ val.length ≠ 32 then s.mgmtBad else s.keyComponent idx count epoch val

/-- An MCTP control message is answered, in every powered state; another request is answered as R479 gives in RECOVERY, and is otherwise
unsupported. The answers' bytes are free values (R479, Assumption 3). -/
def State.controlMessage (s : State) (control : Bool) : State :=
  if s.mdl.st == .off then s
  else
    let s1 := s.mgmtHeard
    if !control && s.mdl.st == .recovery then s1.mgmtReply [0x04]
    else
      let (b, s2) := s1.freeBytes 1
      (if control then s2 else s2.mgmtBad).mgmtReply b

/-- MGMT SOFT_RESET clears the counters (the MGMT page). -/
def State.mgmtSoftReset (s : State) : State := s.zeroRegs mgmtPage [0x04C, 0x050, 0x054]

/-! ## The commands -/

/-- KEY_COMPONENT. -/
def execKeyComponent (idx : Byte) (count : Byte) (epoch : Word32) (val : List Byte) (s : State) : Host.Outcome State Fault Refusal :=
  .next (s.mgmtGuard (fun t => t.keyMessage idx.toNat count.toNat epoch.toNat val))
/-- REQUEST_UPDATE. -/
def execRequestUpdate (s : State) : Host.Outcome State Fault Refusal := .next (s.updStep 0x10 .idle (fun t => t.setUpd .learn))
/-- PASS_COMPONENT_TABLE. -/
def execPassComponentTable (s : State) : Host.Outcome State Fault Refusal := .next (s.updStep 0x13 .learn (fun t => t.setUpd .ready))
/-- UPDATE_COMPONENT. -/
def execUpdateComponent (size : Nat) (s : State) : Host.Outcome State Fault Refusal :=
  .next (s.updStep 0x14 .ready (fun t => (t.setMgmt { t.mgmt with compLen := size, received := 0 }).setUpd .download))
/-- REQUEST_FIRMWARE_DATA. -/
def execRequestFirmwareData (off : Nat) (data : List Byte) (s : State) : Host.Outcome State Fault Refusal :=
  .next (s.updStep 0x15 .download (fun t => t.updData off data))
/-- TRANSFER_COMPLETE. -/
def execTransferComplete (s : State) : Host.Outcome State Fault Refusal := .next (s.updStep 0x16 .download (fun t => t.setUpd .verify))
/-- VERIFY_COMPLETE. -/
def execVerifyComplete (s : State) : Host.Outcome State Fault Refusal := .next (s.updStep 0x17 .verify State.updVerify)
/-- APPLY_COMPLETE. -/
def execApplyComplete (s : State) : Host.Outcome State Fault Refusal := .next (s.updStep 0x18 .apply (fun t => t.setUpd .ready))
/-- ACTIVATE_FIRMWARE. -/
def execActivateFirmware (s : State) : Host.Outcome State Fault Refusal := .next (s.updStep 0x1A .ready State.updActivate)
/-- FLASH_WRITE_DONE. -/
def execFlashWriteDone (fail : Option Word32) (s : State) : Host.Outcome State Fault Refusal := .next (s.flashDone (fail.map BitVec.toNat))
/-- GET_VERSION. -/
def execGetVersion (req : List Byte) (s : State) : Host.Outcome State Fault Refusal := .next (s.mgmtGuard (fun t => t.spdmVersion req))
/-- GET_CAPABILITIES. -/
def execGetCapabilities (req : List Byte) (s : State) : Host.Outcome State Fault Refusal := .next (s.mgmtGuard (fun t => t.spdmCaps req))
/-- NEGOTIATE_ALGORITHMS. -/
def execNegotiateAlgorithms (req : List Byte) (offers : Bool) (s : State) : Host.Outcome State Fault Refusal :=
  .next (s.mgmtGuard (fun t => t.spdmAlgos req offers))
/-- GET_MEASUREMENTS. -/
def execGetMeasurements (req : List Byte) (s : State) : Host.Outcome State Fault Refusal := .next (s.mgmtGuard (fun t => t.spdmMeasure req))
/-- CHALLENGE. -/
def execChallenge (req : List Byte) (s : State) : Host.Outcome State Fault Refusal := .next (s.mgmtGuard (fun t => t.spdmChallenge req))
/-- SPDM_UNSUPPORTED_REQUEST. -/
def execSpdmUnsupportedRequest (req : List Byte) (s : State) : Host.Outcome State Fault Refusal := .next (s.mgmtGuard (fun t => t.spdmOther req))
/-- MCTP_CONTROL_MESSAGE. -/
def execMctpControlMessage (control : Bool) (_msg : List Byte) (s : State) : Host.Outcome State Fault Refusal := .next (s.controlMessage control)
/-- MGMT_SOFT_RESET. -/
def execMgmtSoftReset (s : State) : Host.Outcome State Fault Refusal := .next s.mgmtSoftReset

end Sys2Proof.Machine
end

