-- ==== Sys2Proof/Machine/PageView.lean ====
section
/-!
DEFINITION. What a register page answers to a read: the words that are stored, and the words that show the state of their block (R500–R507
and the page tables of the chapters).
-/
namespace Sys2Proof.Machine
open Sys2Proof

/-- A bit of a word that a condition sets. -/
def bitIf (c : Bool) (n : Nat) : Nat := if c then 2 ^ n else 0

/-- How many elements of a list satisfy a test. -/
def countIf {α : Type} (l : List α) (f : α → Bool) : Nat := (l.filter f).length

/-- One bit for each of `n` places that satisfies a test. -/
def bitsWhere (n : Nat) (f : Nat → Bool) : Nat := (List.range n).foldl (fun m i => m + bitIf (f i) i) 0

/-- The directory entry of row `j`, as MODDIR shows it (R506). -/
def dirWord (j k : Nat) : Nat := match directory[j]? with
  | some r => match k with
    | 0 => r.typ * 65536 + r.first
    | 1 => r.run * 2 ^ 24 + r.step * 65536 + r.groups
    | 2 => r.gstride
    | _ => 0
  | none => 0

/-- Whether a block's table has expert registers (PAGE_CAPS). -/
def hasExpert (b : Blk) : Bool := (blkRows b).any (fun r => decide (0x400 ≤ r.off))

/-- TYPE of a block (R505). -/
def typeOf (b : Blk) : Nat := match dirRow b with
  | some r => r.typ
  | none => 0

/-- MODCTL.STAT (R473, the MODCTL page). -/
def State.modctlStat (s : State) : Nat :=
  let m := s.mdl
  let st := match m.shown with
    | .off => 0
    | .boot => 0
    | .ready => 1
    | .service => 2
    | .standby => 3
    | .curtain => 4
    | .halt => 5
    | .recovery => 6
  let unit := if st < 2 then 1 else if st = 2 then 2 else if st = 3 then 3 else 5
  st * 4096 + bitIf m.halt 10 + bitIf m.curtain 9 + unit

/-- PWR.STAT (the PWR page). -/
def State.pwrStat (s : State) : Nat :=
  let m := s.mdl
  let cls := s.fld modctlPage 0x044 7 0
  let unit := if m.curtain && (cls == 5 || cls == 6) then 5 else if m.st == .standby then 3 else 2
  bitIf (m.st == .standby) 11 + bitIf m.tjHot 10 + bitIf (m.railsBad != 0) 9 + bitIf m.standbyOp.isSome 8 + unit

/-- Whether the queue engine holds requests of its own (R398, R403, R425). -/
def State.hepHolds (s : State) : Bool :=
  !s.hep.canSend && s.qpairs.any (fun p => p.2.rung || p.2.cqRung || !p.2.held.isEmpty)

/-- The words of the HEP page that are not stored. -/
def State.hepView (s : State) (off stored : Nat) : Nat :=
  let h := s.hep
  if off = 0x00C then
    bitIf (h.bme && h.d0) 10 + bitIf h.linkUp 9 + bitIf s.hepHolds 8 + (if h.frozen then 4 else if h.everUp then 2 else 1)
  else if off = 0x040 then if h.linkUp then h.speed * 4096 + h.width * 16 + bitIf (h.speed == 6) 0 else 0
  else if off = 0x054 then min h.maxTags (s.fld hepPage 0x400 10 0) * 65536
  else stored

/-- The words of the QENG page that are not stored. -/
def State.qengView (s : State) (off stored : Nat) : Nat :=
  if off = 0x00C then (if s.mdl.halt then 5 else if (s.qp 0).sqOn then 2 else 1)
  else if off = 0x068 then
    (match s.journal with
      | some j => j.qid * 65536
      | none => 0) + countIf s.qpairs (fun p => decide (p.1 ≠ 0) && p.2.sqOn)
  else stored

/-- One word of a LO or HI pair. -/
def half (a : Nat) (hi : Bool) : Nat := if hi then a / 2 ^ 32 else a % 2 ^ 32

/-- The words of a QCTX page (the QCTX pages). A queue that does not exist reads 0, and so does what a deleted submission queue had. -/
def State.qctxView (s : State) (q off stored : Nat) : Nat :=
  let x := s.qp q
  let jn := s.journal.filter (fun j => j.qid == q)
  if !(x.sqOn || x.cqOn || jn.isSome) then (if 0x010 ≤ off ∧ off < 0x040 then stored else 0)
  else if off = 0x008 then 1
  else if off = 0x00C then
    bitIf jn.isSome 12 + bitIf x.paused 11 + bitIf (x.cqOn || jn.isSome) 10 + bitIf x.sqOn 9 + (if x.paused then 3 else 2)
  else match jn with
    | some j =>
      if off = 0x040 then j.log * 65536
      else if off = 0x044 then j.vector
      else if off = 0x050 then j.prod
      else if off = 0x054 then j.cons
      else if off = 0x408 ∨ off = 0x40C then half j.ring (off == 0x40C)
      else if off = 0x410 ∨ off = 0x414 then half j.idxAddr (off == 0x414)
      else if off = 0x064 ∨ off < 0x040 then stored else 0
    | none =>
      let sq := fun (v : Nat) => if x.sqOn then v else 0
      if off = 0x040 then x.cqLog * 65536 + sq x.sqLog
      else if off = 0x044 then x.vector
      else if off = 0x048 then sq x.sqCons
      else if off = 0x04C then sq x.sqProd
      else if off = 0x050 then x.cqProd
      else if off = 0x054 then x.cqCons
      else if off = 0x058 then x.reserved * 65536 + x.held.length
      else if off = 0x05C then sq x.resStride
      else if off = 0x060 then sq x.winLog
      else if 0x400 ≤ off ∧ off < 0x428 then
        half (([sq x.sqAddr, x.cqAddr, x.idxAddr, sq x.resBase, sq x.winBase] : List Nat).getD ((off - 0x400) / 8) 0) (off % 8 == 4)
      else stored

/-- Whether CUE.CTL.EN reads 1: START_CUES sets it and HOLD_CUES clears it, and nothing else does (R72). -/
def Cue.enabled (c : Cue) : Bool := c.starting || (c.startedEver && !c.holdReq && !c.holdCmd)

/-- The words of the CUE page that are not stored. STRETCHING is added by the read. -/
def State.cueView (s : State) (off stored : Nat) : Nat :=
  let c := s.cue
  if off = 0x008 then stored / 2 * 2 + bitIf c.enabled 0
  else if off = 0x00C then bitIf (Word.bit 12 stored) 12 + bitIf c.holdCmd 10 + bitIf c.holdLag 9 + bitIf (c.phase == .due && s.fgPending == 0) 8 + c.unit
  else if off = 0x064 then c.buffer.length
  else if off = 0x070 then c.actPos
  else if off = 0x404 then s.fgPending
  else stored

/-- The staging area's size in MiB, as the last START_CUES or LOAD_PIPELINE set it (R76). -/
def State.stageMib (s : State) : Nat := Config.stagingMib s.cue.stageWrites

/-- The device address of the staging area: it lies in HBM, whole where it fits (R76, Assumption 13). -/
def State.stageBase (s : State) : Nat := Config.stageAt s.stageMib % ((hbmSize - s.stageMib * 2 ^ 20) / 65536 + 1) * 65536

/-- The words of the PBOOK page that are not stored. -/
def State.pbView (s : State) (off stored : Nat) : Nat :=
  let p := s.pbook
  let lag := p.alloc && s.lagNow 0
  if off = 0x00C then p.verify * 4096 + bitIf (p.alloc && decide (0 < p.logLen)) 11 + bitIf lag 10 + bitIf p.alloc 9 + bitIf p.nextSeal.isSome 8 +
    (if p.verify = 3 then 5 else if !p.alloc then 1 else if lag then 3 else 2)
  else if off = 0x048 ∨ off = 0x04C then half p.recBase (off == 0x04C)
  else if off = 0x060 then p.freeRecs
  else if off = 0x064 then p.freeSeals
  else stored

/-- The words of the STRIKE page that are not stored. -/
def State.strikeView (s : State) (off stored : Nat) : Nat :=
  if off = 0x00C then stored / 16 * 16 + (if s.ordinary.isEmpty then 1 else 2)
  else if off = 0x04C then s.usage.2 * 256 + s.usage.1
  else if off = 0x058 then s.strike.pins.length
  else if off = 0x408 then wmaxOf s.pipes
  else stored

/-- The words of a CLU page that are not stored. -/
def State.cluView (s : State) (c off stored : Nat) : Nat :=
  let core := fun (k : Nat) => s.coreAt (16 * c + k)
  if off = 0x00C then
    bitIf ((List.range 16).any (fun k => !(core k).sb.isEmpty)) 8 +
      (if !s.cluEn c then 0 else if s.fld (pageOf .clu c) 0x040 15 0 ≠ 0 then 5
       else if (List.range 16).all (fun k => (core k).take.isSome) then 1 else 2)
  else if off = 0x044 then bitsWhere 16 (fun k => (core k).take.isSome)
  else if off = 0x048 then bitsWhere 16 (fun k => (core k).mode == .handler)
  else if off = 0x04C then bitsWhere 16 (fun k => decide (s.fld (corePage (16 * c + k)) 0x040 0 0 = 1))
  else stored

/-- The words of a CORE page that are not stored. -/
def State.coreView (s : State) (key off stored : Nat) : Nat :=
  let x := s.coreAt key
  if off = 0x00C then
    bitIf (x.held.any (fun h => h.task.isNone)) 11 + bitIf (x.mode == .handler) 10 + bitIf (x.mode != .operator) 9 +
      bitIf (!x.sb.isEmpty) 8 + (if !s.cluEn (key / 16) then 0 else if x.stopped then 5 else if x.take.isSome then 1 else 2)
  else if off = 0x074 then (match x.held with
    | some h => h.item.pipe
    | none => 0)
  else if off = 0x078 then (if x.held.isSome then (x.cnt 0).toNat else 0)
  else stored

/-- The words of an L2 page that are not stored. -/
def State.l2View (s : State) (c off stored : Nat) : Nat :=
  if off = 0x00C then stored + bitIf (s.l2Busy c) 8
  else if off = 0x060 then (s.cluster c).l2.dirtyCount
  else stored

/-- Keys of foreground items held or waiting, each once (R279). -/
def State.fgKeys (s : State) (c : Nat) : List Word64 :=
  ((heldKeys (s.heldIn c)).filterMap (fun k => if k.1 then some k.2 else none) ++
    (s.disp c).items.filterMap (fun q => if q.fg && q.item.keyed then some q.item.key else none)).eraseDups

/-- The words of a DISP page that are not stored. -/
def State.dispView (s : State) (c off stored : Nat) : Nat :=
  let d := s.disp c
  let hs := s.heldIn c
  let ready := fun (fg : Bool) => countIf d.items (fun q => q.fg == fg && q.stamp.isSome)
  if off = 0x00C then
    bitIf (s.fld (dispPage c) 0x060 9 0 == 0) 9 + bitIf (!hs.isEmpty) 8 +
      (if hs.isEmpty && d.items.isEmpty && d.taskStamp.isEmpty then 1 else 2)
  else if off = 0x064 then ready false * 65536 + ready true
  else if off = 0x068 then s.heldBg c * 65536 + countIf hs (fun h => h.fg)
  else if off = 0x06C then d.cueDelays.length * 65536 + d.beatDelays.length
  else if off = 0x070 then d.bgKeys.length * 65536 + (s.fgKeys c).length
  else stored

/-- The words of a CIC page that are not stored. -/
def State.cicView (s : State) (c off stored : Nat) : Nat :=
  let en := decide (s.fld (cicPage c) 0x008 0 0 = 1)
  if off = 0x00C then
    bitIf ((List.range 16).any (fun k => (s.offerTo c k).isSome)) 8 +
      (if !en then 0 else if (List.range 16).any (fun k => (s.coreAt (16 * c + k)).inCic) then 2 else 1)
  else if off = 0x048 then bitsWhere 32 (fun i => s.cicPending c i)
  else if off = 0x04C then bitsWhere 31 (fun i => s.cicPending c (32 + i))
  else if 0x100 ≤ off ∧ off < 0x1FC then stored + bitIf (cicLevel ((off - 0x100) / 4)) 16
  else stored

/-- The words of the IRTR page that are not stored. -/
def State.irtrView (s : State) (off stored : Nat) : Nat :=
  if 0x040 ≤ off ∧ off < 0x050 then bitsWhere 32 (fun j => s.routerInput (32 * ((off - 0x040) / 4) + j))
  else if 0x060 ≤ off ∧ off < 0x090 then bitsWhere 16 (fun l => s.routerLine ((off - 0x060) / 4) l)
  else stored

/-- STAT of a DIG page. -/
def State.digStat (s : State) (page : Nat) : Nat :=
  let u := s.dig page
  u.susp.length * 2 ^ 24 + u.fifo.length * 65536 + bitsWhere 4 (fun i => u.slots.any (fun x => x.1 == i)) * 4096 +
    bitIf (!u.slots.isEmpty) 8 + (if u.busy then 2 else 1)

/-- The unit of a memory controller's STAT (R256, R260, R265). -/
def State.memcStat (s : State) (m : Nat) : Nat :=
  let x := s.memc m
  bitIf x.trained 10 + bitIf x.selfRefresh 9 + bitIf x.op.isSome 8 + x.unit

/-- UNIT_STATE of a lane on a controller: OFF while the controller is offline, FROZEN with it (the SCAN and PROBE pages). -/
def State.laneUnit (s : State) (m stored : Nat) : Nat :=
  let u := (s.memc m).unit
  if u = 0 then 0 else if u = 4 then 4 else stored % 16

/-- The delay that DLY_SEL names (R260): where none has been set it is a free value (Assumption 3). -/
def State.dlyOf (s : State) (m : Nat) : Nat :=
  let pg := memtPage m
  let key := dlyKey (s.fld pg 0x450 19 16) (s.fld pg 0x450 11 8) (s.fld pg 0x450 2 0)
  match (s.memc m).dly.find? (fun p => p.1 == key) with
  | some p => p.2
  | none => (Config.untrainedDelay (m * 2048 + key)).toNat

/-- Whether the training fields of a MEMT page answer: TRAIN mode of a DDR5 controller (the MEMT page). -/
def State.memtOpen (s : State) (m : Nat) : Bool := s.inTrain m && decide (m < 16)

/-- Expert fields of the MEMT page that answer in every mode. -/
def memtAlways : List Nat := [0x450, 0x454, 0x458, 0x45C, 0x460, 0x480]

/-- The words of a MEMT page. -/
def State.memtView (s : State) (m off stored : Nat) : Nat :=
  if off = 0x00C then s.memcStat m
  else if off = 0x454 then s.dlyOf m
  else if 0x400 ≤ off ∧ !s.memtOpen m ∧ !memtAlways.contains off then 0
  else stored

/-- Whether a change that waits writes to an array (UPDATING). -/
def State.camUpdating (s : State) (a : Nat) : Bool :=
  s.camDeltas.any (fun c => (handleArrays c.target).contains a && !c.ok) || (match s.adminWait with
    | some w => (match w.change with
      | .camFull c => (handleArrays c.target).contains a && !c.written
      | _ => false)
    | none => false)

/-- The words of a CAM page that are not stored. -/
def State.camView (s : State) (a off stored : Nat) : Nat :=
  let n := (s.cam a).ents.length
  if off = 0x00C then (s.unit (camPage a)).fifo.length * 65536 + bitIf (s.camUpdating a) 9 + bitIf (Word.bit 8 stored) 8 +
    (if n = 0 then 1 else 2)
  else if off = 0x048 then n
  else if off = 0x068 then countIf s.camDeltas (fun c => (handleArrays c.target).contains a)
  else stored

/-- The words of an LSU page that are not stored. -/
def State.lsuView (s : State) (u off stored : Nat) : Nat :=
  let runs := s.lsu.runs.filter (fun r => r.unit == u)
  let ver := countIf runs (fun r => r.verify)
  let signing := runs.any (fun r => !r.verify)
  if off = 0x00C then
    (2 ^ min ver 4 - 1) * 65536 + bitIf signing 9 + bitIf (!runs.isEmpty) 8 +
      (if s.lsu.faulted.contains u then 5 else if !s.unitEn (lsuPage u) then 0 else if runs.isEmpty then 1 else 2)
  else if off = 0x048 then s.lsu.verify.length * 65536 + s.lsu.sign.length
  else stored

/-- VERSION of a firmware slot, 0 when it is not valid (the FLASH page). -/
def State.slotVersion (s : State) (i : Nat) : Nat := match s.flash.verify i with
  | .ok (some x) => x.info.version
  | .ok none => Config.fwVersion
  | .error _ => 0

/-- The words of the FLASH page that are not stored. -/
def State.flashView (s : State) (off stored : Nat) : Nat :=
  let f := s.flash
  if off = 0x00C then
    f.booted * 1024 + bitIf f.fallback 9 + bitIf f.busy 8 +
      (if s.reg flashPage 0x020 = 0x0100 then 5 else if f.busy then 2 else 1)
  else if off = 0x040 then f.active
  else if off = 0x044 then s.slotVersion 0
  else if off = 0x048 then s.slotVersion 1
  else if off = 0x04C then f.svnFuse * 256 + s.fwSvn
  else if off = 0x050 then 15 * 16 + f.revoked
  else stored

/-- Word `i` of a list of bytes, byte 0 lowest. -/
def wordAt (bs : List Byte) (i : Nat) : Nat := Word.leValue ((bs.drop (4 * i)).take 4)

/-- The words of the KEYS page that are not stored. -/
def State.keysView (s : State) (off stored : Nat) : Nat :=
  if off = 0x00C then bitIf s.keys.kt.isSome 9 + bitIf (!s.keys.comps.isEmpty) 8 + 2
  else if off = 0x040 then (match s.keys.kt with
    | some k => k.1
    | none => 0)
  else if off = 0x044 then (match s.keys.kt with
    | some k => Word.leValue (kcv k.2)
    | none => 0)
  else if 0x048 ≤ off ∧ off < 0x068 then wordAt (keyHash Config.identityPub) ((off - 0x048) / 4)
  else if off = 0x068 then s.slotsUsed 3 * 65536 + s.slotsUsed 1
  else if off = 0x06C then s.slotsUsed 4 * 65536 + s.slotsUsed 2
  else stored

/-- FIFO level and level bits of STAT that the units of SCAN, PROBE, FCODEC and CMP show. -/
def State.levelStat (s : State) (b : Blk) (i page stored : Nat) : Nat :=
  let u := s.unit page
  let base := stored % 65536
  match b with
  | .scan => u.fifo.length * 65536 + base / 16 * 16 + s.laneUnit i stored
  | .probe => u.fifo.length * 65536 + base / 16 * 16 + s.laneUnit i stored
  | .cmp => u.fifo2.length * 2 ^ 24 + u.fifo.length * 65536 + base
  | _ => u.fifo.length * 65536 + base

/-- The partner's HELLO bytes, shown while the port is ACTIVE or REFUSED (the WPEER page). -/
def State.wpeerView (s : State) (p stored : Nat) : Nat := if s.lstate p = 5 ∨ s.lstate p = 7 then stored else 0

/-- The word a block's page shows at a block-defined offset, from the stored word. -/
def State.blockView (s : State) (b : Blk) (i page off stored : Nat) : Nat := match b with
  | .moddir => if off = 0x00C then 2 else if off = 0x040 then 35
      else if 0x080 ≤ off then dirWord ((off - 0x080) / 16) ((off - 0x080) / 4 % 4) else stored
  | .modid => if off = 0x00C then 2 else if off = 0x044 then s.build.ordering
      else if off = 0x048 ∨ off = 0x04C then half s.build.serial (off == 0x04C) else stored
  | .modctl => if off = 0x00C then s.modctlStat else if off = 0x054 then (s.reg qengPage 0x06C).toNat
      else if off = 0x058 then (s.reg qengPage 0x070).toNat else stored
  | .pwr => if off = 0x00C then s.pwrStat else stored
  | .hep => s.hepView off stored
  | .qeng => s.qengView off stored
  | .qctx => s.qctxView i off stored
  | .cue => s.cueView off stored
  | .commit => if off = 0x00C then s.cue.unit else if off = 0x400 ∨ off = 0x404 then
      half s.stageBase (off == 0x404)
      else if off = 0x408 then s.stageMib else stored
  | .pbook => s.pbView off stored
  | .rehearse => if off = 0x00C then (if s.rehearse.paused.isSome then 3 else 1) else stored
  | .strike => s.strikeView off stored
  | .wing => if off = 0x00C then stored + bitIf (!s.sideLevel i true) 9 else stored
  | .wpeer => if 0x040 ≤ off then s.wpeerView i stored else stored
  | .wwin => stored
  | .company => stored
  | .irtr => s.irtrView off stored
  | .clu => s.cluView i off stored
  | .l2 => s.l2View i off stored
  | .disp => s.dispView i off stored
  | .cic => s.cicView i off stored
  | .dig => if off = 0x00C then s.digStat page else stored
  | .fcodec => if off = 0x00C then s.levelStat b i page stored else stored
  | .core => s.coreView i off stored
  | .memc => if off = 0x00C then s.memcStat i else stored
  | .memt => s.memtView i off stored
  | .scan => if off = 0x00C then s.levelStat b i page stored
      else if off = 0x050 then (match (s.unit page).run with
        | some r => r.at_
        | none => 0) else stored
  | .probe => if i < 16 then 0 else if off = 0x00C then s.levelStat b i page stored
      else if off = 0x060 then (s.unit page).fifo2.length else stored
  | .lsu => s.lsuView i off stored
  | .cam => s.camView i off stored
  | .cmp => if off = 0x00C then s.levelStat b i page stored else stored
  | .dma => stored
  | .keys => s.keysView off stored
  | .mgmt => if off = 0x00C then 2 else if off = 0x044 then s.mgmt.reqs.length else stored
  | .flash => s.flashView off stored

/-- A 64-bit value read in two halves: a stored counter, or a value of the block's state. -/
def State.wideView (s : State) (b : Blk) (page lo : Nat) : Nat :=
  if b = .cue then s.cue.number
  else if b = .modctl then s.mdl.faultCue
  else if b = .strike ∧ lo = 0x050 then s.oldestPin.getD (2 ^ 64 - 1)
  else if b = .strike then (s.margin.getD 0) % 2 ^ 48
  else if b = .pbook ∧ lo = 0x050 then s.pbook.next
  else if b = .pbook ∧ lo = 0x058 then s.pbook.exported
  else if b = .pbook ∧ lo = 0x068 then s.pbook.sealedAct
  else if b = .scan ∧ lo = 0x048 then (match (s.unit page).run with
    | some r => field r.job.desc 56 8
    | none => 0)
  else s.wideAt page lo

/-- UNIT_STATE of a page, as its STAT shows it. -/
def State.unitState (s : State) (page : Nat) : Nat := match blkAt page with
  | some (b, i) => s.blockView b i page 0x00C (s.reg page 0x00C).toNat % 16
  | none => 0

/-- Whether a read's value is open (Assumption 3): the input power, whether a cue past its commit point is past beat P too, and whether
foreground traffic holds a running scan lane back (FG_WAIT, R257). -/
def State.openView (s : State) (b : Blk) (page off v : Nat) : Nat × State :=
  if b = .pwr ∧ off = 0x050 then
    let (x, t) := s.freeW
    (x.toNat % 65536, t)
  else if b = .cue ∧ off = 0x00C ∧ (s.cue.phase = .due ∨ s.cue.phase = .swept) then
    let (x, t) := s.freeW
    (v + x.toNat % 2 * 2048, t)
  else if b = .scan ∧ off = 0x00C ∧ (s.unit page).run.isSome then
    let (x, t) := s.freeW
    (v + x.toNat % 2 * 512, t)
  else (v, s)

/-- A read of one word of a page (R500–R502): a reserved position and an offset without a register read 0, a write-only field reads 0, and
the low word of a 64-bit counter latches the high one. -/
def State.readWord (s : State) (page off : Nat) : Word32 × State :=
  match blkAt page with
  | none => (0, s)
  | some (b, i) =>
    let stored := (s.reg page off).toNat
    if off = 0x000 then (BitVec.ofNat 32 (typeOf b * 65536 + i % 256 * 256 + 1), s)
    else if b = .probe ∧ i < 16 then (0, s)
    else if off = 0x004 then (BitVec.ofNat 32 (bitIf (hasExpert b) 31 + bitIf (decide (0 < evtCount b)) 30), s)
    else if off = 0x018 then (s.evtPend page, s)
    else if b = .dig ∧ 0x080 ≤ off ∧ off < 0x0C0 then s.digResultRead page ((off - 0x080) / 4)
    else match latchPairs.find? (fun l => decide (l.1 = b) && l.2.1 == off) with
      | some l =>
        let v := s.wideView b page off
        (BitVec.ofNat 32 v, s.setReg page l.2.2 (BitVec.ofNat 32 (v / 2 ^ 32)))
      | none =>
        let (v, t) := s.openView b page off (s.blockView b i page off stored)
        (BitVec.ofNat 32 v, t)

end Sys2Proof.Machine
end

