-- ==== Sys2Proof/Machine/Pages.lean ====
section
/-!
DEFINITION. What a store to a register page does: the common layout (R500–R504), the rules that refuse a write, and the action of each
block's registers. A field that shares a word with others is refused alone where its rule names the field.
-/
namespace Sys2Proof.Machine
open Sys2Proof

/-- Who makes a register access: the driver through BAR0, the stage manager or the management path, or a core. -/
inductive PageAgent where
  | driver | manager | core (key : Nat)
  deriving DecidableEq, Repr

/-- The core whose item submits a job by a store, if the store is an item's (R213). -/
def State.submitCore (s : State) : PageAgent → Option Nat
  | .core key => if (s.coreAt key).held.isSome then some key else none
  | _ => none

/-! ## Plain fields -/

/-- The word that a plain write leaves: writable bits stored, bits written 1 cleared, and every other bit kept. -/
def RegRow.store (r : RegRow) (old v : Word32) : Word32 :=
  (((old &&& ~~~(BitVec.ofNat 32 r.rw)) ||| (v &&& BitVec.ofNat 32 r.rw)) &&& ~~~(v &&& BitVec.ofNat 32 r.w1c))

/-- A plain write of a word (R500, R501). -/
def State.plainWrite (s : State) (b : Blk) (page off : Nat) (v : Word32) : State := match rowAt b off with
  | some r => s.setReg page off (r.store (s.reg page off) v)
  | none => s

/-- A write that a rule refuses: the offset goes to ERR_INFO0. -/
def State.refuseWrite (s : State) (page off code : Nat) : State := s.err (errPage page) code off 0 0

/-- A field at bit 0 of its word that takes the values `lo` to `hi`. -/
def State.rangeWrite (s : State) (b : Blk) (page off code lo hi : Nat) (v : Word32) : State := match rowAt b off with
  | some r =>
    let x := (v &&& BitVec.ofNat 32 r.rw).toNat
    if lo ≤ x ∧ x ≤ hi then s.plainWrite b page off v else s.refuseWrite page off code
  | none => s

/-- The fields whose range is their whole rule: block, offset, lowest and highest value, and the code of PARAM_RANGE. -/
def plainRanges : List (Blk × Nat × Nat × Nat × Nat) := [
  (.keys, 0x070, 0, 800, 0x0100), (.keys, 0x074, 0, 800, 0x0100), (.keys, 0x078, 0, 800, 0x0100),
  (.hep, 0x048, 50, 100000, 0x0100), (.hep, 0x400, 32, 1024, 0x0100),
  (.mgmt, 0x040, 0x08, 0x77, 0x0100),
  (.wing, 0x040, 2, 1000, 0x0100), (.wing, 0x400, 1, 15, 0x0100), (.wing, 0x404, 1, 15, 0x0100),
  (.wwin, 0x048, 30, 40, 0x0100),
  (.strike, 0x044, 1, 255, 0x0100),
  (.disp, 0x040, 0, 16, 0x0103),
  (.dma, 0x400, 1, 64, 0x0100),
  (.cmp, 0x400, 4, 255, 0x0107)]

/-- Ranges of the parameters of the CUE page (R73). -/
def cueRanges : List (Nat × Nat × Nat) := [
  (0x040, 20, 200), (0x044, 1, 800), (0x048, 1, 800), (0x04C, 1, 64), (0x050, 0, 50), (0x054, 1, 1024), (0x400, 6, 100)]

/-! ## Blocks of the module -/

/-- CUE.CTL.EN written 1 acts as START_CUES without a completion, and a start that would be refused records START_REFUSED (R72, R73, R75).
A status without a reason leaves ERR_INFO0 0. -/
def State.cueStartWrite (s : State) : State :=
  let refuse := fun (info : List Byte) => s.err cuePage 0x0103 (field info 0 4) (field info 4 4) 0
  if s.mdl.curtain || s.mdl.halt || s.isFollower then refuse []
  else match s.startCheck with
    | some r => refuse r.info
    | none => s.startCues

/-- CUE SOFT_RESET: the parameters return to their reset values and the counters are cleared; the number and the stretch of the last cue stay
(R72). -/
def State.cueSoftReset (s : State) : State :=
  if s.running then s.refuseWrite cuePage 0x008 0x0101
  else
    let s1 := (cueRanges.map Prod.fst).foldl (fun t off => t.setReg cuePage off (resetOf .cue off)) s
    (s1.setReg cuePage 0x068 (s1.reg cuePage 0x068 &&& 0xFF)).zeroRegs cuePage [0x06C]

/-- A write to the CUE page (R72, R73). Bits [7:4] that repeat the timebase in force are no write to it (Assumption 139). -/
def State.cueWrite (s : State) (off : Nat) (v : Word32) : State :=
  if off = 0x008 then
    let mode := Word.bits 7 4 v.toNat
    let s1 := if mode = s.fld cuePage 0x008 7 4 then s
      else if s.running then s.refuseWrite cuePage off 0x0101
      else if 1 < mode then s.refuseWrite cuePage off 0x0100
      else s.setFld cuePage 0x008 7 4 mode
    let s2 := if Word.bit 1 v.toNat then s1.cueSoftReset else s1
    if Word.bit 0 v.toNat then s2.cueStartWrite else s2.holdCommand
  else match cueRanges.find? (fun r => r.1 == off) with
    | some (_, lo, hi) => if s.running then s.refuseWrite cuePage off 0x0101 else s.rangeWrite .cue cuePage off 0x0100 lo hi v
    | none => s.plainWrite .cue cuePage off v

/-- COMMIT SOFT_RESET clears its counters (the COMMIT page). -/
def State.commitSoftReset (s : State) : State := s.zeroRegs (pageOf .commit 0) [0x05C, 0x060, 0x40C]

/-- PBOOK SOFT_RESET clears its counters (the PBOOK page). -/
def State.pbookSoftReset (s : State) : State := s.zeroRegs pbPage [0x070]

/-- A write of REGION or INPUT_LOG (R360). -/
def State.pbookSize (s : State) (off lo hi : Nat) (v : Word32) : State :=
  if s.pbook.alloc && s.pbook.verify != 3 then s.refuseWrite pbPage off 0x0101 else s.rangeWrite .pbook pbPage off 0x0100 lo hi v

/-- A write to the PBOOK page. -/
def State.pbookWrite (s : State) (off : Nat) (v : Word32) : State :=
  if off = 0x008 then if Word.bit 1 v.toNat then s.pbookSoftReset else s
  else if off = 0x040 then s.pbookSize off 1 64 v
  else if off = 0x044 then s.pbookSize off 0 65536 v
  else s.plainWrite .pbook pbPage off v

/-- KEYS SOFT_RESET clears its counters (the KEYS page). -/
def State.keysSoftReset (s : State) : State := s.zeroRegs keysPage [0x07C, 0x080]

/-- QENG SOFT_RESET clears its counters (the QENG page). -/
def State.qengSoftReset (s : State) : State := s.zeroRegs qengPage [0x074, 0x078]

/-- A write to the QENG page: the AQ registers are closed while the pair is enabled (R407, R433). -/
def State.qengWrite (s : State) (off : Nat) (v : Word32) : State :=
  let pg := qengPage
  if off = 0x008 then if Word.bit 1 v.toNat then s.qengSoftReset else s
  else if 0x040 ≤ off ∧ off ≤ 0x064 then
    let x := v.toNat
    if s.fld pg 0x040 31 31 = 1 then s.refuseWrite pg off 0x0101
    else if off = 0x040 then
      if Word.bit 31 x then s.aqEnable (Word.bits 4 0 x)
      else if outOf 4 16 (Word.bits 4 0 x) then s.refuseWrite pg off 0x0100 else s.setReg pg off (BitVec.ofNat 32 (Word.bits 4 0 x))
    else if off = 0x048 ∨ off = 0x050 ∨ off = 0x058 ∨ off = 0x060 then s.setReg pg off (v &&& 0xFFFF#32)
    else if off = 0x05C then s.setReg pg off (v &&& 0xFFFFF000#32)
    else if off = 0x064 then
      if outOf 12 44 (Word.bits 5 0 x) then s.refuseWrite pg off 0x0100 else s.setReg pg off (BitVec.ofNat 32 (Word.bits 5 0 x))
    else s.setReg pg off v
  else s.plainWrite .qeng pg off v

/-- Whether an inbound window lies wholly in one cluster's populated green room or wholly in HBM; an empty window lies anywhere (R397). -/
def State.inwinOk (s : State) (base mib : Nat) : Bool :=
  let e := base + mib * 2 ^ 20
  mib == 0 || decide (e ≤ 0x003600000000) || (List.range 12).any (fun c =>
    let g := 0xC00000000000 + c * 0x01000000
    decide (g ≤ base) && decide (e ≤ g + s.greenNow c * 524288))

/-- A write to the HEP page (R397, R427, R432). -/
def State.hepWrite (s : State) (off : Nat) (v : Word32) : State :=
  let pg := hepPage
  let x := v.toNat
  let size := s.fld pg 0x060 7 0
  if off = 0x008 then if Word.bit 1 x then s.hepSoftReset else s
  else if off = 0x044 then if Word.bit 31 x then s.containRelease else s
  else if off = 0x058 then
    let w := v &&& 0xFFF00000#32
    if s.inwinOk (w.toNat + s.fld pg 0x05C 15 0 * 2 ^ 32) size then s.setReg pg off w else s.refuseWrite pg off 0x0100
  else if off = 0x05C then
    let w := v &&& 0xFFFF#32
    if s.inwinOk ((s.reg pg 0x058).toNat + w.toNat * 2 ^ 32) size then s.setReg pg off w else s.refuseWrite pg off 0x0100
  else if off = 0x060 then
    let n := Word.bits 7 0 x
    if n ≤ 240 ∧ s.inwinOk s.inwinBase n = true then s.setReg pg off (BitVec.ofNat 32 n) else s.refuseWrite pg off 0x0100
  else s.plainWrite .hep pg off v

/-- A write to the MODCTL page. -/
def State.modctlWrite (s : State) (off : Nat) (v : Word32) : State :=
  if off = 0x008 then if Word.bit 1 v.toNat then s.modctlSoftReset else s
  else if off = 0x040 then s.moduleReset (Word.bits 15 0 v.toNat)
  else s.plainWrite .modctl modctlPage off v

/-- A write to the PWR page (R482, R484). -/
def State.pwrWrite (s : State) (off : Nat) (v : Word32) : State :=
  if off = 0x008 then if Word.bit 1 v.toNat then s.pwrSoftReset else s
  else if off = 0x040 then if Word.bit 0 v.toNat then s.standbyRequest else s.standbyExit
  else s.plainWrite .pwr pwrPage off v

/-- A write of STRIKE.STAGE_PCT: 10 ≤ STAGE1 < STAGE2 < STAGE3 ≤ 99 (R104). -/
def State.strikeWrite (s : State) (off : Nat) (v : Word32) : State :=
  let pg := pageOf .strike 0
  let a := Word.bits 7 0 v.toNat
  let b := Word.bits 15 8 v.toNat
  let c := Word.bits 23 16 v.toNat
  if off = 0x008 then if Word.bit 1 v.toNat then s.strikeSoftReset else s
  else if off = 0x040 then if 10 ≤ a ∧ a < b ∧ b < c ∧ c ≤ 99 then s.plainWrite .strike pg off v else s.refuseWrite pg off 0x0100
  else s.plainWrite .strike pg off v

/-! ## Wing ports and the company -/

/-- Whether the registers that define the company are closed (R471). -/
def State.companyLocked (s : State) : Bool := s.running || (List.range 4).any (fun p => s.lstate p == 5)

/-- A write to the COMPANY page (R471). Bits of a SHARD word outside its entries read 0. -/
def State.companyWrite (s : State) (off : Nat) (v : Word32) : State :=
  let pg := companyPage
  if off = 0x008 then
    let mode := Word.bits 7 4 v.toNat
    let s1 := if mode = s.companyMode then s
      else if s.companyLocked then s.refuseWrite pg off 0x0101
      else if 3 < mode then s.refuseWrite pg off 0x0100
      else s.setFld pg off 7 4 mode
    if Word.bit 1 v.toNat then s1.companySoftReset else s1
  else if (0x040 ≤ off ∧ off < 0x050) ∨ (0x400 ≤ off ∧ off < 0x500) then
    if s.companyLocked then s.refuseWrite pg off 0x0101
    else if off = 0x04C ∧ Word.bits 1 0 v.toNat = 3 then s.refuseWrite pg off 0x0100
    else if 0x400 ≤ off then s.setReg pg off (v &&& 0x03030303#32)
    else s.plainWrite .company pg off v
  else s.plainWrite .company pg off v

/-- A write to a WING page (R436, R471). -/
def State.wingWriteReg (s : State) (p off : Nat) (v : Word32) : State :=
  if off = 0x008 then
    let s1 := if Word.bit 1 v.toNat then s.wingSoftReset p else s
    s1.wingCtl p v
  else s.plainWrite .wing (wingPage p) off v

/-- A write to a WWIN page (R469, R471). -/
def State.wwinWrite (s : State) (p off : Nat) (v : Word32) : State :=
  let pg := wwinPage p
  let closed := [0x040, 0x044, 0x04C, 0x050, 0x054].contains off && s.lstate p != 0
  let n := Word.bits 5 0 v.toNat
  if closed then s.refuseWrite pg off 0x0101
  else if off = 0x054 ∧ n ≠ 0 ∧ (n < 30 ∨ 47 < n) then s.refuseWrite pg off 0x0100
  else s.plainWrite .wwin pg off v

/-! ## The interrupt router and the clusters -/

/-- A write to the IRTR page; a GLITCH byte of 0 is ignored, the other bytes of the store are not (R294, R297). -/
def State.irtrWrite (s : State) (off : Nat) (v : Word32) : State :=
  let pg := irtrPage
  if off = 0x008 then if Word.bit 1 v.toNat then { s with irtr := { s.irtr with latched := [] } } else s
  else if 0x040 ≤ off ∧ off < 0x050 then if off = 0x048 then s.latchClear v else s
  else if off = 0x0C0 ∨ off = 0x0C4 then
    let zero := (List.range 4).filter (fun i => Word.bits (8 * i + 7) (8 * i) v.toNat == 0)
    let kept := zero.foldl (fun x i => Word.putBits (8 * i + 7) (8 * i) (s.fld pg off (8 * i + 7) (8 * i)) x) v.toNat
    let s1 := if zero.isEmpty then s else s.refuseWrite pg off 0x0100
    s1.plainWrite .irtr pg off (BitVec.ofNat 32 kept)
  else if 0x100 + 4 * 91 ≤ off ∧ off < 0x300 then s.refuseWrite pg off 0x0100
  else s.plainWrite .irtr pg off v

/-- CLU.CTL.EN written (R196, R232): both ways the cores of the cluster are left as a core reset leaves them. -/
def State.cluEnWrite (s : State) (c : Nat) (en : Bool) : State :=
  let pg := pageOf .clu c
  if en == s.cluEn c then (if !en && s.running then s.refuseWrite pg 0x008 0x0100 else s)
  else if !en && s.running then s.refuseWrite pg 0x008 0x0100
  else (s.setFld pg 0x008 0 0 (if en then 1 else 0)).coreResets c 0xFFFF

/-- CLU.CTL.MODE written: SERVICE clears LOCK.WAYS of the L2 (R232, R248). -/
def State.cluModeWrite (s : State) (c mode : Nat) : State :=
  let pg := pageOf .clu c
  if mode = s.fld pg 0x008 7 4 then s
  else if s.running then s.refuseWrite pg 0x008 0x0100
  else if 1 < mode then s.refuseWrite pg 0x008 0x0102
  else
    let s1 := s.setFld pg 0x008 7 4 mode
    if mode = 0 then s1.setReg (l2Page c) 0x400 0 else s1

/-- CLU SOFT_RESET and CORE_RESET: the named cores are reset, unless cues run (R196, R232). -/
def State.cluReset (s : State) (c off mask : Nat) : State :=
  if s.running then s.refuseWrite (pageOf .clu c) off 0x0100 else s.coreResets c mask

/-- A write to a CLU page (R232). -/
def State.cluWrite (s : State) (c off : Nat) (v : Word32) : State :=
  let pg := pageOf .clu c
  let x := v.toNat
  if off = 0x008 then
    let s1 := if Word.bit 1 x then s.cluReset c off 0xFFFF else s
    (s1.cluModeWrite c (Word.bits 7 4 x)).cluEnWrite c (Word.bit 0 x)
  else if off = 0x410 then if Word.bits 15 0 x = 0 then s else s.cluReset c off (Word.bits 15 0 x)
  else if off = 0x414 then
    let g := Word.bits 1 0 x
    if g = s.fld pg off 1 0 then s
    else if s.running then s.refuseWrite pg off 0x0100
    else if g = 3 then s.refuseWrite pg off 0x0102
    else s.plainWrite .clu pg off v
  else if 0x400 ≤ off ∧ off < 0x410 then if s.cluEn c then s.refuseWrite pg off 0x0101 else s.plainWrite .clu pg off v
  else s.plainWrite .clu pg off v

/-- CORE SOFT_RESET (R196, R232, R234). -/
def State.coreSoftReset (s : State) (key : Nat) : State :=
  if s.running then s.refuseWrite (corePage key) 0x008 0x0100 else s.coreReset key

/-- Whether a CORE page shows RUN (R234). -/
def State.coreBusy (s : State) (key : Nat) : Bool := s.coreView key 0x00C 0 % 16 == 2

/-- A write to a CORE page (R234). -/
def State.coreWrite (s : State) (key off : Nat) (v : Word32) : State :=
  let pg := corePage key
  if off = 0x008 then if Word.bit 1 v.toNat then s.coreSoftReset key else s
  else if 0x400 ≤ off ∧ off < 0x500 ∧ s.coreBusy key = true then s.refuseWrite pg off 0x0101
  else s.plainWrite .core pg off v

/-- A write to an L2 page (R238, R241, R245, R248). -/
def State.l2Write (s : State) (c off : Nat) (v : Word32) : State :=
  let pg := l2Page c
  if off = 0x008 then
    let s1 := if Word.bit 1 v.toNat then s.l2SoftReset c else s
    s1.l2EnWrite c (Word.bit 0 v.toNat)
  else if off = 0x040 then s.greenWrite c v
  else if off = 0x044 then if Word.bit 31 v.toNat then s.maintGo c v else s.plainWrite .l2 pg off v
  else if off = 0x050 then s.seedWrite c v
  else if off = 0x400 then s.lockWrite c v
  else if 0x404 ≤ off ∧ off ≤ 0x40C ∧ s.maintenance c = false then s.refuseWrite pg off 0x0103
  else if off = 0x40C then if Word.bit 31 v.toNat then s.preloadGo c v else s.plainWrite .l2 pg off v
  else s.plainWrite .l2 pg off v

/-- DISP SOFT_RESET clears its counters (the DISP page). -/
def State.dispSoftReset (s : State) (c : Nat) : State := s.zeroRegs (dispPage c) [0x074]

/-- A write to a DISP page (R280, R295). -/
def State.dispWrite (s : State) (c off : Nat) (v : Word32) : State :=
  let pg := dispPage c
  if off = 0x008 then if Word.bit 1 v.toNat then s.dispSoftReset c else s
  else if 0x048 ≤ off ∧ off < 0x060 then s.refuseWrite pg off 0x0100
  else if 0x400 ≤ off ∧ off < 0xC00 then
    let t := (off - 0x400) / 32
    let o := off % 32
    if o = 0 then s.taskCtl c t v else if o = 4 then s.taskMask c t v else if o = 8 then s.taskFlagsClear c t v
    else s.plainWrite .disp pg off v
  else s.plainWrite .disp pg off v

/-- A write to a CIC page (R290, R296). -/
def State.cicWrite (s : State) (c off : Nat) (v : Word32) : State :=
  let pg := cicPage c
  if off = 0x008 then
    let s1 := if Word.bit 1 v.toNat then s.cicSoftReset c else s
    s1.setFld pg off 0 0 (Word.bits 0 0 v.toNat)
  else if off = 0x040 ∨ off = 0x044 then if s.fld pg 0x008 0 0 = 1 then s.refuseWrite pg off 0x0100 else s.plainWrite .cic pg off v
  else if off = 0x058 then s.swiRaise c v
  else if 0x128 ≤ off ∧ off ≤ 0x13C then s.refuseWrite pg off 0x0101
  else s.plainWrite .cic pg off v

/-! ## Memory controllers -/

/-- A write to a MEMC page (R256, R260, R267, R269). -/
def State.memcWrite (s : State) (m off : Nat) (v : Word32) : State :=
  let pg := memcPage m
  let x := v.toNat
  if off = 0x008 then
    let s1 := if Word.bit 1 x then s.memcSoftReset m else s
    let s2 := if Word.bit 0 x then s1.memcEnable m else s1.memcDisable m
    match Word.bits 7 4 x with
    | 0 => s2.serviceMode m
    | 1 => s2.trainMode m
    | _ => s2.refuseWrite pg off 0x0102
  else if off = 0x058 ∧ Word.bits 7 0 x = 0 then s.refuseWrite pg off 0x0102
  else s.plainWrite .memc pg off v

/-- Whether a MEMT field refuses the value of a write (R269). -/
def State.memtBad (s : State) (m off : Nat) (v : Word32) : Bool :=
  let x := v.toNat
  if off = 0x400 then decide (6 < Word.bits 27 24 x) || decide (s.ranks m ≤ Word.bits 19 16 x)
  else if off = 0x408 then Word.bits 31 30 x == 3 || Word.bits 22 0 x == 0
  else if off = 0x40C then Word.bits 23 0 x == 0
  else if off = 0x450 then decide (9 < Word.bits 11 8 x) || Word.bits 2 0 x == 7 || decide (s.ranks m ≤ Word.bits 19 16 x ∧ 0 < Word.bits 19 16 x)
  else false

/-- A write to a MEMT page: the training fields take writes in TRAIN mode only (R260, R269). -/
def State.memtWrite (s : State) (m off : Nat) (v : Word32) : State :=
  let pg := memtPage m
  let x := v.toNat
  if off < 0x400 then s.plainWrite .memt pg off v
  else if off = 0x454 then
    if s.memtOpen m then
      let y := s.memc m
      let key := dlyKey (s.fld pg 0x450 19 16) (s.fld pg 0x450 11 8) (s.fld pg 0x450 2 0)
      s.setMemc m { y with dly := (key, Word.bits 6 0 x) :: y.dly.filter (fun p => p.1 ≠ key) }
    else s
  else if !memtAlways.contains off && !s.memtOpen m then s
  else if s.memtBad m off v then s.refuseWrite pg off 0x0102
  else if off = 0x400 then
    if Word.bit 31 x then s.trainGo m (Word.bits 27 24 x) (Word.bits 19 16 x) else s.setReg pg off (v &&& 0x0F0F0000#32)
  else s.plainWrite .memt pg off v

/-! ## Units -/

/-- The LO offsets of the registers that take one aligned 8-byte store (R134, R276, R277, R281). -/
def pairRegs : Blk → List Nat
  | .scan => [0x040]
  | .probe => [0x040, 0x048]
  | .fcodec => [0x040]
  | .cam => [0x040]
  | .dig => [0x040]
  | .lsu => [0x040]
  | .cmp => [0x040, 0x048]
  | .disp => [0x048, 0x050, 0x058]
  | _ => []

/-- ABORT and SOFT_RESET of a unit. How far a running job has come at the write is not given: the count of pages, keys or blocks is a
free value no greater than the job's own (Assumption 3). -/
def State.unitStop (s : State) (b : Blk) (i page : Nat) (abort reset : Bool) : State :=
  let (w, s1) := s.freeW
  let n := w.toNat
  match b with
  | .scan =>
    let k := match (s.unit page).run with
      | some r => n % (r.at_ + 1)
      | none => 0
    if reset then s1.scanSoftReset i k else if abort then s1.scanAbort i k else s
  | .probe =>
    let k := match (s.unit page).run with
      | some r => n % (field r.job.desc 6 2 + 1)
      | none => 0
    if i < 16 then s else if reset then s1.probeSoftReset (i - 16) k else if abort then s1.probeFinish (i - 16) k stAborted else s
  | .fcodec => if reset then s.codecSoftReset i else if abort then s.codecAbort i else s
  | .cam => if reset then s.camSoftReset i else if abort then s.camAbort i else s
  | .dig => if reset then s.digSoftReset page else if abort then s.digAbort page else s
  | .lsu => if reset then s.lsuSoftReset i else s
  | .cmp => if reset then s.cmpSoftReset i else if abort then s.cmpAbort i else s
  | _ => s

/-- A write of a unit's CTL: SOFT_RESET and ABORT, FLUSH of CMP, CASCADE of CAM, and EN (the SCAN, PROBE, FCODEC, CAM, DIG, LSU and CMP
pages). What a wing window answers a flush is a free value (Assumption 3). -/
def State.unitCtl (s : State) (b : Blk) (i page : Nat) (v : Word32) : State :=
  let x := v.toNat
  let s1 := s.unitStop b i page (Word.bit 8 x) (Word.bit 1 x)
  match b with
  | .cam =>
    let s2 := s1.setFld page 0x008 0 0 (s1.fld page 0x008 0 0)
    if i = 1 ∨ Word.bits 9 9 x = s2.fld page 0x008 9 9 then s2
    else if s2.running then s2.refuseWrite page 0x008 0x0106 else s2.setFld page 0x008 9 9 (Word.bits 9 9 x)
  | .cmp =>
    let s2 := s1.setFld page 0x008 0 0 (Word.bits 0 0 x)
    if Word.bit 9 x then
      let (bs, s3) := s2.freeBytes 131072
      s3.cmpFlush i bs
    else s2
  | .dig =>
    let s2 := s1.setFld page 0x008 0 0 (Word.bits 0 0 x)
    if Word.bit 0 x then s2.digFill page else s2
  | b => s1.plainWrite b page 0x008 v

/-- A write to a unit's page. The SCAN and PROBE pages name no code for a value out of range, so such a write is ignored and records
nothing (Assumption 32). -/
def State.unitWrite (s : State) (b : Blk) (i page off : Nat) (v : Word32) : State :=
  if off = 0x008 then s.unitCtl b i page v
  else if b = .scan ∧ off = 0x400 ∧ outOf 1 8 (Word.bits 3 0 v.toNat) then s
  else if b = .probe ∧ off = 0x400 ∧ outOf 16 256 (Word.bits 8 0 v.toNat) then s
  else if b = .cam ∧ off = 0x428 then s.camDiag i v
  else s.plainWrite b page off v

/-- A write to a DMA page (R366, R367, R377, R379). -/
def State.dmaWrite (s : State) (e off : Nat) (v : Word32) : State :=
  let n := (off - 0x100) / 16
  if off = 0x008 then if Word.bit 1 v.toNat then s.dmaSoftReset e else s
  else if 0x100 ≤ off ∧ off < 0x300 then
    if off % 16 = 0 then s.dmaCtlWrite e n v else if off % 16 = 4 then s.dmaBaseLo e n v else if off % 16 = 8 then s.dmaBaseHi e n v else s
  else s.plainWrite .dma (dmaPage e) off v

/-! ## A write of one word -/

/-- A write to a block-defined offset of a populated page that the common rules let through. -/
def State.blockWrite (s : State) (b : Blk) (i page off : Nat) (v : Word32) : State :=
  match plainRanges.find? (fun r => decide (r.1 = b) && r.2.1 == off) with
  | some (_, _, lo, hi, code) => s.rangeWrite b page off code lo hi v
  | none => match b with
    | .moddir => s
    | .modid => s
    | .modctl => s.modctlWrite off v
    | .pwr => s.pwrWrite off v
    | .hep => s.hepWrite off v
    | .qeng => s.qengWrite off v
    | .qctx => s.plainWrite b page off v
    | .cue => s.cueWrite off v
    | .commit => if off = 0x008 ∧ Word.bit 1 v.toNat = true then s.commitSoftReset else s.plainWrite b page off v
    | .pbook => s.pbookWrite off v
    | .rehearse => s.plainWrite b page off v
    | .strike => s.strikeWrite off v
    | .wing => s.wingWriteReg i off v
    | .wpeer => s.plainWrite b page off v
    | .wwin => s.wwinWrite i off v
    | .company => s.companyWrite off v
    | .irtr => s.irtrWrite off v
    | .clu => s.cluWrite i off v
    | .l2 => s.l2Write i off v
    | .disp => s.dispWrite i off v
    | .cic => s.cicWrite i off v
    | .core => s.coreWrite i off v
    | .memc => s.memcWrite i off v
    | .memt => s.memtWrite i off v
    | .dma => s.dmaWrite i off v
    | .keys => if off = 0x008 ∧ Word.bit 1 v.toNat = true then s.keysSoftReset else s.plainWrite b page off v
    | .mgmt => if off = 0x008 ∧ Word.bit 1 v.toNat = true then s.mgmtSoftReset else s.plainWrite b page off v
    | .flash => s.plainWrite b page off v
    | .scan => s.unitWrite b i page off v
    | .probe => s.unitWrite b i page off v
    | .fcodec => s.unitWrite b i page off v
    | .cam => s.unitWrite b i page off v
    | .dig => s.unitWrite b i page off v
    | .lsu => s.unitWrite b i page off v
    | .cmp => s.unitWrite b i page off v

/-- A write of EVT_EN. MODCTL raises vector 1 when its EVT_PEND changes from 0 (R402, R500). -/
def State.evtEnWrite (s : State) (b : Blk) (page : Nat) (v : Word32) : State :=
  let s1 := s.setReg page 0x014 v
  if b = .modctl ∧ s.evtPend page = 0 ∧ s1.evtPend page ≠ 0 then s1.raiseVector 1 else s1

/-- A write of EXPERT_KEY (R504). -/
def State.expertKey (s : State) (page : Nat) (v : Word32) : State :=
  if v = 0xE4E7#32 then s.setFld page 0x034 0 0 1
  else if v = 0 then s.setFld page 0x034 0 0 0
  else s.err (errPage page) 0x0002 v.toNat 0 0

/-- W1C to EVT_RAW (R500, R502). -/
def State.evtRawClear (s : State) (page : Nat) (v : Word32) : State := s.setReg page 0x010 (s.reg page 0x010 &&& ~~~v)

/-- A write of one word to a page (R500–R504). -/
def State.writeWord (s : State) (page off : Nat) (v : Word32) : State :=
  match blkAt page with
  | none => s
  | some (b, i) =>
    if b = .probe ∧ i < 16 then s
    else if 0x400 ≤ off ∧ s.fld page 0x034 0 0 = 0 then s.refuseWrite page off 0x0001
    else if off = 0x010 then s.evtRawClear page v
    else if off = 0x014 then s.evtEnWrite b page v
    else if off = 0x01C then s.orEvt page v.toNat
    else if off = 0x030 then s.expertKey page v
    else if off = 0x038 then (if Word.bit 0 v.toNat then s.errClear page else s)
    else if (pairRegs b).any (fun o => off == o || off == o + 4) then s.refuseWrite page off 0x0100
    else s.blockWrite b i page off v

/-! ## Agents -/

/-- Whether an agent's access reaches the page: the driver's under R424, R425 and R479, every agent's only while the module is on. -/
def State.pageReached (s : State) (ag : PageAgent) (page : Nat) : Bool :=
  if s.mdl.st == .off || s.mdl.st == .boot then false
  else match ag with
    | .driver => s.hep.linkUp && !s.hep.frozen && s.hep.d0 && (!s.mdl.halt || page == modctlPage) &&
        (!(s.mdl.st == .recovery) || page ≤ modctlPage)
    | _ => true

/-- A read by an agent. -/
def State.pageRead (s : State) (ag : PageAgent) (page off : Nat) : Word32 × State :=
  if s.pageReached ag page then s.readWord page off else (0, s)

/-- A 4-byte store by an agent. -/
def State.pageWrite (s : State) (ag : PageAgent) (page off : Nat) (v : Word32) : State :=
  if s.pageReached ag page then s.writeWord page off v else s

/-- A job submitted to a unit by its register (R134, R143, R300, R322, R328, R391). SUBMIT_SM takes the stage manager's stores only. The
blocks that a preempted digest context has absorbed are a free value (Assumption 3). -/
def State.submit (s : State) (b : Blk) (i page : Nat) (second : Bool) (addr : Nat) (core : Option Nat) (mgr : Bool) : State :=
  match b with
  | .scan => s.submitTo scanKind page addr false core
  | .probe => s.submitTo probeKind page addr second core
  | .fcodec => s.submitTo fcodecKind page addr false core
  | .cam => s.submitTo camKind page addr false core
  | .dig =>
    let (w, s1) := s.freeW
    s1.digSubmit page addr w.toNat core
  | .lsu => s.lsuSubmit i addr core mgr
  | .cmp => if second && !mgr then s.refuseWrite page 0x048 0x0106 else s.cmpSubmit i addr second core
  | _ => s

/-- An 8-byte store to a register that takes one (R134, R276, R277, R281). -/
def State.pairWrite (s : State) (ag : PageAgent) (b : Blk) (i page off : Nat) (v : Word64) : State :=
  let lo : Word32 := v.truncate 32
  let hi : Word32 := BitVec.ofNat 32 (v.toNat / 2 ^ 32)
  if b = .probe ∧ i < 16 then s
  else if b = .disp then
    if off = 0x048 then s.post i v.toNat
    else if off = 0x050 then s.signal i (Word.bits 5 0 hi.toNat) lo
    else s.delay i lo hi
  else s.submit b i page (off == 0x048) v.toNat (s.submitCore ag) (ag == .manager)

/-- An 8-byte store by an agent. At any other register the driver's is discarded as of the wrong size (R395), and another agent's writes the
two words (Assumption 31). -/
def State.pageWrite8 (s : State) (ag : PageAgent) (page off : Nat) (v : Word64) : State :=
  if !s.pageReached ag page then s
  else match blkAt page with
    | none => s
    | some (b, i) =>
      if (pairRegs b).contains off then s.pairWrite ag b i page off v
      else if ag = .driver then s.bar0BadSize (page * 4096 + off)
      else (s.writeWord page off (v.truncate 32)).writeWord page (off + 4) (BitVec.ofNat 32 (v.toNat / 2 ^ 32))

/-- What a store to a SUBMIT register charges the item that makes it, as counters and amounts (R121, R214). A descriptor that cannot be
copied charges nothing, and neither does any other register. -/
def State.submitCharges (s : State) (page off : Nat) (v : Word64) : List (Nat × Nat) :=
  let a := v.toNat
  match blkAt page with
  | none => []
  | some (b, i) =>
    if !(pairRegs b).contains off then []
    else
      let get := fun (k : UnitKind) (f : List Byte → List (Nat × Nat)) =>
        if s.submitBad k a then [] else f (s.agentRead [] a k.descLen)
      match b with
      | .probe => if i < 16 then [] else get probeKind (fun d => [(1, field d 6 2)])
      | .fcodec => get fcodecKind (fun d => if field d 0 1 < 2 then [(6, field d 4 4)] else [])
      | .cam => get camKind (fun d => [(2, field d 2 2)])
      | .dig => get digKind (fun d => [(5, s.digCharges d)])
      | .lsu => get lsuKind (fun d => if field d 0 1 = 0 then [(4, 1)] else if field d 0 1 = 1 then [(3, 1)] else [])
      | _ => []

end Sys2Proof.Machine
end

