-- ==== Sys2Proof/Machine/CoreExec.lean ====
section
/-!
DEFINITION. How a core runs one instruction (R196, R197, R212–R230): the fetch check, taking an exception and returning from
one, the operations count, the protection unit, loads and stores with the store buffer and the register bracketing, and the
barriers.
-/
namespace Sys2Proof.Machine
open Sys2Proof

/-- The exception causes (R215). -/
inductive Cause where
  | illegal | priv | align | prot | unpop | cls | ioOrder | remote | budget | itemState | trap
  deriving DecidableEq, Repr

/-- The number of a cause (R215). -/
def Cause.num : Cause → Nat
  | .illegal => 1 | .priv => 2 | .align => 3 | .prot => 4 | .unpop => 5 | .cls => 6 | .ioOrder => 7 | .remote => 8
  | .budget => 9 | .itemState => 10 | .trap => 11

/-- An exception: its cause, the faulting element, the faulting address and the budget counter, where it has them (R215). -/
structure Exc where
  cause : Cause
  elem : Option Nat := none
  addr : Option Nat := none
  counter : Nat := 0
  deriving DecidableEq, Repr

/-- What an instruction does: it retires with a new state, raises an exception having changed nothing, or waits having
changed nothing (R215, R220, R225). -/
inductive CoreRes where
  | retire (s : State)
  | raise (e : Exc)
  | wait
  deriving DecidableEq, Repr

/-- What the core knows of an instruction before it runs: its word, whether it is a vector instruction, firmware-only,
counted in OPS, and legally encoded (R202, R203, R213). -/
structure InstrInfo where
  word : Word32
  vector : Bool := false
  priv : Bool := false
  counted : Bool := true
  legal : Bool := true
  deriving DecidableEq, Repr

/-! ## Exceptions -/

/-- An exception raised in handler mode is a double fault: the core stops, its buffer is treated as at a core reset, the
fault is recorded and the module enters the safety curtain, class 2 (R219, R222, R485). -/
def State.doubleFault (s : State) (key : Nat) : State :=
  let pg := corePage key
  let s1 := ((s.setFld pg 0x040 2 2 1).setFld pg 0x00C 3 0 5).evt pg 1
  let s2 := (s1.setFld (pageOf .clu (key / 16)) 0x040 (key % 16) (key % 16) 1).evt (pageOf .clu (key / 16)) 0
  let s3 := (s2.discardSb key).setCoreAt key { (s2.discardSb key).coreAt key with stopped := true, take := none, resv := none }
  s3.enterCurtain 2 pg

/-- Taking an exception, the one shared entry (R196, R215): EPC, ECAUSE, EADDR for memory causes, EELEM for vector
instructions, EINST and EMODE are recorded, EXC.COUNT and the EXCEPTION event follow, and the core enters handler mode at
EBASE + 64 × cause. In handler mode it is a double fault. -/
def State.takeException (s : State) (key : Nat) (info : InstrInfo) (e : Exc) : State :=
  if (s.coreAt key).mode = .handler then s.doubleFault key
  else
    let pg := corePage key
    let cause := e.cause.num + (if info.vector then 256 else 0) + e.counter * 512
    let s1 := (s.setReg pg 0x05C (BitVec.ofNat 32 cause)).setReg pg 0x06C info.word
    let s2 := match e.addr with
      | some a => s1.setPageAddr pg 0x064 0x068 a
      | none => s1
    let s3 := if info.vector then s2.setFld pg 0x060 7 0 (e.elem.getD 0) else s2
    ((s3.addReg pg 0x07C 1).evt pg 3).enterHandler key (s.ebase (key / 16) + 64 * e.cause.num)

/-- Returning from an exception or an interrupt (R196, R226): the mode EMODE names, the pc from EPC, no reservation. -/
def State.returnFrom (s : State) (key : Nat) : State :=
  let x := s.coreAt key
  let mode := if s.coreEmode key = 0 then Mode.operator else Mode.firmware
  s.setCoreAt key { x with mode := mode, pc := BitVec.ofNat 64 (s.pageAddr (corePage key) 0x054 0x058), resv := none,
                           inCic := false }

/-! ## The protection unit -/

/-- The lowest-numbered enabled region that contains an address (R227, R229), as its BASE_LO word. -/
def State.protRegion (s : State) (key a : Nat) : Option Nat :=
  let pg := corePage key
  (List.range 16).findSome? (fun n =>
    let lo := (s.reg pg (0x400 + 16 * n)).toNat
    let base := Word.bits 31 12 lo + s.fld pg (0x404 + 16 * n) 15 0 * 2 ^ 20
    let lim := s.fld pg (0x408 + 16 * n) 31 12 + s.fld pg (0x40C + 16 * n) 15 0 * 2 ^ 20
    if Word.bit 0 lo && decide (base ≤ a / 4096) && decide (a / 4096 ≤ lim) then some lo else none)

/-- The kinds of access the protection unit tells apart, with the region bit each needs (R229). -/
inductive Access where
  | load | store | fetch
  deriving DecidableEq, Repr

/-- The region bit of an access. -/
def Access.bit : Access → Nat
  | .load => 1 | .store => 2 | .fetch => 3

/-- The check of one access: alignment, protection in operator mode, population in every mode (R205, R210, R229). -/
def State.checkAccess (s : State) (key : Nat) (acc : Access) (a size : Nat) : Option Cause :=
  if a % size ≠ 0 then some .align
  else
    let refused := (s.coreAt key).mode = .operator &&
      !(match s.protRegion key a with
        | some lo => Word.bit acc.bit lo
        | none => false)
    if refused then some .prot
    else if !s.populated a then some .unpop
    else none

/-! ## Running an instruction -/

/-- Whether a core executes instructions: the module serves, the cluster is enabled, and the core is neither stopped nor
waiting in TAKE (R196, R212, R287). -/
def State.coreRuns (s : State) (key : Nat) : Bool :=
  !s.mdl.curtain && !s.mdl.halt && (s.mdl.st == .ready || s.mdl.st == .service) && s.cluEn (key / 16) &&
    !(s.coreAt key).stopped && (s.coreAt key).take.isNone

/-- The retirement count: an instruction of the item context outside handler mode counts in OPS; one that would take COUNT0
above BUDGET0 does not retire (R214, R274). An MTS to COUNT0 is counted on top of the value it writes (R198, Assumption 142). -/
def State.countOps (s before : State) (key : Nat) (info : InstrInfo) : State :=
  let x0 := before.coreAt key
  match x0.held with
  | some h =>
    if info.counted && x0.mode ≠ .handler && (s.coreAt key).undef == x0.undef then
      if h.checked && decide ((x0.bud 0).toNat < (x0.cnt 0).toNat + 1) then
        before.takeException key info { cause := .budget, counter := 0 }
      else s.setCoreAt key ((s.coreAt key).setCnt 0 ((s.coreAt key).cnt 0 + 1))
    else s
  | none => s

/-- Whether a fetch waits for the L2, which a disable is cleaning (R242). -/
def State.fetchWaits (s : State) (key a : Nat) : Bool := s.cacheable a && !s.l1iHeld key a && s.l2Waits (key / 16)

/-- The module once a core has fetched an instruction: its line is in the L1 instruction cache, and a parity error there is counted and the line
fetched again (R194, R195). -/
def State.fetched (s : State) (w : CoreRef) : State :=
  let key := coreKey w
  let a := (s.coreAt key).pc.toNat
  let s1 := s.l1Fetch key a
  if w.parity && s.l1iHeld key a then (s1.l1Error key a).errorSeen else s1

/-- One instruction on one core, from the fetch check to retirement (R196, R202, R214, R215, R229). A fault of the fetch
itself has no instruction word, and EINST then receives a free value (Assumption 3). -/
def runCore (w : CoreRef) (info : InstrInfo) (body : State → Nat → Core → CoreRes) (s : State) : State :=
  let key := coreKey w
  let x := s.coreAt key
  if !s.coreRuns key then s
  else match x.budgetStop with
    | some id => (s.setCoreAt key { x with budgetStop := none }).takeException key info { cause := .budget, counter := id }
    | none =>
      match s.checkAccess key .fetch x.pc.toNat 4 with
      | some c =>
        let (v, s1) := s.freeW
        s1.takeException key { word := v.truncate 32 } { cause := c, addr := some x.pc.toNat }
      | none =>
        if s.fetchWaits key x.pc.toNat then s
        else
          let t := s.fetched w
          if !info.legal then t.takeException key info { cause := .illegal }
          else if info.priv && x.mode == .operator then t.takeException key info { cause := .priv }
          else match body t key (t.coreAt key) with
            | .retire s1 => s1.countOps t key info
            | .raise e => t.takeException key info e
            | .wait => t

/-- An instruction that only changes the core and goes on to the next one. -/
def retireCore (s : State) (key : Nat) (x : Core) : CoreRes := .retire (s.setCoreAt key x.next)

/-! ## Loads -/

/-- What one load of a few bytes gives: the bytes and the state after it, an exception, or a wait. -/
inductive LoadRes where
  | ok (bs : List Byte) (s : State)
  | raise (c : Cause)
  | wait
  deriving DecidableEq, Repr

/-- A load of the wing window: the core sends a request and waits for the reply, which a READ_RSP frame brings; an empty reply is a refusal, and
the request counts as lost (R224, R469, R470). -/
def State.wingLoad (s : State) (key p a n : Nat) : LoadRes :=
  if !s.wingReachable p then .raise .remote
  else match (s.coreAt key).remote.find? (fun r => r.addr == a && r.size == n) with
    | some r =>
      match r.reply with
      | some [] => .raise .remote
      | some bs => .ok bs s
      | none => .wait
    | none => .wait

/-- One load of `n` bytes at an address that has passed its checks (R220–R224). A load that meets a frozen controller does
not retire (R265). -/
def State.coreLoad (s : State) (key a n : Nat) : LoadRes :=
  match s.region a with
  | .regs =>
    let page := (a - 0xF00000000000) / 4096
    let off := a % 4096
    if n = 4 then
      let (v, s1) := s.pageRead (.core key) page off
      .ok (Word.leBytes 4 v.toNat) s1
    else if n = 8 then
      let (v, s1) := s.pageRead (.core key) page off
      let (u, s2) := s1.pageRead (.core key) page (off + 4)
      .ok (Word.leBytes 4 v.toNat ++ Word.leBytes 4 u.toNat) s2
    else
      let (bs, s1) := s.freeBytes n
      .ok bs s1
  | .wing p =>
    match sbView (s.coreAt key).sb a n with
    | .part => .wait
    | .full bs => .ok bs s
    | .clear => s.wingLoad key p a n
  | .host =>
    match sbView (s.coreAt key).sb a n with
    | .part => .wait
    | .full bs => .ok bs s
    | .clear =>
      if s.hostReachable then .ok (s.hostBytesAt (a - 0xE00000000000) n) s else .raise .remote
  | _ =>
    if s.l2Waits (key / 16) || s.frozenAt a then .wait
    else match sbView (s.coreAt key).sb a n with
      | .part => .wait
      | .full bs => .ok bs s
      | .clear => .ok (s.bytesAt a n) (s.l1Load key a)

/-- A load that waits for a wing reply has its request sent (R469). -/
def State.sendRemoteLoad (s : State) (key a n : Nat) : State :=
  let x := s.coreAt key
  match s.region a with
  | .wing p =>
    if s.wingReachable p && !x.remote.any (fun r => r.addr == a && r.size == n) && sbView x.sb a n == .clear then
      (s.setCoreAt key { x with remote := x.remote ++ [{ addr := a, size := n, reply := none }] }).wingRequest p 0x20 (.load key a n) n
        (s.partnerAddr p a) []
    else s
  | _ => s

/-! ## Stores -/

/-- A store that has passed its checks: register pages at once, every other class through the store buffer (R220, R221). A register store of
1 or 2 bytes writes nothing, and a load of that size reads a free value: the spec gives a core's register accesses of 4 and 8 bytes
only (Assumptions 3 and 31). -/
def State.coreStore (s : State) (key a : Nat) (bs : List Byte) : Option State :=
  match s.region a with
  | .regs =>
    let page := (a - 0xF00000000000) / 4096
    let off := a % 4096
    if bs.length = 4 then some (s.pageWrite (.core key) page off (BitVec.ofNat 32 (Word.leValue bs)))
    else if bs.length = 8 then some (s.pageWrite8 (.core key) page off (BitVec.ofNat 64 (Word.leValue bs)))
    else some s
  | _ =>
    let x := s.coreAt key
    if 16 < x.sb.length + sbNeeds x.sb a bs.length then none
    else
      let x1 := { x with sb := sbStore x.sb (s.classOf a) a bs }
      some (s.setCoreAt key (x1.loseResvAt a bs.length))

/-- The charge of a submission by the item a core holds: the first counter it would take above its budget (R214). -/
def Core.overBudget (x : Core) : List (Nat × Nat) → Option Nat
  | [] => none
  | (id, n) :: r => if (x.bud id).toNat < (x.cnt id).toNat + n then some id else x.overBudget r

/-- The counters a submission charges, raised (R214). -/
def Core.charge (x : Core) (cs : List (Nat × Nat)) : Core :=
  cs.foldl (fun t c => t.setCnt c.1 (t.cnt c.1 + BitVec.ofNat 32 c.2)) x

/-- The core of an item after the charges of its 8-byte register stores, each an address, a size and a value, or the counter that one of them
would take above its budget (R214). -/
def State.charged (s : State) (key : Nat) : Core → List (Nat × Nat × Nat) → Except Nat Core
  | x, [] => .ok x
  | x, (a, n, v) :: r =>
    let cs := if s.classOf a == .register && n == 8 && x.held.isSome then
      s.submitCharges ((a - 0xF00000000000) / 4096) (a % 4096) (BitVec.ofNat 64 v) else []
    let checked := match x.held with
      | some h => h.checked
      | none => false
    match if checked then x.overBudget cs else none with
    | some id => .error id
    | none => s.charged key (x.charge cs) r

/-- The bracketing state after a memory instruction (R221). -/
def State.ioAfter (s : State) (key : Nat) (register : Bool) : State :=
  s.setCoreAt key { s.coreAt key with ioReady := false, ioOpen := register, remote := [] }

/-- An instruction that stores ends: one that has reset its own core leaves it as the reset does (R196). -/
def retireStored (s : State) (key : Nat) (x : Core) (register : Bool) : CoreRes :=
  if (s.coreAt key).undef != x.undef then .retire s
  else
    let s1 := s.ioAfter key register
    retireCore s1 key (s1.coreAt key)

/-! ## The bracketing of register accesses -/

/-- The check that R221 makes at a memory instruction: the trailing BAR.IO of an earlier register access, then the leading
BAR.IO of this one. -/
def State.ioCheck (s : State) (x : Core) (a : Nat) : Bool :=
  !x.ioOpen && (decide (s.classOf a ≠ .register) || x.ioReady)

/-! ## Scalar loads and stores -/

/-- A scalar load: checks, bracketing, the access, the destination and the L1 parity count (R195, R205, R221). -/
def loadBody (f : FmtM) (size : Nat) (parity : Bool) (ext : Nat → Nat) (after : Nat → Core → Core)
    (s : State) (key : Nat) (x : Core) : CoreRes :=
  let a := x.effAddr f size
  if x.ioOpen then .raise { cause := .ioOrder, addr := some a }
  else match s.checkAccess key .load a size with
    | some c => .raise { cause := c, addr := some a }
    | none =>
      if !s.ioCheck x a then .raise { cause := .ioOrder, addr := some a }
      else match s.coreLoad key a size with
        | .raise c => .raise { cause := c, addr := some a }
        | .wait => .wait
        | .ok bs s1 =>
          let s2 := if parity && s.l1Held key a then (s1.l1Error key a).errorSeen else s1
          let s3 := s2.ioAfter key (s.classOf a == .register)
          retireCore s3 key (after a ((s3.coreAt key).putG f.rt (ext (Word.leValue bs))))

/-- A scalar store: checks, bracketing, the charge of a submission, and the access (R205, R214, R221). A store that resets its own core
leaves it as the reset does. -/
def storeBody (f : FmtM) (size : Nat) (s : State) (key : Nat) (x : Core) : CoreRes :=
  let a := x.effAddr f size
  let v := x.gn f.rt
  if x.ioOpen then .raise { cause := .ioOrder, addr := some a }
  else match s.checkAccess key .store a size with
    | some c => .raise { cause := c, addr := some a }
    | none =>
      if !s.ioCheck x a then .raise { cause := .ioOrder, addr := some a }
      else
        match s.charged key x [(a, size, v)] with
        | .error id => .raise { cause := .budget, counter := id }
        | .ok y =>
          match (s.setCoreAt key y).coreStore key a (Word.leBytes size v) with
          | none => .wait
          | some s1 => retireStored s1 key x (s.classOf a == .register)

/-- An instruction whose loads wait for wing replies sends their requests meanwhile; it changes nothing else (R469). -/
def runLoads (w : CoreRef) (info : InstrInfo) (addrs : Core → List (Nat × Nat)) (body : State → Nat → Core → CoreRes)
    (s : State) : State :=
  let key := coreKey w
  let x := s.coreAt key
  let ready := s.coreRuns key && x.budgetStop.isNone && (s.checkAccess key .fetch x.pc.toNat 4).isNone &&
    !s.fetchWaits key x.pc.toNat && info.legal && !x.ioOpen
  let t := s.fetched w
  match ready, body t key (t.coreAt key) with
  | true, .wait => (addrs (t.coreAt key)).foldl (fun t a => t.sendRemoteLoad key a.1 a.2) t
  | _, _ => runCore w info body s

/-- A scalar load under `runLoads`. -/
def runLoad (w : CoreRef) (info : InstrInfo) (f : FmtM) (size : Nat) (body : State → Nat → Core → CoreRes) (s : State) : State :=
  runLoads w info (fun x => [(x.effAddr f size, size)]) body s

/-! ## Barriers -/

/-- Whether every older store of a core has been accepted (R225). -/
def Core.quiet (x : Core) : Bool := x.sb.isEmpty

end Sys2Proof.Machine
end

