-- ==== Sys2Proof/Machine/CoreInstr.lean ====
section
/-!
DEFINITION. The scalar memory instructions, the cache instructions, the branches and jumps, and the system instructions of the
cores but DONE (R203, R205, R212, R225, R226, R239, R240).
-/
namespace Sys2Proof.Machine
open Sys2Proof

/-! ## Loads and stores -/

/-- A loaded value sign-extended to 64 bits. -/
def extS (n v : Nat) : Nat := Word.wrap 64 (Word.signed (8 * n) v)


/-- LDB (R203, R205): load byte, sign-extended. -/
def execLdb (w : CoreRef) (f : FmtM) (l1Parity : Bool) (s : State) : Host.Outcome State Fault Refusal :=
  .next (runLoad w { word := wordM 0x10 0 f } f 1 (loadBody f 1 l1Parity (extS 1) (fun _ y => y)) s)

/-- LDBU (R203, R205): load byte, zero-extended. -/
def execLdbu (w : CoreRef) (f : FmtM) (l1Parity : Bool) (s : State) : Host.Outcome State Fault Refusal :=
  .next (runLoad w { word := wordM 0x10 1 f } f 1 (loadBody f 1 l1Parity id (fun _ y => y)) s)

/-- LDH (R203, R205): load halfword, sign-extended. -/
def execLdh (w : CoreRef) (f : FmtM) (l1Parity : Bool) (s : State) : Host.Outcome State Fault Refusal :=
  .next (runLoad w { word := wordM 0x10 2 f } f 2 (loadBody f 2 l1Parity (extS 2) (fun _ y => y)) s)

/-- LDHU (R203, R205): load halfword, zero-extended. -/
def execLdhu (w : CoreRef) (f : FmtM) (l1Parity : Bool) (s : State) : Host.Outcome State Fault Refusal :=
  .next (runLoad w { word := wordM 0x10 3 f } f 2 (loadBody f 2 l1Parity id (fun _ y => y)) s)

/-- LDW (R203, R205): load word, sign-extended. -/
def execLdw (w : CoreRef) (f : FmtM) (l1Parity : Bool) (s : State) : Host.Outcome State Fault Refusal :=
  .next (runLoad w { word := wordM 0x10 4 f } f 4 (loadBody f 4 l1Parity (extS 4) (fun _ y => y)) s)

/-- LDWU (R203, R205): load word, zero-extended. -/
def execLdwu (w : CoreRef) (f : FmtM) (l1Parity : Bool) (s : State) : Host.Outcome State Fault Refusal :=
  .next (runLoad w { word := wordM 0x10 5 f } f 4 (loadBody f 4 l1Parity id (fun _ y => y)) s)

/-- LDD (R203, R205): load doubleword. -/
def execLdd (w : CoreRef) (f : FmtM) (l1Parity : Bool) (s : State) : Host.Outcome State Fault Refusal :=
  .next (runLoad w { word := wordM 0x10 6 f } f 8 (loadBody f 8 l1Parity id (fun _ y => y)) s)

/-- Whether a core runs a transaction item in operator mode, where reservations are refused (R226). -/
def Core.inTxn (x : Core) : Bool :=
  x.mode == .operator && (match x.held with
    | some h => h.task.isNone && h.item.kind == 0
    | none => false)

/-- The reservation granule of a cluster in bytes: 128, 256 or 512 (R226). -/
def State.granule (s : State) (c : Nat) : Nat := 128 * 2 ^ s.fld (pageOf .clu c) 0x414 1 0

/-- Whether an address can carry a reservation: HBM, DDR5 or green room (R254). -/
def State.reservable (s : State) (a : Nat) : Bool :=
  match s.region a with
  | .hbm => true
  | .ddr => true
  | .green _ => true
  | _ => false

/-- LDRES: an 8-byte load that opens a reservation on its granule, or loses the one held where it opens none (R226, R254). -/
def ldresBody (f : FmtM) (parity : Bool) (s : State) (key : Nat) (x : Core) : CoreRes :=
  if x.inTxn then .raise { cause := .priv }
  else
    let g := s.granule (key / 16)
    loadBody f 8 parity id (fun a y =>
      { y with resv := if s.reservable a then some (a - a % g, g) else none }) s key x

/-- STCOND: the store happens only if the reservation on its granule still holds; rt says whether it did, and the reservation
closes either way (R226, R254). -/
def stcondBody (f : FmtM) (s : State) (key : Nat) (x : Core) : CoreRes :=
  let a := x.effAddr f 8
  if x.inTxn then .raise { cause := .priv }
  else if x.ioOpen then .raise { cause := .ioOrder, addr := some a }
  else match s.checkAccess key .store a 8 with
    | some c => .raise { cause := c, addr := some a }
    | none =>
      if !s.ioCheck x a then .raise { cause := .ioOrder, addr := some a }
      else
        let holds := s.reservable a && (match x.resv with
          | some (b, n) => decide (b ≤ a) && decide (a + 8 ≤ b + n)
          | none => false)
        if holds then
          match s.coreStore key a (Word.leBytes 8 (x.gn f.rt)) with
          | none => .wait
          | some s1 =>
            let s2 := s1.ioAfter key false
            retireCore s2 key { (s2.coreAt key).putG f.rt 0 with resv := none }
        else
          let s2 := s.ioAfter key false
          retireCore s2 key { (s2.coreAt key).putG f.rt 1 with resv := none }

/-- LDRES (R226, R254). -/
def execLdres (w : CoreRef) (f : FmtM) (l1Parity : Bool) (s : State) : Host.Outcome State Fault Refusal :=
  .next (runLoad w { word := wordM 0x10 7 f } f 8 (ldresBody f l1Parity) s)

/-- STB (R203, R205, R220): store byte. -/
def execStb (w : CoreRef) (f : FmtM) (s : State) : Host.Outcome State Fault Refusal :=
  .next (runCore w { word := wordM 0x10 8 f } (storeBody f 1) s)

/-- STH (R203, R205, R220): store halfword. -/
def execSth (w : CoreRef) (f : FmtM) (s : State) : Host.Outcome State Fault Refusal :=
  .next (runCore w { word := wordM 0x10 9 f } (storeBody f 2) s)

/-- STW (R203, R205, R220): store word. -/
def execStw (w : CoreRef) (f : FmtM) (s : State) : Host.Outcome State Fault Refusal :=
  .next (runCore w { word := wordM 0x10 10 f } (storeBody f 4) s)

/-- STD (R203, R205, R220): store doubleword. -/
def execStd (w : CoreRef) (f : FmtM) (s : State) : Host.Outcome State Fault Refusal :=
  .next (runCore w { word := wordM 0x10 11 f } (storeBody f 8) s)

/-- STCOND (R226, R254). -/
def execStcond (w : CoreRef) (f : FmtM) (s : State) : Host.Outcome State Fault Refusal :=
  .next (runCore w { word := wordM 0x10 12 f } (stcondBody f) s)

/-! ## Cache instructions -/

/-- A prefetch hint: the line is fetched as a load would fetch it, into L1 and L2 or into the L2 only; a hint that would fault, or that names
neither HBM nor DDR5, does nothing, and a hint never raises an exception; it waits for a disable as a load does (R205, R239, R242). -/
def hintBody (l1 : Bool) (f : FmtM) (s : State) (key : Nat) (x : Core) : CoreRes :=
  let a := x.effAddr f 128
  let ok := s.cacheable a && (s.checkAccess key .load (a - a % 8) 1).isNone && !s.frozenAt a
  if ok && s.l2Waits (key / 16) then .wait
  else
    let s1 := if !ok then s else if l1 then s.l1Load key a else s.l2Access (key / 16) a false
    retireCore s1 key (s1.coreAt key)

/-- A cache maintenance instruction acts on one address of the issuing cluster's L2 and waits while the L2 is busy (R240, R241). -/
def maintBody (op : MaintOp) (f : FmtM) (s : State) (key : Nat) (x : Core) : CoreRes :=
  let a := x.effAddr f 128
  if s.l2Busy (key / 16) then .wait
  else
    let s1 := if s.cacheable a then s.l2MaintAddr (key / 16) op a else s
    retireCore s1 key (s1.coreAt key)

/-- PF.L1 (R239): fetch the line into L1 and L2. -/
def execPfL1 (w : CoreRef) (f : FmtM) (s : State) : Host.Outcome State Fault Refusal :=
  .next (runCore w { word := wordM 0x11 0 f, legal := f.rt == 0 } (hintBody true f) s)

/-- PF.L2 (R239): fetch the line into L2. -/
def execPfL2 (w : CoreRef) (f : FmtM) (s : State) : Host.Outcome State Fault Refusal :=
  .next (runCore w { word := wordM 0x11 1 f, legal := f.rt == 0 } (hintBody false f) s)

/-- CLEAN by address (R203, R240), firmware-only. -/
def execClean (w : CoreRef) (f : FmtM) (s : State) : Host.Outcome State Fault Refusal :=
  .next (runCore w { word := wordM 0x11 2 f, legal := f.rt == 0, priv := true } (maintBody .clean f) s)

/-- INVAL by address (R203, R240), firmware-only. -/
def execInval (w : CoreRef) (f : FmtM) (s : State) : Host.Outcome State Fault Refusal :=
  .next (runCore w { word := wordM 0x11 3 f, legal := f.rt == 0, priv := true } (maintBody .inval f) s)

/-- CLEAN_INVAL by address (R203, R240), firmware-only. -/
def execCleanInval (w : CoreRef) (f : FmtM) (s : State) : Host.Outcome State Fault Refusal :=
  .next (runCore w { word := wordM 0x11 4 f, legal := f.rt == 0, priv := true } (maintBody .cleanInval f) s)

/-! ## Branches and jumps -/

/-- A conditional branch: to PC + 4 × OFF when the comparison of ra and rb holds, else on (R203). -/
def branchBody (f : FmtB) (cond : Nat → Nat → Nat → Bool) (s : State) (key : Nat) (x : Core) : CoreRes :=
  if cond 64 (x.gn f.ra) (x.gn f.rb) then .retire (s.setCoreAt key { x with pc := x.branchTo f.off })
  else retireCore s key x

/-- BEQ (R203): branch if equal. -/
def execBeq (w : CoreRef) (f : FmtB) (s : State) : Host.Outcome State Fault Refusal :=
  .next (runCore w { word := wordB 0x18 f } (branchBody f cmpEq) s)

/-- BNE (R203): branch if not equal. -/
def execBne (w : CoreRef) (f : FmtB) (s : State) : Host.Outcome State Fault Refusal :=
  .next (runCore w { word := wordB 0x19 f } (branchBody f cmpNe) s)

/-- BLT (R203): branch if signed less than. -/
def execBlt (w : CoreRef) (f : FmtB) (s : State) : Host.Outcome State Fault Refusal :=
  .next (runCore w { word := wordB 0x1A f } (branchBody f cmpLt) s)

/-- BGE (R203): branch if signed at least. -/
def execBge (w : CoreRef) (f : FmtB) (s : State) : Host.Outcome State Fault Refusal :=
  .next (runCore w { word := wordB 0x1B f } (branchBody f cmpGe) s)

/-- BLTU (R203): branch if unsigned less than. -/
def execBltu (w : CoreRef) (f : FmtB) (s : State) : Host.Outcome State Fault Refusal :=
  .next (runCore w { word := wordB 0x1C f } (branchBody f cmpLtu) s)

/-- BGEU (R203): branch if unsigned at least. -/
def execBgeu (w : CoreRef) (f : FmtB) (s : State) : Host.Outcome State Fault Refusal :=
  .next (runCore w { word := wordB 0x1D f } (branchBody f cmpGeu) s)

/-- JAL (R203): the register the ra field names receives PC + 4; rb must be g0. -/
def execJal (w : CoreRef) (f : FmtB) (s : State) : Host.Outcome State Fault Refusal :=
  .next (runCore w { word := wordB 0x1E f, legal := f.rb == 0 }
    (fun s key x => .retire (s.setCoreAt key { x.putG f.ra (x.pc + 4).toNat with pc := x.branchTo f.off })) s)

/-- JALR (R203): rd ← PC + 4; PC ← ra; rb must be g0. A misaligned target raises ALIGN at its fetch (R205). -/
def execJalr (w : CoreRef) (f : FmtA) (s : State) : Host.Outcome State Fault Refusal :=
  .next (runCore w { word := wordA 0x03 0 f, legal := f.rb == 0 }
    (fun s key x => .retire (s.setCoreAt key { x.putG f.rd (x.pc + 4).toNat with pc := x.gr f.ra.toNat })) s)

/-! ## System registers -/

/-- The bits of a CORE page word that only the core's own MTS writes ("core only" in the CORE page table). -/
def coreOnlyMask (off : Nat) : Nat :=
  if off = 0x054 ∨ off = 0x064 ∨ off = 0x06C then 0xFFFFFFFF
  else if off = 0x058 ∨ off = 0x068 then 0xFFFF
  else if off = 0x05C then 0xFFF
  else if off = 0x060 then 0xFF
  else if off = 0x070 then 0x3
  else 0

/-- MTS to a word of the core's own CORE page: the core-only fields and the regions directly, without the expert lock or the
RUN test, and every other word as the page access (R198, R230, R504). -/
def State.corePageMts (s : State) (key off : Nat) (v : Word32) : State :=
  let pg := corePage key
  let m := coreOnlyMask off
  if m ≠ 0 then s.setReg pg off (v &&& BitVec.ofNat 32 m)
  else if 0x400 ≤ off then
    match rowAt .core off with
    | some r => s.setReg pg off (v &&& BitVec.ofNat 32 r.rw)
    | none => s
  else s.pageWrite (.core key) pg off v

/-- Whether a system register is closed to operator mode, or does not exist (R198). -/
inductive SysClass where
  | page | open_ | priv | absent
  deriving DecidableEq, Repr

/-- The class of a SYS number (R198). -/
def sysClass (n : Nat) : SysClass :=
  if n < 0x400 then .page
  else if n = 0x800 ∨ (0x801 ≤ n ∧ n ≤ 0x808) ∨ (0x810 ≤ n ∧ n ≤ 0x817) ∨ n = 0x818 then .open_
  else if n = 0x819 ∨ n = 0x81A ∨ n = 0x81C ∨ n = 0x81D then .priv
  else .absent

/-- MFS (R198): the system register, zero-extended. CYCLE counts time, so its value is free (Assumption 3). -/
def mfsBody (f : FmtS) (s : State) (key : Nat) (x : Core) : CoreRes :=
  let n := f.sys.toNat
  let done := fun (v : Nat) => retireCore s key (x.putG f.rd v)
  match sysClass n with
  | .absent => .raise { cause := .illegal }
  | .page =>
    if x.mode = .operator then .raise { cause := .priv }
    else
      let (v, s1) := s.pageRead (.core key) (corePage key) (4 * n)
      retireCore s1 key ((s1.coreAt key).putG f.rd v.toNat)
  | .priv =>
    if x.mode = .operator then .raise { cause := .priv }
    else if n = 0x819 then done key
    else if n = 0x81A then
      let (v, s1) := s.freeW
      retireCore s1 key ((s1.coreAt key).putG f.rd v.toNat)
    else done (x.fs (n - 0x81C)).toNat
  | .open_ =>
    if n = 0x800 then done x.vl
    else if n ≤ 0x808 then done (x.cnt (n - 0x801)).toNat
    else if n ≤ 0x817 then done (x.bud (n - 0x810)).toNat
    else done (key / 16)

/-- MTS (R198): ga written to the system register. A read-only register ignores the write; VL is stored as at most 256; one that resets its
own core leaves it as the reset does (R196). -/
def mtsBody (f : FmtS) (s : State) (key : Nat) (x : Core) : CoreRes :=
  let n := f.sys.toNat
  let v := x.gn f.ra
  match sysClass n with
  | .absent => .raise { cause := .illegal }
  | .page =>
    if x.mode = .operator then .raise { cause := .priv }
    else
      let s1 := s.corePageMts key (4 * n) (BitVec.ofNat 32 v)
      if (s1.coreAt key).undef != x.undef then .retire s1 else retireCore s1 key (s1.coreAt key)
  | .priv =>
    if x.mode = .operator then .raise { cause := .priv }
    else if n = 0x81C ∨ n = 0x81D then retireCore s key (x.setFs (n - 0x81C) (x.gr f.ra.toNat))
    else retireCore s key x
  | .open_ =>
    if n = 0x800 then retireCore s key { x with vl := min (v % 2 ^ 32) 256 }
    else if x.mode = .operator then retireCore s key x
    else if n ≤ 0x808 then retireCore s key (x.setCnt (n - 0x801) (BitVec.ofNat 32 v))
    else if n ≤ 0x817 then retireCore s key (x.setBud (n - 0x810) (BitVec.ofNat 32 v))
    else retireCore s key x

/-- MFS (R198). -/
def execMfs (w : CoreRef) (f : FmtS) (s : State) : Host.Outcome State Fault Refusal :=
  .next (runCore w { word := wordS 0 f, legal := f.ra == 0 } (mfsBody f) s)

/-- MTS (R198). -/
def execMts (w : CoreRef) (f : FmtS) (s : State) : Host.Outcome State Fault Refusal :=
  .next (runCore w { word := wordS 1 f, legal := f.rd == 0 } (mtsBody f) s)

/-! ## TAKE, barriers, RET and TRAP -/

/-- TAKE waits for the older stores and then for the dispatcher, which delivers; with an item held it raises ITEM_STATE (R212,
R226). The pc stays at TAKE until a delivery retires it. -/
def takeBody (f : FmtS) (s : State) (key : Nat) (x : Core) : CoreRes :=
  if x.held.isSome then .raise { cause := .itemState }
  else if !x.quiet then .wait
  else .retire (s.setCoreAt key { x with take := some (s.stamp, f.rd.toNat), resv := none }).tick

/-- BAR.S retires at once and orders the stores on either side of it (R225). -/
def barSBody (s : State) (key : Nat) (x : Core) : CoreRes := retireCore s key { x with sb := sbBar x.sb }

/-- BAR.A retires once every older store has been accepted (R225). -/
def barABody (s : State) (key : Nat) (x : Core) : CoreRes := if x.quiet then retireCore s key x else .wait

/-- BAR.IO behaves as BAR.A and satisfies the bracketing of register accesses (R221, R225). -/
def barIoBody (s : State) (key : Nat) (x : Core) : CoreRes :=
  if x.quiet then retireCore s key { x with ioReady := true, ioOpen := false } else .wait

/-- Whether a system instruction's register and SYS fields are all 0. -/
def blankS (f : FmtS) : Bool := f.rd == 0 && f.ra == 0 && f.sys == 0

/-- TAKE (R212), firmware-only; not counted in OPS (R213). -/
def execTake (w : CoreRef) (f : FmtS) (s : State) : Host.Outcome State Fault Refusal :=
  .next (runCore w { word := wordS 2 f, legal := f.ra == 0 && f.sys == 0, priv := true, counted := false } (takeBody f) s)

/-- BAR.S (R225). -/
def execBarS (w : CoreRef) (f : FmtS) (s : State) : Host.Outcome State Fault Refusal :=
  .next (runCore w { word := wordS 4 f, legal := blankS f } barSBody s)

/-- BAR.A (R225). -/
def execBarA (w : CoreRef) (f : FmtS) (s : State) : Host.Outcome State Fault Refusal :=
  .next (runCore w { word := wordS 5 f, legal := blankS f } barABody s)

/-- BAR.IO (R221, R225). -/
def execBarIo (w : CoreRef) (f : FmtS) (s : State) : Host.Outcome State Fault Refusal :=
  .next (runCore w { word := wordS 6 f, legal := blankS f } barIoBody s)

/-- RET (R196), firmware-only. -/
def execRet (w : CoreRef) (f : FmtS) (s : State) : Host.Outcome State Fault Refusal :=
  .next (runCore w { word := wordS 7 f, legal := blankS f, priv := true }
    (fun s key _ => .retire (s.returnFrom key)) s)

/-- TRAP (R203, R215): raises TRAP; the code is in EINST. -/
def execTrap (w : CoreRef) (f : FmtS) (s : State) : Host.Outcome State Fault Refusal :=
  .next (runCore w { word := wordS 8 f, legal := f.rd == 0 && f.ra == 0 } (fun _ _ _ => .raise { cause := .trap }) s)

end Sys2Proof.Machine
end

