-- ==== Sys2Proof/Machine/PageRows.lean ====
section
/-!
DEFINITION. The commands that are register writes and submissions, those of the dispatchers, the interrupt controllers and the store
buffers, and the state requests of the management path.
-/
namespace Sys2Proof.Machine
open Sys2Proof

/-- The agent that a command's writer is. -/
def Writer.agent : Writer → PageAgent
  | .driver => .driver
  | .manager => .manager
  | .core w => .core (coreKey w)

/-- An 8-byte store of a value to a register of a page. A core that holds an item is charged for a submission, or takes BUDGET without any
effect of the store (R214); no instruction word is given, and EINST then receives a free value (Assumption 3). -/
def State.storePair (s : State) (wr : Writer) (page off v : Nat) : State :=
  let put := fun (t : State) => t.pageWrite8 (Writer.agent wr) page off (BitVec.ofNat 64 v)
  match wr with
  | .core w =>
    let key := coreKey w
    match s.charged key (s.coreAt key) [(0xF00000000000 + page * 4096 + off, 8, v)] with
    | .error id =>
      let (u, s1) := s.freeW
      s1.takeException key { word := u.truncate 32 } { cause := .budget, counter := id }
    | .ok x => put (s.setCoreAt key x)
  | _ => put s

/-! ## Store buffers (R220, R223, R252) -/

/-- The oldest entry of a core's store buffer leaves it. -/
def State.sbPop (s : State) (key : Nat) : State :=
  let x := s.coreAt key
  s.setCoreAt key { x with sb := x.sb.drop 1 }

/-- The fabric accepts a core's oldest store buffer entry (R220, R223, R252): a memory entry becomes visible, a host entry is posted, and a
wing entry goes to the partner, whose answer takes it out of the buffer. One whose window is lost is dropped at once. -/
def State.storeAccepted (s : State) (key : Nat) : State :=
  let x := s.coreAt key
  match x.sb with
  | [] => s
  | e :: r =>
    match s.region (e.block * 256) with
    | .wing p =>
      if e.sent then s
      else if s.wingReachable p then
        (s.setCoreAt key { x with sb := { e with sent := true } :: r }).wingWrite p e.block e.bytes (.store key e.block)
      else (s.sbPop key).storeLost key e false
    | .host => if s.hostReachable then (s.sbApply key e).sbPop key else (s.sbPop key).storeLost key e true
    | _ => if s.l2Waits (key / 16) then s else (s.sbApply key e).sbPop key

/-- The oldest store of a core is answered with an error, as its window is lost (R223). -/
def State.remoteLost (s : State) (key : Nat) : State :=
  match (s.coreAt key).sb with
  | [] => s
  | e :: _ =>
    match s.region (e.block * 256) with
    | .wing p => if s.wingReachable p then s else (s.sbPop key).storeLost key e false
    | .host => if s.hostReachable then s else (s.sbPop key).storeLost key e true
    | _ => s

/-- STORE_ACCEPTED (R220). -/
def execStoreAccepted (w : CoreRef) (s : State) : Host.Outcome State Fault Refusal := .next (s.storeAccepted (coreKey w))

/-- REMOTE_STORE_LOST (R223). -/
def execRemoteStoreLost (w : CoreRef) (s : State) : Host.Outcome State Fault Refusal := .next (s.remoteLost (coreKey w))

/-! ## Clusters and cores (R196, R201, R232) -/

/-- CLU_SOFT_RESET (R232). -/
def execCluSoftReset (c : Fin 12) (s : State) : Host.Outcome State Fault Refusal := .next (s.cluReset c.val 0x008 0xFFFF)

/-- CLU_CORE_RESET (R232), an expert write (R504). -/
def execCluCoreReset (c : Fin 12) (cores : BitVec 16) (s : State) : Host.Outcome State Fault Refusal :=
  .next (s.expertDo (pageOf .clu c.val) 0x410 (s.cluWrite c.val 0x410 (BitVec.ofNat 32 cores.toNat)))

/-- CORE_SOFT_RESET (R234). -/
def execCoreSoftReset (w : CoreRef) (s : State) : Host.Outcome State Fault Refusal := .next (s.coreSoftReset (coreKey w))

/-- CLU_ENABLE (R196, R232). -/
def execCluEnable (c : Fin 12) (en : Bool) (s : State) : Host.Outcome State Fault Refusal := .next (s.cluEnWrite c.val en)

/-- CLU_MODE_WRITE (R232, R248). -/
def execCluModeWrite (c : Fin 12) (mode : BitVec 4) (s : State) : Host.Outcome State Fault Refusal :=
  .next (s.cluModeWrite c.val mode.toNat)

/-! ## Dispatchers (R276, R277, R280, R281, R283) -/

/-- DISP_POST (R276). -/
def execDispPost (c : Fin 12) (addr : BitVec 64) (s : State) : Host.Outcome State Fault Refusal := .next (s.post c.val addr.toNat)

/-- DISP_SIGNAL (R277). -/
def execDispSignal (c : Fin 12) (bits : BitVec 32) (task : BitVec 32) (s : State) : Host.Outcome State Fault Refusal :=
  .next (s.signal c.val (Word.bits 5 0 task.toNat) bits)

/-- DISP_DELAY (R281). -/
def execDispDelay (c : Fin 12) (bits : BitVec 32) (hi : BitVec 32) (s : State) : Host.Outcome State Fault Refusal :=
  .next (s.delay c.val bits hi)

/-- DELAY_EXPIRY (R281). -/
def execDelayExpiry (c : Fin 12) (cueList : Bool) (s : State) : Host.Outcome State Fault Refusal := .next (s.delayExpire c.val cueList)

/-- TASK_ENABLE (R280), an expert write (R504). -/
def execTaskEnable (c : Fin 12) (t : Fin 64) (ctl : BitVec 32) (s : State) : Host.Outcome State Fault Refusal :=
  .next (s.expertDo (dispPage c.val) (taskOff t.val) (s.taskCtl c.val t.val ctl))

/-- TASK_MASK_WRITE (R280), an expert write (R504). -/
def execTaskMaskWrite (c : Fin 12) (t : Fin 64) (bits : BitVec 32) (s : State) : Host.Outcome State Fault Refusal :=
  .next (s.expertDo (dispPage c.val) (taskOff t.val + 4) (s.taskMask c.val t.val bits))

/-- TASK_FLAGS_CLEAR (R280), an expert write (R504). -/
def execTaskFlagsClear (c : Fin 12) (t : Fin 64) (bits : BitVec 32) (s : State) : Host.Outcome State Fault Refusal :=
  .next (s.expertDo (dispPage c.val) (taskOff t.val + 8) (s.taskFlagsClear c.val t.val bits))

/-- DISPATCH_DELIVER (R212, R283). -/
def execDispatchDeliver (c : Fin 12) (s : State) : Host.Outcome State Fault Refusal := .next (s.deliver c.val)

/-- DISP_SOFT_RESET (the DISP page). -/
def execDispSoftReset (c : Fin 12) (s : State) : Host.Outcome State Fault Refusal := .next (s.dispSoftReset c.val)

/-! ## Interrupts (R288–R294) -/

/-- CIC_SOURCE_EVENT (R288): an edge source becomes pending; a level source is pending while its line is, and 10–15 never are. -/
def execCicSourceEvent (c : Fin 12) (source : Fin 63) (s : State) : Host.Outcome State Fault Refusal :=
  .next (if cicLevel source.val || (decide (10 ≤ source.val) && decide (source.val < 16)) then s else s.cicEdge c.val source.val)

/-- INTERRUPT_ACCEPT (R196, R290). -/
def execInterruptAccept (c : Fin 12) (source : Fin 63) (cores : List (Fin 16)) (s : State) : Host.Outcome State Fault Refusal :=
  .next (s.acceptIrq c.val source.val (cores.map Fin.val))

/-- SWI_RAISE (R288). -/
def execSwiRaise (c : Fin 12) (bits : BitVec 32) (s : State) : Host.Outcome State Fault Refusal := .next (s.swiRaise c.val bits)

/-- MODERATION_EXPIRY (R291). -/
def execModerationExpiry (c : Fin 12) (source : Fin 63) (s : State) : Host.Outcome State Fault Refusal :=
  .next (s.moderationEnd c.val source.val)

/-- CIC_SOFT_RESET (the CIC page). -/
def execCicSoftReset (c : Fin 12) (s : State) : Host.Outcome State Fault Refusal := .next (s.cicSoftReset c.val)

/-- IRTR_SOFT_RESET (the IRTR page). -/
def execIrtrSoftReset (s : State) : Host.Outcome State Fault Refusal := .next { s with irtr := { s.irtr with latched := [] } }

/-! ## Submissions (R134, R143, R300, R322, R328, R380, R391) -/

/-- SCAN_SUBMIT (R134). -/
def execScanSubmit (m : Fin 22) (wr : Writer) (addr : BitVec 64) (s : State) : Host.Outcome State Fault Refusal :=
  .next (s.storePair wr (scanPage m.val) 0x040 addr.toNat)

/-- PROBE_SUBMIT_FG (R134, R143). -/
def execProbeSubmitFg (l : Fin 6) (wr : Writer) (addr : BitVec 64) (s : State) : Host.Outcome State Fault Refusal :=
  .next (s.storePair wr (probePage l.val) 0x040 addr.toNat)

/-- PROBE_SUBMIT_BG (R134, R143). -/
def execProbeSubmitBg (l : Fin 6) (wr : Writer) (addr : BitVec 64) (s : State) : Host.Outcome State Fault Refusal :=
  .next (s.storePair wr (probePage l.val) 0x048 addr.toNat)

/-- FCODEC_SUBMIT (R134). -/
def execFcodecSubmit (c : Fin 12) (wr : Writer) (addr : BitVec 64) (s : State) : Host.Outcome State Fault Refusal :=
  .next (s.storePair wr (fcodecPage c.val) 0x040 addr.toNat)

/-- CAM_SUBMIT (R134, R300). -/
def execCamSubmit (a : Fin 2) (wr : Writer) (addr : BitVec 64) (s : State) : Host.Outcome State Fault Refusal :=
  .next (s.storePair wr (camPage a.val) 0x040 addr.toNat)

/-- CAM_DIAG_SEARCH (R316), an expert write (R504). -/
def execCamDiagSearch (a : Fin 2) (window : BitVec 17) (s : State) : Host.Outcome State Fault Refusal :=
  .next (s.expertDo (camPage a.val) 0x428 (s.camDiag a.val (BitVec.ofNat 32 (2 ^ 31 + window.toNat))))

/-- DIG_SUBMIT (R134, R322). -/
def execDigSubmit (u : Fin 24) (wr : Writer) (addr : BitVec 64) (s : State) : Host.Outcome State Fault Refusal :=
  .next (s.storePair wr (digPage u.val) 0x040 addr.toNat)

/-- LSU_SUBMIT (R134, R328). -/
def execLsuSubmit (u : Fin 8) (wr : Writer) (addr : BitVec 64) (s : State) : Host.Outcome State Fault Refusal :=
  .next (s.storePair wr (lsuPage u.val) 0x040 addr.toNat)

/-- CMP_SUBMIT (R134, R380). -/
def execCmpSubmit (k : Fin 4) (wr : Writer) (addr : BitVec 64) (s : State) : Host.Outcome State Fault Refusal :=
  .next (s.storePair wr (cmpPage k.val) 0x040 addr.toNat)

/-- CMP_SUBMIT_SM (R380, R391): SM_ONLY for any agent but the stage manager. -/
def execCmpSubmitSm (k : Fin 4) (wr : Writer) (addr : BitVec 64) (s : State) : Host.Outcome State Fault Refusal :=
  .next (s.storePair wr (cmpPage k.val) 0x048 addr.toNat)

/-! ## Register writes -/

/-- CUE_SOFT_RESET (R72). -/
def execCueSoftReset (s : State) : Host.Outcome State Fault Refusal := .next s.cueSoftReset
/-- COMMIT_SOFT_RESET (the COMMIT page). -/
def execCommitSoftReset (s : State) : Host.Outcome State Fault Refusal := .next s.commitSoftReset
/-- KEYS_SOFT_RESET (the KEYS page). -/
def execKeysSoftReset (s : State) : Host.Outcome State Fault Refusal := .next s.keysSoftReset
/-- PBOOK_SOFT_RESET (the PBOOK page). -/
def execPbookSoftReset (s : State) : Host.Outcome State Fault Refusal := .next s.pbookSoftReset
/-- QENG_SOFT_RESET (the QENG page). -/
def execQengSoftReset (s : State) : Host.Outcome State Fault Refusal := .next s.qengSoftReset

/-- EXPERT_KEY_WRITE (R504). -/
def execExpertKeyWrite (wr : Writer) (page : Fin 8192) (val : BitVec 32) (s : State) : Host.Outcome State Fault Refusal :=
  .next (s.pageWrite (Writer.agent wr) page.val 0x030 val)

/-- ERR_CLEAR (R503). -/
def execErrClear (wr : Writer) (page : Fin 8192) (s : State) : Host.Outcome State Fault Refusal :=
  .next (s.pageWrite (Writer.agent wr) page.val 0x038 1)

/-- EVT_FORCE_WRITE (R502). -/
def execEvtForceWrite (wr : Writer) (page : Fin 8192) (val : BitVec 32) (s : State) : Host.Outcome State Fault Refusal :=
  .next (s.pageWrite (Writer.agent wr) page.val 0x01C val)

/-- EVT_RAW_CLEAR (R500, R502). -/
def execEvtRawClear (wr : Writer) (page : Fin 8192) (val : BitVec 32) (s : State) : Host.Outcome State Fault Refusal :=
  .next (s.pageWrite (Writer.agent wr) page.val 0x010 val)

/-- REGISTER_WRITE (R500, R501, and the rules of each page): a 4-byte store to word `word` of a page. -/
def execRegisterWrite (wr : Writer) (page : Fin 8192) (word : Fin 1024) (val : BitVec 32) (s : State) : Host.Outcome State Fault Refusal :=
  .next (s.pageWrite (Writer.agent wr) page.val (4 * word.val) val)

/-! ## State requests of the management path (R495, R496) -/

/-- CTL.EN of a page, as a read shows it. -/
def State.enShown (s : State) (page : Nat) : Bool := Word.bit 0 (s.readWord page 0x008).1.toNat

/-- LAST_REQ (the MGMT page): the page, the result and the requested state. -/
def State.mgmtLast (s : State) (r : MgmtReq) (result : Nat) : State :=
  s.setReg mgmtPage 0x048 (BitVec.ofNat 32 (r.page * 65536 + result * 16 + r.state))

/-- A state request is applied: CTL.EN of its page is written, and meets the page's own tests. A request that they refuse is answered with
ERROR (0x01) and counted (R495, R499). -/
def State.mgmtApply (s : State) (r : MgmtReq) : State :=
  let run := r.state != 0
  let ctl := (s.readWord r.page 0x008).1.toNat
  let s1 := s.pageWrite .manager r.page 0x008 (BitVec.ofNat 32 (ctl / 2 * 2 + (if run then 1 else 0)))
  if s1.enShown r.page == run then (s1.mgmtLast r 0).evt mgmtPage 0
  else (((s1.mgmtLast r 1).addReg mgmtPage 0x054 1).mgmtReply [0x01]).evt mgmtPage 1

/-- Every queued state request is applied, in order. -/
def State.mgmtDue (s : State) : State := s.mgmt.reqs.foldl (fun t r => t.mgmtApply r) (s.setMgmt { s.mgmt with reqs := [] })

/-- Whether a request waits for a start instant: cues run; in standby it waits for the exit (R482, R495). -/
def State.mgmtWaits (s : State) : Bool := s.cue.unit == 2 || s.mdl.st == .standby || s.mdl.standbyOp.isSome

/-- SET_STATE_EFFECTER (R495): the request is answered with success and queued, and applied at once while no cue runs; a 65th is answered
with ERROR_NOT_READY. -/
def execSetStateEffecter (page : Fin 8192) (run : Bool) (s : State) : Host.Outcome State Fault Refusal :=
  .next (s.mgmtGuard (fun t =>
    let r : MgmtReq := { page := page.val, state := if run then 2 else 0 }
    if 64 ≤ t.mgmt.reqs.length then (t.mgmtReply [0x04]).mgmtLast r 2
    else
      let t1 := (t.mgmtReply [0x00]).setMgmt { (t.mgmtReply [0x00]).mgmt with reqs := t.mgmt.reqs ++ [r] }
      if t.mgmtWaits then t1 else t1.mgmtDue))

/-- STATE_SKEW (R496): a sensor's state has differed from UNIT_STATE, or a request for the page has waited. -/
def execStateSkew (page : Fin 8192) (reported : BitVec 4) (s : State) : Host.Outcome State Fault Refusal :=
  let data := s.unitState page.val
  .next (if (blkAt page.val).isNone || (data == reported.toNat && !s.mgmt.reqs.any (fun r => r.page == page.val)) then s
    else ((s.setReg modctlPage 0x05C (BitVec.ofNat 32 (page.val * 65536 + reported.toNat * 16 + data))).addReg modctlPage 0x060 1).evt
      modctlPage 4)

/-- STANDBY_EXIT_DONE (R482, R484): the cores are reset, STANDBY reads 0, MSTATE is restored, and waiting state requests are applied. -/
def execStandbyExitDone (s : State) : Host.Outcome State Fault Refusal :=
  .next (if s.mdl.standbyOp == some .exiting then s.standbyOut.mgmtDue else s)

end Sys2Proof.Machine
end

