-- ==== Sys2Proof/Machine/Instants.lean ====
section
/-!
DEFINITION. The cue timeline (R27, R57–R64, R72–R75): start and held instants, commit point, sweep and stretch bound, on a lead, a follower and
a module that promotes (R449–R467); the doorbells and the arrival of entries (R30, R396, R406, R488); and DONE (R213).
-/
namespace Sys2Proof.Machine
open Sys2Proof

/-! ## Beat 0: releases and queued changes (R57) -/

/-- The completions of the committed cue join their queues' held lists; an FLR has discarded them, and an orphan releases nothing (R68, R431,
R468). -/
def State.releaseCue (s : State) : State :=
  let s1 := if s.cue.mute || s.role == 5 then s else s.cue.release.foldl (fun t p => t.holdCqe p.1 p.2) s
  { s1 with cue := { s1.cue with release := [], mute := false } }

/-- The completions of ended jobs; a follower's jobs end without any (R64, R187, R450, R468). -/
def State.releaseJobs (s : State) : State :=
  if s.role = 5 then s
  else if s.isFollower then { s with jobs := s.jobs.filter (fun j => decide (j.state ≠ .ended)) }
  else s.jobsRelease

/-- An evicted SNAPSHOT_EXPORT completes (R108). -/
def State.releaseExport (s : State) : State :=
  match s.evictedExport with
  | some sqe => ({ s with evictedExport := none } : State).adminCqe sqe 0x0201 s.plainCue []
  | none => s

/-- What a start or held instant releases, in its order, and what the queues then write and fetch (R57, R63, R406, R419, R420). -/
def State.releaseAll (s : State) : State := (s.releaseCue.releaseJobs.releaseExport).queueInstant

/-- The beat clock at an instant: period and stretch after the last one while cues run or are held (R27, R59, R63). -/
def State.instantBeat (s : State) (stretch : Nat) : State :=
  let b := if s.cue.unit = 1 then s.beat else max s.beat (s.cue.base + s.cue.par.period + (if s.cue.unit = 2 then stretch else 0))
  { s with beat := b, cue := { s.cue with base := b } }

/-- The stretch of the cue that has ended (R59, R74, the CUE page). -/
def State.noteStretch (s : State) (stretch : Nat) : State :=
  if s.cue.unit ≠ 2 then s
  else
    let seen := s.fld cuePage 0x068 31 16
    let s1 := s.setReg cuePage 0x068 (BitVec.ofNat 32 (max seen stretch * 65536 + stretch))
    if stretch = 0 then s1 else (s1.addReg cuePage 0x06C 1).evt cuePage 0

/-- The most a cue may stretch, in beats (R60). -/
def State.stretchMax (s : State) : Nat := s.cue.par.period * s.cue.par.stretch / 100

/-! ## Journal lag and holds (R63, R356) -/

/-- The ADMIN records due at an instant: those that wait, and those of the changes that would take effect (R356). -/
def State.recordsDue (s : State) : Nat :=
  let waits := match s.adminWait with
    | some w => match w.change with
      | .snapshot _ _ _ => 0
      | .deleteSq _ => 0
      | .hold => 0
      | _ => if w.ripe then 1 else 0
    | none => 0
  s.pbook.due.length + waits + (s.camDeltas.filter CamPending.ok).length

/-- The lag test: where lag begins the hold does, with its events; where it ends, HOLD_LAG does (R63, R356). -/
def State.lagTest (s : State) : State :=
  let lag := s.lagNow s.recordsDue
  if lag && !s.cue.holdLag then
    (((s.evt pbPage 1).addReg pbPage 0x070 1).evt modctlPage 5).enterHold false
  else if !lag && s.cue.holdLag then
    ({ s with cue := { s.cue with holdLag := false } } : State).evt pbPage 2
  else s

/-- A commanded hold that was asked for takes effect, and the changes that waited with it (R63, R64). -/
def State.holdDue (s : State) : State :=
  if !s.cue.holdReq then s
  else
    let s1 := s.enterHold true
    let s2 := match s1.adminWait with
      | some w => (match w.change with
        | .hold => s1.changeDue w s1.soonCue s1.cueNow
        | _ => s1)
      | none => s1
    s2.changesNow

/-- Whether the instant seals a cue: the cues of a START_CUES begin, a cue follows the one that ended, or a hold that was not commanded is
over (R57, R63, R64). An orphan seals none (R468). -/
def State.goes (s : State) : Bool :=
  s.role != 5 && !s.cue.holdLag &&
    (if s.cue.unit = 2 then true else if s.cue.unit = 3 then s.cue.starting || !s.cue.holdCmd else s.cue.starting)

/-! ## The cue that begins -/

/-- Departed ranks leave the cascade: they are recorded, and the lowest rank left becomes master (R467). -/
def State.dropRanks (s : State) (dead : List Nat) : State :=
  let gone := (dead.filter (fun r => s.company.lost.contains r && !s.company.dropped.contains r)).eraseDups
  let s1 := gone.foldl (fun t r => t.recordAdmin (adminRec 0xFFFF r 0 [] [])) s
  if gone.isEmpty then s else (s1.setCo { s1.company with dropped := s1.company.dropped ++ gone }).setMasters

/-- Changes that wait take effect with cue `n` (R36, R172, R313). -/
def State.changesDue (s : State) (n : Nat) : State :=
  let s1 := match s.adminWait with
    | some w => if w.ripe then s.changeDue w n n else s
    | none => s
  s1.deltasDue n n false [] s1.camDeltas

/-- Whether the sealed set of the current cue is forwarded: in lockstep, or from the cue at which it begins (R451, R462). -/
def State.sendsSeal (s : State) : Bool := s.role == 1 && s.compares

/-- Whether arrivals are forwarded: in lockstep, or from the cue before it begins (R451, R462). -/
def State.sendsArrivals (s : State) : Bool :=
  s.role == 1 && (s.redundant || (match s.company.lockAt with
    | some m => decide (m ≤ s.cue.number + 1)
    | none => false))

/-- An entry forwarded to the understudy (R451). -/
def State.sendArrival (s : State) (e : Entry) : State := s.wingSendAll s.pairLinks 0x10 1 (arrivalBytes e)

/-- What a lead sends when a cue has begun: its SEAL, and in the cue before lockstep begins the entries that it carries (R451, R462). -/
def State.forwardSeal (s : State) : State :=
  let s1 := if s.sendsSeal then
      s.wingSendAll s.pairLinks 0x11 1 (sealBytes s.cue.number s.cue.sealedSet s.cue.changeIds) else s
  if s1.role = 1 ∧ s1.company.lockAt = some (s1.cue.number + 1) then s1.cue.buffer.foldl (fun t e => t.sendArrival e) s1 else s1

/-- Cue `n` begins at a start instant of a module that seals: changes, catch-up, records, the seal and what is forwarded, in their order
(R36, R57, R74, R106, R352, R451, R462). The stage is set after the changes, so that the reserve limit is that of the set and tables the cue
is sealed with (R107, Assumption 140). -/
def State.startCue (s : State) (n : Nat) (reads : List (Nat × List Nat)) : State :=
  let held := decide (s.cue.unit = 3)
  let s1 := ((((s.changesDue n).setStage false).evict n).catchupBegins).sendStart
  let s2 := s1.recordInstant n s1.cue.starting
  let s3 := if held then s2.evt cuePage 3 else s2
  let s4 := s3.seal n reads
  let s5 := ({ s4 with cue := { s4.cue with starting := false } } : State).setCo { s4.company with faultSeen := false, cueSynced := false }
  s5.forwardSeal

/-- The cue master's parameters on a member that follows it, where a START_CUES takes effect (R73). -/
def State.masterParams (s : State) (m : Option MasterPar) : State :=
  match m with
  | some p => if s.cue.starting && s.mustFollow then
      { s with cue := { s.cue with par := { s.cue.par with
          period := p.period.toNat, stretch := p.stretch.toNat, act := p.act.toNat, reserve := p.reserve.toNat } } } else s
  | none => s

/-- A start or held instant of a module that seals its own set: the steps of beat 0 in their order (R57, R63). A halt on the way ends it. -/
def State.leadInstant (s : State) (i : Instant) : State :=
  let s1 := (s.cicEdgeAll 6).instantBeat i.stretch |>.releaseAll
  if !s1.dispatching then s1
  else
    let s2 := (s1.dropRanks (i.dead.map Fin.val)).setTimebase.mgmtDue
    if !s2.dispatching then s2
    else
      let s3 := (if s2.cue.starting && s2.cue.unit == 2 then s2.takeParams else s2).masterParams i.master
      let s4 := (s3.noteStretch i.stretch).lagTest.holdDue
      let s5 := if s4.goes then s4.startCue s4.nextCue (i.reads.map (fun r => (r.1, r.2.map Fin.val)))
        else ((s4.setStage true).evict s4.cue.committed).setCo { s4.company with cueSynced := false }
      s5.adminGo

/-! ## Followers and promotion (R450, R451, R457, R462) -/

/-- Whether a follower holds everything that a SEAL names: its entries and its changes (R451). -/
def Company.complete (c : Company) (m : SealMsg) : Bool :=
  m.ents.all (fun x => c.arrivals.any (fun e => e.sq == x.1 && e.idx == x.2.2)) &&
    m.changes.all (fun id => c.changes.any (fun x => x.1 == id))

/-- The complete SEAL of the next cue, if this module holds it and may execute it (R451, R457, R462). -/
def State.nextSeal (s : State) : Option SealMsg :=
  let n := s.cue.number + 1
  let mine := s.role = 2 ∨ (s.role = 3 ∧ (match s.company.lockAt with
    | some m => decide (m ≤ n)
    | none => false) = true)
  if mine then s.company.seals.find? (fun m => m.cue == n && s.company.complete m) else none

/-- The entries of a SEAL in its order, with their dispositions (R37, R451). -/
def State.followedSet (s : State) (m : SealMsg) : List Sealed :=
  m.ents.filterMap (fun x => (s.company.arrivals.find? (fun e => e.sq == x.1 && e.idx == x.2.2)).map (fun e =>
    sealedAs e x.2.1 (if x.2.1 = 0x0003 then s.dupFind e.sq e.seq else none)))

/-- A follower executes the cue of a SEAL: exactly its list, with the changes it names, and a START record for a START_CUES among them (R352,
R451). -/
def State.followCue (s : State) (m : SealMsg) (stretch : Nat) : State :=
  let n := m.cue
  let s1 := (s.cicEdgeAll 6).instantBeat stretch |>.releaseCue.releaseJobs.mgmtDue
  let s2 := s1.noteStretch stretch
  let s3 := (((m.changes.foldl (fun t id => t.changeFollows n id) s2).setStage false).evict n).recordInstant n (s2.startNamed m.changes)
  let set := s3.followedSet m
  let s4 := s3.beginCue n set []
  let used := fun (e : Entry) => m.ents.any (fun x => e.sq == x.1 && e.idx == x.2.2)
  let s5 := s4.setCo { s4.company with
    arrivals := s4.company.arrivals.filter (fun e => !used e), seals := s4.company.seals.filter (fun x => decide (n < x.cue)),
    faultSeen := false, cueSynced := false }
  { s5 with cue := { s5.cue with starting := false }, mdl := { s5.mdl with st := if s5.mdl.st = .ready then .service else s5.mdl.st } }

/-- The forwarded QUERY entries that the lost lead had not completed end with PROMOTED_RETRY; no job goes on (R187, R457 step 5). -/
def State.retryJobs (s : State) (completed : List (Nat × Nat)) : State :=
  let open_ := s.jobs.filter (fun j => !completed.contains (j.sq, j.seq))
  let s1 := open_.foldl (fun (t : State) j => t.holdCqe j.sq (plainCqe j.seq j.sq 0x0302 t.cueNow (queryRes 0 0xFFFFFFFF 0))) s
  { s1 with jobs := [] }

/-- An understudy becomes lead (R457): what it held of the old lead is gone, PROMOTED is raised, and every doorbell counts as rung. A mirror
tells its lead member (R468). -/
def State.promote (s : State) (completed : List (Nat × Nat)) : State :=
  let s1 := ((s.setRole 1).setRedundant false).setCo { s.company with
    arrivals := [], seals := [], changes := [], changeParts := [], peerDigest := none, promoting := false, lockAt := none, peerBehind := false }
  let s2 := (s1.setMasters).setTimebase
  let s3 := ((s2.evt modctlPage 0).evt companyPage 2).addReg companyPage 0x058 1
  let s4 := (s3.retryJobs completed).ringAll
  if s4.companyMode = 3 then s4.wingSendAll (s4.portsIn [3] 5) 0x08 0 (s4.roleMsg 1 s4.cue.number) else s4

/-- A start instant of a follower: it executes the next complete SEAL; a module that promotes does so once it holds none (R443, R451, R457). -/
def State.followInstant (s : State) (i : Instant) : State :=
  let promoting := s.company.promoting
  if (s.cue.unit = 2 ∧ s.cue.phase ≠ .swept) ∨ (!promoting && !s.company.cueSynced) = true then s
  else match s.nextSeal with
    | some m => s.followCue m i.stretch
    | none => if promoting then (s.promote i.completed).leadInstant i else s

/-! ## Instants -/

/-- Whether a start instant (or, `held`, a held instant) is reached: a START_CUES waits, the running cue is committed and may be released
within its bound, or a hold is in force; a follower needs its edge of CUE_SYNC, unless the cue master departed (R57, R60, R63, R443, R467). -/
def State.instantReady (s : State) (held : Bool) (i : Instant) : Bool :=
  let sync := !(s.follows || s.mustFollow) || s.company.cueSynced || i.dead.any (fun r => s.company.lost.contains r.val)
  sync && (match s.cue.unit with
    | 1 => !held && s.cue.starting
    | 2 => !held && s.cue.phase == .swept && !(s.role == 1 && s.compares && !s.cue.peerOk) && decide (i.stretch ≤ s.stretchMax)
    | 3 => true
    | _ => false)

/-- A start or held instant; before its time it changes nothing. -/
def State.instant (s : State) (held : Bool) (i : Instant) : State :=
  if !s.dispatching then s
  else if s.isFollower then (if held then s else s.setTimebase.followInstant i)
  else if s.instantReady held i then s.leadInstant i else s

/-- START_INSTANT. -/
def execStartInstant (x : Instant) (s : State) : Host.Outcome State Fault Refusal := .next (s.instant false x)

/-- HELD_INSTANT: one at which the hold may end is the start instant that ends it (R63, R64). -/
def execHeldInstant (x : Instant) (s : State) : Host.Outcome State Fault Refusal := .next (s.instant true x)

/-! ## Commit point, sweep, bound (R57, R59–R61, R453) -/

/-- COMMIT_POINT: the interrupt line of every cluster, and the sweep may begin (R57, R288). -/
def execCommitPoint (s : State) : Host.Outcome State Fault Refusal :=
  .next (if s.cue.unit = 2 ∧ s.cue.phase = .run then { s.cicEdgeAll 7 with cue := { (s.cicEdgeAll 7).cue with phase := .due } } else s)

/-- What the commit of a cue sends: its digests to the other side of a pair, and to an understudy that catches up its delta, with a section
of the duplicate window when the cue added to it (R453, R459, R462, Assumption 134). -/
def State.forwardCommit (s : State) : State :=
  let n := s.cue.number
  let s1 := if s.compares || s.role == 2 then (s.wingSendAll s.pairLinks 0x12 1 s.digestMsg).digestCheck else s
  let catching := s.company.catchS.isSome && (match s.company.lockAt with
    | some m => decide (n < m)
    | none => true)
  if catching then
    let s2 := s1.wingSendAll s.pairLinks 0x32 4
      (Word.leBytes 8 n ++ deltaBytes n s.cue.flags s.cue.delta ++ s.cue.changeIds.flatMap (Word.leBytes 8))
    if s.cue.sealedSet.any (fun x => x.disp == 0 && x.entry.fg) then s2.sendSection n 6 0 else s2
  else s1

/-- The commit sweep, at the later of the commit point and the end of foreground, and what follows it at once (R59, R65, R453). -/
def State.commitSweep (s : State) (beats : Nat) : State :=
  if s.cue.phase ≠ .due ∨ s.fgPending ≠ 0 then s
  else
    let s1 := (s.sweep beats).forwardCommit
    { s1 with cue := { s1.cue with changeIds := [] } }

/-- COMMIT_SWEEP. -/
def execCommitSweep (beats : Nat) (s : State) : Host.Outcome State Fault Refusal := .next (s.commitSweep beats)

/-- The bound of a cue's stretch: work or the sweep not complete is OVERRUN, a module fault; a lead without its understudy's digests goes on
without redundancy (R60, R61, R74, R75, R454). -/
def State.stretchBound (s : State) : State :=
  if s.cue.unit ≠ 2 ∨ s.cue.phase = .none then s
  else if s.cue.phase ≠ .swept then
    let s1 : State := { s with cue := { s.cue with unit := 5 } }
    ((s1.err cuePage 0x0102 (s.cue.number % 2 ^ 32) s.fgPending (s.cue.par.period + s.stretchMax)).evt cuePage 1).enterCurtain 4 cuePage
  else if s.role == 1 && s.compares && !s.cue.peerOk then
    let s1 := (s.evt companyPage 1).desyncPeer
    { s1 with cue := { s1.cue with peerOk := true } }
  else s

/-- STRETCH_BOUND. -/
def execStretchBound (s : State) : Host.Outcome State Fault Refusal := .next s.stretchBound

/-! ## Doorbells (R396, R406) -/

/-- A write of queue `q`'s SQ doorbell (R396, R406). -/
def State.sqDoorbell (s : State) (q : Nat) : State :=
  if q = 0 then s.adminDoorbell
  else if !s.hostReaches then s
  else if !(s.qp q).sqOn then s.stray
  else s.sqServe q

/-- SQ_DOORBELL. -/
def execSqDoorbell (q : Fin 1024) (s : State) : Host.Outcome State Fault Refusal := .next (s.sqDoorbell q.val)

/-- The driver writes CQ_CONS of queue `q` in its index block (R404). -/
def State.placeCons (s : State) (q cons : Nat) : State :=
  match s.journal with
  | some j => if j.qid = q then s.pokeHost (j.idxAddr + 0xC0) (Word.leBytes 4 cons)
      else if (s.qp q).cqOn then s.pokeHost ((s.qp q).idxAddr + 0xC0) (Word.leBytes 4 cons) else s
  | none => if (s.qp q).cqOn then s.pokeHost ((s.qp q).idxAddr + 0xC0) (Word.leBytes 4 cons) else s

/-- A write of queue `q`'s CQ doorbell (R396, R406, R418). -/
def State.cqDoorbell (s : State) (q : Nat) : State :=
  let isJ := (s.journal.map JournalQ.qid) == some q
  if !s.hostReaches then s
  else if !isJ && !(s.qp q).cqOn then s.stray
  else if q = 0 then s.adminCqServe
  else s.cqServe q

/-- CQ_DOORBELL. -/
def execCqDoorbell (q : Fin 1024) (cons : Word32) (s : State) : Host.Outcome State Fault Refusal :=
  .next ((s.placeCons q.val cons.toNat).cqDoorbell q.val)

/-! ## Arrivals (R30, R421–R423, R488) -/

/-- What a service command behind the curtain ends with: its status, CQE bytes 16–31 of a failure and its result (R125, R348, R488). -/
structure SvcEnd where
  status : Nat
  info : List Byte
  result : List Byte
  deriving DecidableEq, Repr

/-- The end of a service command that failed on a key slot (R125). -/
def svcKeyEnd (status slot : Nat) : SvcEnd := { status := status, info := Word.leBytes 4 slot ++ Word.leBytes 4 0xFFFFFFFF, result := [] }

/-- SVC_SIGN behind the curtain, after every act seal that waits (R23), on a unit that is not in FAULT; one whose signature fails its self-check faults (R328, R331, R488). -/
def State.svcSign (s : State) (e : Entry) : SvcEnd × State :=
  let slot := field e.sqe 32 2
  match s.signKey slot with
  | none => (svcKeyEnd 0x0400 slot, s)
  | some pk =>
    let s := s.sealsFirst
    match (List.range 8).find? s.lsuUsable with
    | none => ({ status := 0x0300, info := [], result := [] }, s)
    | some u => match s.freshSig pk (e.message.take e.declLen) with
      | (some sig, t) => ({ status := 0, info := [], result := Word.leBytes 2 sig.length ++ [0, 0] ++ sig }, t.addReg (lsuPage u) 0x04C 1)
      | (none, t) => ({ status := 0x0300, info := [], result := [] }, t.lsuFault u 0)

/-- SVC_VERIFY behind the curtain (R327, R348, R488). -/
def State.svcVerify (s : State) (e : Entry) : SvcEnd × State :=
  let slot := field e.sqe 32 2
  let m := field e.sqe 36 4
  match s.verifyKey slot with
  | none => (svcKeyEnd 0x0400 slot, s)
  | some pk =>
    match (List.range 8).find? s.lsuUsable with
    | none => ({ status := 0x0300, info := [], result := [] }, s)
    | some u =>
      let s1 := s.addReg (lsuPage u) 0x050 1
      if falconVerify pk (e.message.take m) (slice e.message m (e.declLen - m)) then ({ status := 0, info := [], result := [] }, s1)
      else (svcKeyEnd 0x0104 slot, s1.addReg (lsuPage u) 0x054 1)

/-- SVC_DIGEST behind the curtain (R318, R348, R488). -/
def State.svcDigest (s : State) (e : Entry) : SvcEnd × State :=
  let f := field e.sqe 32 1
  let cust := field e.sqe 33 1
  let out := field e.sqe 34 2
  let slot := field e.sqe 36 2
  let lenBad := match digFixed f with
    | some n => decide (out ≠ n)
    | none => decide (out = 0) || decide (1024 < out)
  let bad := decide (f = 0) || decide (10 < f) || decide (64 < cust) || (decide (cust ≠ 0) && decide (f < 9)) || lenBad ||
    (!digKeyed f && decide (slot ≠ 0xFFFF))
  let top := if f = 8 then 128 else 64
  let key := if !digKeyed f then some [] else (s.symKey slot (if f < 9 then usageHmac else usageKmac)).filter
    (fun k => decide (1 ≤ k.length) && decide (k.length ≤ top))
  match bad, key with
  | false, some k =>
    let d := digFinal f out k (digInit f k (e.message.take cust)) (slice e.message cust (e.declLen - cust))
    ({ status := 0, info := [], result := d }, s)
  | _, _ => (svcKeyEnd 0x0400 slot, s)

/-- An entry that arrives behind the curtain: the service commands are served, and every other opcode ends with CURTAIN (R488). -/
def State.curtainEntry (s : State) (e : Entry) : State :=
  let t := if e.opc < 0x30 then 0 else s.lengthTest e
  let refused : SvcEnd := { status := (if t = 0 then 0x0300 else t), info := [], result := [] }
  let (r, s1) := if e.opc = 0x30 ∧ t = 0 then s.svcSign e else if e.opc = 0x31 ∧ t = 0 then s.svcVerify e
    else if e.opc = 0x32 ∧ t = 0 then s.svcDigest e else (refused, s)
  let fin : ItemEnd := { status := r.status, info := fit 16 r.info, out := { ops := [], result := r.result, sigs := [] } }
  let (res, slot) := s1.resultOf e fin
  let c : Cqe := { bytes := cqeBytes e.seq e.sq r.status s1.mdl.faultCue res, slot := slot.map (fun _ => e.idx), result := slot.getD [] }
  (s1.holdCqe e.sq c).flushAll

/-- The next entry fetched from a queue is tested: a malformed one halts the module; a well-formed one arrives in the admission buffer, and a
lead forwards it (R30, R35, R421–R423, R451). Behind the curtain it ends at once. -/
def State.arrive (s : State) (q : Nat) : State :=
  let p := s.qp q
  match p.fetched with
  | [] => s
  | e :: rest =>
    match ioFault p e.sqe with
    | some c => s.houseHalt c q e.idx
    | none =>
      let s1 := s.setQp q { p with fetched := rest }
      if s1.mdl.curtain then s1.curtainEntry e
      else
        let s2 : State := { s1 with cue := { s1.cue with buffer := s1.cue.buffer ++ [e] } }
        if s2.sendsArrivals then s2.sendArrival e else s2

/-- ENTRY_ARRIVAL. -/
def execEntryArrival (q : Fin 1024) (s : State) : Host.Outcome State Fault Refusal := .next (s.arrive q.val)

/-! ## DONE (R196, R213, R280, R286) -/

/-- The entry of a foreground item of the running cue ends (R55, R213). -/
def State.endItem (s : State) (h : Held) (f : ItemFin) : State :=
  if h.task.isNone && h.fg && s.cue.unit == 2 then s.endEntry h.item.sealPos f else s

/-- The pipeline of a held foreground item. -/
def State.heldPipe (s : State) (h : Held) : Option Pipe :=
  if h.task.isNone && h.fg then (s.cue.sealedSet[h.item.sealPos]?).bind (fun x => s.pipe x.entry.pipe) else none

/-- CQE bytes 16–31 of an item that a core ends after an exception: the exhausted counter and its budget (R55), or the cause, the element of a
vector instruction and the offset of the instruction within CODE (R217). They come from the registers that taking the exception wrote. -/
def State.excInfo (s : State) (key : Nat) (x : Core) (h : Held) (status : Nat) : List Byte :=
  let pg := corePage key
  if status = 0x0102 then
    let id := s.fld pg 0x05C 11 9
    Word.leBytes 2 id ++ [0, 0] ++ Word.leBytes 4 (x.bud id).toNat
  else if status = 0x010C then
    let at_ := (s.heldPipe h).bind (fun p => p.codeOffset (s.pageAddr pg 0x054 0x058))
    Word.leBytes 2 (s.fld pg 0x05C 7 0) ++ Word.leBytes 2 (if s.fld pg 0x05C 8 8 = 1 then s.fld pg 0x060 7 0 else 0xFFFF) ++
      Word.leBytes 4 (at_.getD 0xFFFFFFFF)
  else []

/-- DONE: without an item, or in operator mode with a status above 0x00FF, ITEM_STATE; it waits for older stores and for the item's unit jobs;
then the item ends, and operator mode and any reservation end with it (R196, R226). -/
def doneBody (f : FmtS) (plan : List NodePlan) (s : State) (key : Nat) (x : Core) : CoreRes :=
  match x.held with
  | none => .raise { cause := .itemState }
  | some h =>
    let status := x.gn f.ra % 65536
    if x.mode = .operator ∧ 0xFF < status then .raise { cause := .itemState }
    else if !x.quiet || s.jobsOf key then .wait
    else
      let pc := if x.mode = .operator then BitVec.ofNat 64 (s.ebase (key / 16) + 0x800) else x.pc + 4
      let mode := if x.mode = .operator then Mode.firmware else x.mode
      let s1 := s.setCoreAt key { x with held := none, mode := mode, pc := pc, resv := none }
      .retire ((s1.endItem h { status := status, info := s.excInfo key x h status, plan := plan }).dispDone (key / 16) h)

/-- DONE (R213); not counted in OPS. -/
def execDone (w : CoreRef) (f : FmtS) (plan : List NodePlan) (s : State) : Host.Outcome State Fault Refusal :=
  .next (runCore w { word := wordS 3 f, legal := f.rd == 0 && f.sys == 0, counted := false } (doneBody f plan) s)

end Sys2Proof.Machine
end

