-- ==== Sys2Proof/Machine/IntAlu.lean ====
section
/-!
DEFINITION. The scalar integer instructions of the cores: register arithmetic, multiply and divide, immediates, shift
immediates and constants (R203, R204). Integer arithmetic wraps modulo 2^64 and never raises an exception.
-/
namespace Sys2Proof.Machine
open Sys2Proof

/-- rd ← ra op rb (R203). -/
def scalar2 (f : FmtA) (op : Nat → Nat → Nat → Nat) (s : State) (key : Nat) (x : Core) : CoreRes :=
  retireCore s key (x.putG f.rd (op 64 (x.gn f.ra) (x.gn f.rb)))

/-- rd ← op ra (R203). -/
def scalar1 (f : FmtA) (op : Nat → Nat) (s : State) (key : Nat) (x : Core) : CoreRes :=
  retireCore s key (x.putG f.rd (op (x.gn f.ra)))

/-- rd ← ra op immediate (R203). -/
def scalarI (f : FmtI) (op : Nat → Nat → Nat → Nat) (imm : Nat) (s : State) (key : Nat) (x : Core) : CoreRes :=
  retireCore s key (x.putG f.rd (op 64 (x.gn f.ra) imm))

/-- rd ← ra shifted by a constant (R203). -/
def scalarSh (f : FmtSh) (op : Nat → Nat → Nat → Nat) (s : State) (key : Nat) (x : Core) : CoreRes :=
  retireCore s key (x.putG f.rd (op 64 (x.gn f.ra) f.amt.toNat))

/-- rd ← the CRC-32C remainder ra[31:0] after the low `n` bytes of rb; rd[63:32] ← 0 (R204). -/
def scalarCrc (f : FmtA) (n : Nat) (s : State) (key : Nat) (x : Core) : CoreRes :=
  retireCore s key (x.putG f.rd (crcStep n (x.gn f.ra % 2 ^ 32) (x.gn f.rb)))

/-- The halfword position HW of a constant instruction, ra[1:0] (R203). -/
def halfword (f : FmtI) : Nat := f.ra.toNat % 4


/-- ADD (R203, R204): sum. -/
def execAdd (w : CoreRef) (f : FmtA) (s : State) : Host.Outcome State Fault Refusal :=
  .next (runCore w { word := wordA 0x01 0 f } (scalar2 f opAdd) s)

/-- SUB (R203, R204): difference. -/
def execSub (w : CoreRef) (f : FmtA) (s : State) : Host.Outcome State Fault Refusal :=
  .next (runCore w { word := wordA 0x01 1 f } (scalar2 f opSub) s)

/-- AND (R203, R204): bitwise AND. -/
def execAnd (w : CoreRef) (f : FmtA) (s : State) : Host.Outcome State Fault Refusal :=
  .next (runCore w { word := wordA 0x01 2 f } (scalar2 f opAnd) s)

/-- OR (R203, R204): bitwise OR. -/
def execOr (w : CoreRef) (f : FmtA) (s : State) : Host.Outcome State Fault Refusal :=
  .next (runCore w { word := wordA 0x01 3 f } (scalar2 f opOr) s)

/-- XOR (R203, R204): bitwise exclusive OR. -/
def execXor (w : CoreRef) (f : FmtA) (s : State) : Host.Outcome State Fault Refusal :=
  .next (runCore w { word := wordA 0x01 4 f } (scalar2 f opXor) s)

/-- ANDN (R203, R204): ra AND NOT rb. -/
def execAndn (w : CoreRef) (f : FmtA) (s : State) : Host.Outcome State Fault Refusal :=
  .next (runCore w { word := wordA 0x01 5 f } (scalar2 f opAndn) s)

/-- SLL (R203, R204): shift left by rb[5:0]. -/
def execSll (w : CoreRef) (f : FmtA) (s : State) : Host.Outcome State Fault Refusal :=
  .next (runCore w { word := wordA 0x01 6 f } (scalar2 f opSll) s)

/-- SRL (R203, R204): logical shift right by rb[5:0]. -/
def execSrl (w : CoreRef) (f : FmtA) (s : State) : Host.Outcome State Fault Refusal :=
  .next (runCore w { word := wordA 0x01 7 f } (scalar2 f opSrl) s)

/-- SRA (R203, R204): arithmetic shift right by rb[5:0]. -/
def execSra (w : CoreRef) (f : FmtA) (s : State) : Host.Outcome State Fault Refusal :=
  .next (runCore w { word := wordA 0x01 8 f } (scalar2 f opSra) s)

/-- ROTL (R203, R204): rotate left by rb[5:0]. -/
def execRotl (w : CoreRef) (f : FmtA) (s : State) : Host.Outcome State Fault Refusal :=
  .next (runCore w { word := wordA 0x01 9 f } (scalar2 f opRotl) s)

/-- SLT (R203, R204): signed less-than. -/
def execSlt (w : CoreRef) (f : FmtA) (s : State) : Host.Outcome State Fault Refusal :=
  .next (runCore w { word := wordA 0x01 10 f } (scalar2 f opSlt) s)

/-- SLTU (R203, R204): unsigned less-than. -/
def execSltu (w : CoreRef) (f : FmtA) (s : State) : Host.Outcome State Fault Refusal :=
  .next (runCore w { word := wordA 0x01 11 f } (scalar2 f opSltu) s)

/-- MIN (R203, R204): signed minimum. -/
def execMin (w : CoreRef) (f : FmtA) (s : State) : Host.Outcome State Fault Refusal :=
  .next (runCore w { word := wordA 0x01 12 f } (scalar2 f opMin) s)

/-- MINU (R203, R204): unsigned minimum. -/
def execMinu (w : CoreRef) (f : FmtA) (s : State) : Host.Outcome State Fault Refusal :=
  .next (runCore w { word := wordA 0x01 13 f } (scalar2 f opMinu) s)

/-- MAX (R203, R204): signed maximum. -/
def execMax (w : CoreRef) (f : FmtA) (s : State) : Host.Outcome State Fault Refusal :=
  .next (runCore w { word := wordA 0x01 14 f } (scalar2 f opMax) s)

/-- MAXU (R203, R204): unsigned maximum. -/
def execMaxu (w : CoreRef) (f : FmtA) (s : State) : Host.Outcome State Fault Refusal :=
  .next (runCore w { word := wordA 0x01 15 f } (scalar2 f opMaxu) s)

/-- CLZ (R203): leading zeros; rb must be g0. -/
def execClz (w : CoreRef) (f : FmtA) (s : State) : Host.Outcome State Fault Refusal :=
  .next (runCore w { word := wordA 0x01 16 f, legal := f.rb == 0 } (scalar1 f (opClz 64)) s)

/-- CTZ (R203): trailing zeros; rb must be g0. -/
def execCtz (w : CoreRef) (f : FmtA) (s : State) : Host.Outcome State Fault Refusal :=
  .next (runCore w { word := wordA 0x01 17 f, legal := f.rb == 0 } (scalar1 f (opCtz 64)) s)

/-- POPC (R203): set bits; rb must be g0. -/
def execPopc (w : CoreRef) (f : FmtA) (s : State) : Host.Outcome State Fault Refusal :=
  .next (runCore w { word := wordA 0x01 18 f, legal := f.rb == 0 } (scalar1 f (opPopc 64)) s)

/-- BSWAP (R203): bytes reversed; rb must be g0. -/
def execBswap (w : CoreRef) (f : FmtA) (s : State) : Host.Outcome State Fault Refusal :=
  .next (runCore w { word := wordA 0x01 19 f, legal := f.rb == 0 } (scalar1 f (opBswap)) s)

/-- CRC32C over 1 byte (R204). -/
def execCrc32cB (w : CoreRef) (f : FmtA) (s : State) : Host.Outcome State Fault Refusal :=
  .next (runCore w { word := wordA 0x01 20 f } (scalarCrc f 1) s)

/-- CRC32C over 2 bytes (R204). -/
def execCrc32cH (w : CoreRef) (f : FmtA) (s : State) : Host.Outcome State Fault Refusal :=
  .next (runCore w { word := wordA 0x01 21 f } (scalarCrc f 2) s)

/-- CRC32C over 4 bytes (R204). -/
def execCrc32cW (w : CoreRef) (f : FmtA) (s : State) : Host.Outcome State Fault Refusal :=
  .next (runCore w { word := wordA 0x01 22 f } (scalarCrc f 4) s)

/-- CRC32C over 8 bytes (R204). -/
def execCrc32cD (w : CoreRef) (f : FmtA) (s : State) : Host.Outcome State Fault Refusal :=
  .next (runCore w { word := wordA 0x01 23 f } (scalarCrc f 8) s)

/-- MUL (R203, R204): low 64 bits of the product. -/
def execMul (w : CoreRef) (f : FmtA) (s : State) : Host.Outcome State Fault Refusal :=
  .next (runCore w { word := wordA 0x02 0 f } (scalar2 f opMul) s)

/-- MULH (R203, R204): high 64 bits of the signed product. -/
def execMulh (w : CoreRef) (f : FmtA) (s : State) : Host.Outcome State Fault Refusal :=
  .next (runCore w { word := wordA 0x02 1 f } (scalar2 f opMulh) s)

/-- MULHU (R203, R204): high 64 bits of the unsigned product. -/
def execMulhu (w : CoreRef) (f : FmtA) (s : State) : Host.Outcome State Fault Refusal :=
  .next (runCore w { word := wordA 0x02 2 f } (scalar2 f opMulhu) s)

/-- DIV (R203, R204): signed quotient. -/
def execDiv (w : CoreRef) (f : FmtA) (s : State) : Host.Outcome State Fault Refusal :=
  .next (runCore w { word := wordA 0x02 3 f } (scalar2 f opDiv) s)

/-- DIVU (R203, R204): unsigned quotient. -/
def execDivu (w : CoreRef) (f : FmtA) (s : State) : Host.Outcome State Fault Refusal :=
  .next (runCore w { word := wordA 0x02 4 f } (scalar2 f opDivu) s)

/-- REM (R203, R204): signed remainder. -/
def execRem (w : CoreRef) (f : FmtA) (s : State) : Host.Outcome State Fault Refusal :=
  .next (runCore w { word := wordA 0x02 5 f } (scalar2 f opRem) s)

/-- REMU (R203, R204): unsigned remainder. -/
def execRemu (w : CoreRef) (f : FmtA) (s : State) : Host.Outcome State Fault Refusal :=
  .next (runCore w { word := wordA 0x02 6 f } (scalar2 f opRemu) s)

/-- ADDI (R203): sum with a sign-extended immediate. -/
def execAddi (w : CoreRef) (f : FmtI) (s : State) : Host.Outcome State Fault Refusal :=
  .next (runCore w { word := wordI 0x04 f } (scalarI f opAdd (sext64 f.imm)) s)

/-- ANDI (R203): AND with a zero-extended immediate. -/
def execAndi (w : CoreRef) (f : FmtI) (s : State) : Host.Outcome State Fault Refusal :=
  .next (runCore w { word := wordI 0x05 f } (scalarI f opAnd f.imm.toNat) s)

/-- ORI (R203): OR with a zero-extended immediate. -/
def execOri (w : CoreRef) (f : FmtI) (s : State) : Host.Outcome State Fault Refusal :=
  .next (runCore w { word := wordI 0x06 f } (scalarI f opOr f.imm.toNat) s)

/-- XORI (R203): exclusive OR with a zero-extended immediate. -/
def execXori (w : CoreRef) (f : FmtI) (s : State) : Host.Outcome State Fault Refusal :=
  .next (runCore w { word := wordI 0x07 f } (scalarI f opXor f.imm.toNat) s)

/-- SLTI (R203): signed less-than a sign-extended immediate. -/
def execSlti (w : CoreRef) (f : FmtI) (s : State) : Host.Outcome State Fault Refusal :=
  .next (runCore w { word := wordI 0x08 f } (scalarI f opSlt (sext64 f.imm)) s)

/-- SLTIU (R203): less-than a sign-extended immediate, compared unsigned. -/
def execSltiu (w : CoreRef) (f : FmtI) (s : State) : Host.Outcome State Fault Refusal :=
  .next (runCore w { word := wordI 0x09 f } (scalarI f opSltu (sext64 f.imm)) s)

/-- Shift left by IMM[5:0] (R203); IMM[15:8] must be 0. -/
def execSllImm (w : CoreRef) (f : FmtSh) (s : State) : Host.Outcome State Fault Refusal :=
  .next (runCore w { word := wordSh 0 f, legal := f.hi == 0 } (scalarSh f opSll) s)

/-- Logical shift right by IMM[5:0] (R203); IMM[15:8] must be 0. -/
def execSrlImm (w : CoreRef) (f : FmtSh) (s : State) : Host.Outcome State Fault Refusal :=
  .next (runCore w { word := wordSh 1 f, legal := f.hi == 0 } (scalarSh f opSrl) s)

/-- Arithmetic shift right by IMM[5:0] (R203); IMM[15:8] must be 0. -/
def execSraImm (w : CoreRef) (f : FmtSh) (s : State) : Host.Outcome State Fault Refusal :=
  .next (runCore w { word := wordSh 2 f, legal := f.hi == 0 } (scalarSh f opSra) s)

/-- Rotate left by IMM[5:0] (R203); IMM[15:8] must be 0. -/
def execRotlImm (w : CoreRef) (f : FmtSh) (s : State) : Host.Outcome State Fault Refusal :=
  .next (runCore w { word := wordSh 3 f, legal := f.hi == 0 } (scalarSh f opRotl) s)

/-- MOVZ (R203): rd ← IMM << (16 × HW); ra[4:2] must be 0. -/
def execMovz (w : CoreRef) (f : FmtI) (s : State) : Host.Outcome State Fault Refusal :=
  .next (runCore w { word := wordI 0x0B f, legal := decide (f.ra.toNat < 4) }
    (fun s key x => retireCore s key (x.putG f.rd (f.imm.toNat * 2 ^ (16 * halfword f)))) s)

/-- MOVK (R203): rd[16 × HW + 15 : 16 × HW] ← IMM; ra[4:2] must be 0. -/
def execMovk (w : CoreRef) (f : FmtI) (s : State) : Host.Outcome State Fault Refusal :=
  .next (runCore w { word := wordI 0x0C f, legal := decide (f.ra.toNat < 4) }
    (fun s key x => retireCore s key
      (x.putG f.rd (Word.putBits (16 * halfword f + 15) (16 * halfword f) f.imm.toNat (x.gn f.rd)))) s)

end Sys2Proof.Machine
end

