-- ==== Sys2Proof/Machine/Vector.lean ====
section
/-!
DEFINITION. The vector instructions of the cores (R199, R200, R206–R211, R216): element arithmetic, comparisons into masks,
mask logic, element movement, tables, loads and stores, gathers and scatters, compression and reductions. Every source is
read before anything is written, and an instruction that raises an exception writes nothing.
-/
namespace Sys2Proof.Machine
open Sys2Proof

/-- vd[e] ← va[e] op vb[e], or op gb, for every active element (R207). -/
def vecOp (f : FmtV) (sc : Bool) (op : Nat → Nat → Nat → Nat) (s : State) (key : Nat) (x : Core) : CoreRes :=
  retireCore s key (x.mapActive f (fun e => op (ewBits f.ew) (x.vaElem f e) (x.vbElem f sc e)))

/-- The word of an element operation: VFN, or VFN + 32 with a scalar operand (R207). -/
def vecWord (major vfn : Nat) (f : FmtV) (sc : Bool) : Word32 := wordV major (if sc then vfn + 32 else vfn) f

/-- m[vd[2:0]] bit e ← va[e] op vb[e] for every active element, every other bit 0 (R207). -/
def vecCmp (f : FmtV) (sc : Bool) (op : Nat → Nat → Nat → Bool) (s : State) (key : Nat) (x : Core) : CoreRes :=
  retireCore s key (x.setMr f.vd.toNat (maskOf (fun e =>
    x.active f.ew f.msk e && op (ewBits f.ew) (x.vaElem f e) (x.vbElem f sc e))))

/-- A mask field names m0–m7: bits [4:3] are 0 (R207). -/
def maskField (r : BitVec 5) : Bool := decide (r.toNat < 8)

/-- md ← ma op mb for bits below L, 0 from L up (R207). -/
def maskOp (f : FmtV) (op : Bool → Bool → Bool) (s : State) (key : Nat) (x : Core) : CoreRes :=
  let l := x.activeLen f.ew
  let a := x.mr f.va.toNat
  let b := x.mr f.vb.toNat
  retireCore s key (x.setMr f.vd.toNat (maskOf (fun e => decide (e < l) && op (a.getLsbD e) (b.getLsbD e))))

/-- gd ← a number computed from the bits of m[va] below L (R207). -/
def maskCount (f : FmtV) (op : List Nat → Nat) (s : State) (key : Nat) (x : Core) : CoreRes :=
  let m := x.mr f.va.toNat
  retireCore s key (x.putG f.vd (op ((List.range (x.activeLen f.ew)).filter (fun e => m.getLsbD e))))

/-- vd[e] ← a value computed for every active element (R207). -/
def vecMap (f : FmtV) (op : Core → Nat → Nat) (s : State) (key : Nat) (x : Core) : CoreRes :=
  retireCore s key (x.mapActive f (op x))

/-- VSEL: every element below L takes va[e] or vb[e] by the mask (R207). -/
def vselBody (f : FmtV) (s : State) (key : Nat) (x : Core) : CoreRes :=
  let m := x.mr f.msk.toNat
  let w := ewBits f.ew
  let pick := fun e => if m.getLsbD e then x.vaElem f e else elemAt (x.vr f.vb.toNat) w e
  retireCore s key (x.setVr f.vd.toNat
    ((List.range (x.activeLen f.ew)).foldl (fun v e => setElem v w e (pick e)) (x.vr f.vd.toNat)))

/-- VSETVL: VL ← min(ga, 2,048 / EW); gd ← VL (R207). -/
def vsetvlBody (f : FmtV) (s : State) (key : Nat) (x : Core) : CoreRes :=
  let n := min (x.gn f.va) (ewCount f.ew)
  retireCore s key { x.putG f.vd n with vl := n }

/-- VEXT: element gb of va, or 0 beyond the register; VL and MSK play no part (R207). -/
def vextBody (f : FmtV) (s : State) (key : Nat) (x : Core) : CoreRes :=
  let i := x.gn f.vb
  retireCore s key (x.putG f.vd (if i < ewCount f.ew then x.vaElem f i else 0))

/-- VINS: element gb of vd ← ga; nothing beyond the register (R207). -/
def vinsBody (f : FmtV) (s : State) (key : Nat) (x : Core) : CoreRes :=
  let i := x.gn f.vb
  let v := x.vr f.vd.toNat
  retireCore s key (if i < ewCount f.ew then x.setVr f.vd.toNat (setElem v (ewBits f.ew) i (x.gn f.va)) else x)

/-- VSLIDEUP: vd[e] ← va[e − gb] for the active elements from gb up (R207). -/
def vslideupBody (f : FmtV) (s : State) (key : Nat) (x : Core) : CoreRes :=
  let n := x.gn f.vb
  let w := ewBits f.ew
  retireCore s key (x.setVr f.vd.toNat
    (((x.actives f).filter (fun e => decide (n ≤ e))).foldl (fun v e => setElem v w e (x.vaElem f (e - n)))
      (x.vr f.vd.toNat)))

/-- VTBL: each index of IW bits looks up a table of N registers of EW-bit entries (R208). -/
def vtblBody (f : FmtV) (n iw : Nat) (s : State) (key : Nat) (x : Core) : CoreRes :=
  vecMap f (fun y e =>
    let i := y.indexElem f.vb.toNat iw e
    if i < n * ewCount f.ew then y.tableEntry f.va.toNat f.ew i else 0) s key x

/-- VTBL2: a byte index through a first table of 256 bytes and a second table of T registers (R209). -/
def vtbl2Body (f : FmtV) (t : Nat) (s : State) (key : Nat) (x : Core) : CoreRes :=
  vecMap f (fun y e =>
    let i := y.indexElem f.vb.toNat 8 e
    let j := elemAt (y.vr f.va.toNat) 8 i
    if j < t * ewCount f.ew then y.tableEntry (f.va.toNat + 1) f.ew j else 0) s key x

/-- VCOMPRESS: the active elements of va in order, then zeros up to L (R207). -/
def vcompressBody (f : FmtV) (s : State) (key : Nat) (x : Core) : CoreRes :=
  let w := ewBits f.ew
  let vals := (x.actives f).map (fun e => x.vaElem f e)
  retireCore s key (x.setVr f.vd.toNat
    ((List.range (x.activeLen f.ew)).foldl (fun v j => setElem v w j (vals.getD j 0)) (x.vr f.vd.toNat)))

/-- VEXPAND: the active elements take va[0], va[1], … in order (R207). -/
def vexpandBody (f : FmtV) (s : State) (key : Nat) (x : Core) : CoreRes :=
  let w := ewBits f.ew
  retireCore s key (x.setVr f.vd.toNat
    ((x.actives f).zipIdx.foldl (fun v p => setElem v w p.1 (x.vaElem f p.2)) (x.vr f.vd.toNat)))

/-- A reduction folds the active elements in ascending order from gb, sign-extended where the form is signed (R211). -/
def redBody (f : FmtV) (signed : Bool) (op : Nat → Nat → Nat → Nat) (s : State) (key : Nat) (x : Core) : CoreRes :=
  let w := ewBits f.ew
  let get := fun e => if signed then Word.wrap 64 (Word.signed w (x.vaElem f e)) else x.vaElem f e
  retireCore s key (x.putG f.vd ((x.actives f).foldl (fun a e => op 64 a (get e)) (x.gn f.vb)))

/-! ## Vector memory -/

/-- An element access: the element, its address and its size in bytes. -/
structure ElemAcc where
  e : Nat
  a : Nat
  n : Nat
  deriving DecidableEq, Repr

/-- Why an element's access faults, if it does: its check, or the bracketing of register accesses (R207, R216, R221). -/
def State.elemFault (s : State) (key : Nat) (acc : Access) (x : Core) (y : ElemAcc) : Option Exc :=
  match s.checkAccess key acc y.a y.n with
  | some c => some { cause := c, elem := some y.e, addr := some y.a }
  | none => if s.ioCheck x y.a then none else some { cause := .ioOrder, elem := some y.e, addr := some y.a }

/-- The elements read in ascending order: their values, an exception of one of them, or a wait. -/
inductive ElemsRes where
  | ok (vals : List (Nat × Nat)) (s : State)
  | raise (e : Exc)
  | wait
  deriving DecidableEq, Repr

/-- Checking and reading the elements one after another, so that the lowest element that faults is the one reported (R207, R210, R216). -/
def State.readElems (s : State) (key : Nat) (x : Core) : List ElemAcc → ElemsRes
  | [] => .ok [] s
  | y :: r =>
    match s.elemFault key .load x y with
    | some e => .raise e
    | none =>
      match s.coreLoad key y.a y.n with
      | .wait => .wait
      | .raise c => .raise { cause := c, elem := some y.e, addr := some y.a }
      | .ok bs s1 =>
        match s1.readElems key x r with
        | .ok vals s2 => .ok ((y.e, Word.leValue bs) :: vals) s2
        | .raise e => .raise e
        | .wait => .wait

/-- Writing the elements one after another; none when the buffer has no room. -/
def State.writeElems (s : State) (key : Nat) : List (ElemAcc × Nat) → Option State
  | [] => some s
  | (x, v) :: r =>
    match s.coreStore key x.a (Word.leBytes x.n v) with
    | none => none
    | some s1 => s1.writeElems key r

/-- A vector load: the elements in ascending order, then `put` with the values (R216). A parity error is one of the first element whose line
the L1 holds (R195). -/
def vecLoad (accs : List ElemAcc) (parity : Bool) (put : Core → List (Nat × Nat) → Core) (s : State) (key : Nat) (x : Core) : CoreRes :=
  match s.readElems key x accs with
  | .wait => .wait
  | .raise e => .raise e
  | .ok vals s1 =>
    let s2 := match if parity then accs.find? (fun y => s.l1Held key y.a) else none with
      | some y => (s1.l1Error key y.a).errorSeen
      | none => s1
    let s3 := s2.ioAfter key (accs.any (fun y => s.classOf y.a == .register))
    retireCore s3 key (put (s3.coreAt key) vals)

/-- The buffer entries that the stores of a vector instruction may need at most. A store that never fits the empty buffer is
let through once the buffer is empty, so that it is not stuck (R220). -/
def State.writeElemsRoom (s : State) (key : Nat) (xs : List (ElemAcc × Nat)) : Option State :=
  match s.writeElems key xs with
  | some t => some t
  | none =>
    if (s.coreAt key).sb.isEmpty then
      some (xs.foldl (fun t p =>
        match t.coreStore key p.1.a (Word.leBytes p.1.n p.2) with
        | some u => u
        | none =>
          match (t.coreAt key).sb with
          | e :: r => ((t.setCoreAt key { t.coreAt key with sb := r }).sbLeave key e |>.coreStore key p.1.a
              (Word.leBytes p.1.n p.2)).getD t
          | [] => t) s)
    else none

/-- A vector store: all checks, the charges of submissions, then the writes in ascending order (R210, R214, R216). -/
def vecStore (accs : List (ElemAcc × Nat)) (s : State) (key : Nat) (x : Core) : CoreRes :=
  match accs.findSome? (fun y => s.elemFault key .store x y.1) with
  | some e => .raise e
  | none =>
    match s.charged key x (accs.map (fun y => (y.1.a, y.1.n, y.2))) with
    | .error id => .raise { cause := .budget, counter := id }
    | .ok y =>
      match (s.setCoreAt key y).writeElemsRoom key accs with
      | none => .wait
      | some s1 => retireStored s1 key x (accs.any (fun z => s.classOf z.1.a == .register))

/-- The element accesses of a unit-stride access (R207). -/
def Core.unitAccs (x : Core) (f : FmtV) : List ElemAcc :=
  let n := ewBits f.ew / 8
  (x.actives f).map (fun e => { e := e, a := (x.gn f.va + e * n) % 2 ^ 64, n := n })

/-- The element accesses of a strided access: gb is signed (R207). -/
def Core.strideAccs (x : Core) (f : FmtV) : List ElemAcc :=
  let n := ewBits f.ew / 8
  (x.actives f).map (fun e => { e := e, a := (x.gn f.va + e * x.gn f.vb) % 2 ^ 64, n := n })

/-- The element accesses of a gather or scatter with offsets of `iw` bits (R210). -/
def Core.indexAccs (x : Core) (f : FmtV) (iw : Nat) : List ElemAcc :=
  let n := ewBits f.ew / 8
  (x.actives f).map (fun e => { e := e, a := (x.gn f.va + x.indexElem f.vb.toNat iw e) % 2 ^ 64, n := n })

/-- The element loads' values put into vd (R207). -/
def putElems (f : FmtV) (y : Core) (vals : List (Nat × Nat)) : Core :=
  y.setVr f.vd.toNat (vals.foldl (fun v p => setElem v (ewBits f.ew) p.1 p.2) (y.vr f.vd.toNat))

/-- The lowest active element in register pages, a wing window or the host window (R210). -/
def State.classFault (s : State) (accs : List ElemAcc) : Option Exc :=
  (accs.find? (fun y => s.classOf y.a != .memory)).map
    (fun y => { cause := .cls, elem := some y.e, addr := some y.a })

/-- A vector memory instruction starts with the trailing check of an earlier register access (R221). -/
def vecMem (accs : List ElemAcc) (go : State → Nat → Core → CoreRes) (s : State) (key : Nat) (x : Core) : CoreRes :=
  if x.ioOpen then .raise { cause := .ioOrder, elem := (accs.head?).map ElemAcc.e, addr := (accs.head?).map ElemAcc.a }
  else go s key x

/-- A vector load or store of the elements that `accs` gives. -/
def vldBody (f : FmtV) (parity : Bool) (accs : Core → List ElemAcc) (s : State) (key : Nat) (x : Core) : CoreRes :=
  vecMem (accs x) (vecLoad (accs x) parity (putElems f)) s key x

/-- A vector store of the elements of vd that `accs` names. -/
def vstBody (f : FmtV) (accs : Core → List ElemAcc) (s : State) (key : Nat) (x : Core) : CoreRes :=
  vecMem (accs x)
    (vecStore ((accs x).map (fun y => (y, elemAt (x.vr f.vd.toNat) (ewBits f.ew) y.e)))) s key x

/-- A gather checks the class of every active element before any access (R210). -/
def gatherBody (f : FmtV) (iw : Nat) (parity : Bool) (s : State) (key : Nat) (x : Core) : CoreRes :=
  match s.classFault (x.indexAccs f iw) with
  | some e => if x.ioOpen then .raise { cause := .ioOrder, elem := e.elem, addr := e.addr } else .raise e
  | none => vldBody f parity (fun y => y.indexAccs f iw) s key x

/-- A scatter checks class, alignment, protection and population of every active element before it writes any (R210). -/
def scatterBody (f : FmtV) (iw : Nat) (s : State) (key : Nat) (x : Core) : CoreRes :=
  match s.classFault (x.indexAccs f iw) with
  | some e => if x.ioOpen then .raise { cause := .ioOrder, elem := e.elem, addr := e.addr } else .raise e
  | none => vstBody f (fun y => y.indexAccs f iw) s key x

/-- The one access of a mask load or store: 32 bytes, aligned to 32 (R207). -/
def Core.maskAcc (x : Core) (f : FmtV) : List ElemAcc := [{ e := 0, a := x.gn f.va, n := 32 }]

/-- VLDM: 32 bytes of memory into a mask register (R207). -/
def vldmBody (f : FmtV) (parity : Bool) (s : State) (key : Nat) (x : Core) : CoreRes :=
  vecMem (x.maskAcc f) (vecLoad (x.maskAcc f) parity
    (fun y vals => match vals with
      | p :: _ => y.setMr f.vd.toNat (BitVec.ofNat 256 p.2)
      | [] => y)) s key x

/-- VSTM: a mask register into 32 bytes of memory (R207). -/
def vstmBody (f : FmtV) (s : State) (key : Nat) (x : Core) : CoreRes :=
  vecMem (x.maskAcc f) (vecStore ((x.maskAcc f).map (fun y => (y, (x.mr f.vd.toNat).toNat)))) s key x

/-- Registers base to base + n − 1 lie within the file (R206). -/
def regsFit (base : BitVec 5) (n : Nat) : Bool := decide (base.toNat + n ≤ 32)

/-- The accesses of a vector load as address and size, for its wing requests. -/
def accPairs (l : List ElemAcc) : List (Nat × Nat) := l.map (fun y => (y.a, y.n))

/-! ## The instructions -/

/-- VADD (R207): element by element, with a vector or a scalar second operand. -/
def execVadd (w : CoreRef) (f : FmtV) (sc : Bool) (s : State) : Host.Outcome State Fault Refusal :=
  .next (runCore w { word := vecWord 0x20 0 f sc, vector := true } (vecOp f sc opAdd) s)

/-- VSUB (R207): element by element, with a vector or a scalar second operand. -/
def execVsub (w : CoreRef) (f : FmtV) (sc : Bool) (s : State) : Host.Outcome State Fault Refusal :=
  .next (runCore w { word := vecWord 0x20 1 f sc, vector := true } (vecOp f sc opSub) s)

/-- VMUL (R207): element by element, with a vector or a scalar second operand. -/
def execVmul (w : CoreRef) (f : FmtV) (sc : Bool) (s : State) : Host.Outcome State Fault Refusal :=
  .next (runCore w { word := vecWord 0x20 2 f sc, vector := true } (vecOp f sc opMul) s)

/-- VMULH (R207): element by element, with a vector or a scalar second operand. -/
def execVmulh (w : CoreRef) (f : FmtV) (sc : Bool) (s : State) : Host.Outcome State Fault Refusal :=
  .next (runCore w { word := vecWord 0x20 3 f sc, vector := true } (vecOp f sc opMulh) s)

/-- VMULHU (R207): element by element, with a vector or a scalar second operand. -/
def execVmulhu (w : CoreRef) (f : FmtV) (sc : Bool) (s : State) : Host.Outcome State Fault Refusal :=
  .next (runCore w { word := vecWord 0x20 4 f sc, vector := true } (vecOp f sc opMulhu) s)

/-- VMIN (R207): element by element, with a vector or a scalar second operand. -/
def execVmin (w : CoreRef) (f : FmtV) (sc : Bool) (s : State) : Host.Outcome State Fault Refusal :=
  .next (runCore w { word := vecWord 0x20 5 f sc, vector := true } (vecOp f sc opMin) s)

/-- VMINU (R207): element by element, with a vector or a scalar second operand. -/
def execVminu (w : CoreRef) (f : FmtV) (sc : Bool) (s : State) : Host.Outcome State Fault Refusal :=
  .next (runCore w { word := vecWord 0x20 6 f sc, vector := true } (vecOp f sc opMinu) s)

/-- VMAX (R207): element by element, with a vector or a scalar second operand. -/
def execVmax (w : CoreRef) (f : FmtV) (sc : Bool) (s : State) : Host.Outcome State Fault Refusal :=
  .next (runCore w { word := vecWord 0x20 7 f sc, vector := true } (vecOp f sc opMax) s)

/-- VMAXU (R207): element by element, with a vector or a scalar second operand. -/
def execVmaxu (w : CoreRef) (f : FmtV) (sc : Bool) (s : State) : Host.Outcome State Fault Refusal :=
  .next (runCore w { word := vecWord 0x20 8 f sc, vector := true } (vecOp f sc opMaxu) s)

/-- VAND (R207): element by element, with a vector or a scalar second operand. -/
def execVand (w : CoreRef) (f : FmtV) (sc : Bool) (s : State) : Host.Outcome State Fault Refusal :=
  .next (runCore w { word := vecWord 0x20 9 f sc, vector := true } (vecOp f sc opAnd) s)

/-- VOR (R207): element by element, with a vector or a scalar second operand. -/
def execVor (w : CoreRef) (f : FmtV) (sc : Bool) (s : State) : Host.Outcome State Fault Refusal :=
  .next (runCore w { word := vecWord 0x20 10 f sc, vector := true } (vecOp f sc opOr) s)

/-- VXOR (R207): element by element, with a vector or a scalar second operand. -/
def execVxor (w : CoreRef) (f : FmtV) (sc : Bool) (s : State) : Host.Outcome State Fault Refusal :=
  .next (runCore w { word := vecWord 0x20 11 f sc, vector := true } (vecOp f sc opXor) s)

/-- VANDN (R207): element by element, with a vector or a scalar second operand. -/
def execVandn (w : CoreRef) (f : FmtV) (sc : Bool) (s : State) : Host.Outcome State Fault Refusal :=
  .next (runCore w { word := vecWord 0x20 12 f sc, vector := true } (vecOp f sc opAndn) s)

/-- VSLL (R207): element by element, with a vector or a scalar second operand. -/
def execVsll (w : CoreRef) (f : FmtV) (sc : Bool) (s : State) : Host.Outcome State Fault Refusal :=
  .next (runCore w { word := vecWord 0x20 13 f sc, vector := true } (vecOp f sc opSll) s)

/-- VSRL (R207): element by element, with a vector or a scalar second operand. -/
def execVsrl (w : CoreRef) (f : FmtV) (sc : Bool) (s : State) : Host.Outcome State Fault Refusal :=
  .next (runCore w { word := vecWord 0x20 14 f sc, vector := true } (vecOp f sc opSrl) s)

/-- VSRA (R207): element by element, with a vector or a scalar second operand. -/
def execVsra (w : CoreRef) (f : FmtV) (sc : Bool) (s : State) : Host.Outcome State Fault Refusal :=
  .next (runCore w { word := vecWord 0x20 15 f sc, vector := true } (vecOp f sc opSra) s)

/-- VROTL (R207): element by element, with a vector or a scalar second operand. -/
def execVrotl (w : CoreRef) (f : FmtV) (sc : Bool) (s : State) : Host.Outcome State Fault Refusal :=
  .next (runCore w { word := vecWord 0x20 16 f sc, vector := true } (vecOp f sc opRotl) s)

/-- VADDSU (R207): element by element, with a vector or a scalar second operand. -/
def execVaddsu (w : CoreRef) (f : FmtV) (sc : Bool) (s : State) : Host.Outcome State Fault Refusal :=
  .next (runCore w { word := vecWord 0x20 17 f sc, vector := true } (vecOp f sc opAddsu) s)

/-- VSUBSU (R207): element by element, with a vector or a scalar second operand. -/
def execVsubsu (w : CoreRef) (f : FmtV) (sc : Bool) (s : State) : Host.Outcome State Fault Refusal :=
  .next (runCore w { word := vecWord 0x20 18 f sc, vector := true } (vecOp f sc opSubsu) s)

/-- VADDS (R207): element by element, with a vector or a scalar second operand. -/
def execVadds (w : CoreRef) (f : FmtV) (sc : Bool) (s : State) : Host.Outcome State Fault Refusal :=
  .next (runCore w { word := vecWord 0x20 19 f sc, vector := true } (vecOp f sc opAdds) s)

/-- VSUBS (R207): element by element, with a vector or a scalar second operand. -/
def execVsubs (w : CoreRef) (f : FmtV) (sc : Bool) (s : State) : Host.Outcome State Fault Refusal :=
  .next (runCore w { word := vecWord 0x20 20 f sc, vector := true } (vecOp f sc opSubs) s)

/-- VCMP.EQ (R207); vd[4:3] must be 0. -/
def execVcmpEq (w : CoreRef) (f : FmtV) (sc : Bool) (s : State) : Host.Outcome State Fault Refusal :=
  .next (runCore w { word := vecWord 0x21 0 f sc, vector := true, legal := maskField f.vd } (vecCmp f sc cmpEq) s)

/-- VCMP.NE (R207); vd[4:3] must be 0. -/
def execVcmpNe (w : CoreRef) (f : FmtV) (sc : Bool) (s : State) : Host.Outcome State Fault Refusal :=
  .next (runCore w { word := vecWord 0x21 1 f sc, vector := true, legal := maskField f.vd } (vecCmp f sc cmpNe) s)

/-- VCMP.LT (R207); vd[4:3] must be 0. -/
def execVcmpLt (w : CoreRef) (f : FmtV) (sc : Bool) (s : State) : Host.Outcome State Fault Refusal :=
  .next (runCore w { word := vecWord 0x21 2 f sc, vector := true, legal := maskField f.vd } (vecCmp f sc cmpLt) s)

/-- VCMP.LTU (R207); vd[4:3] must be 0. -/
def execVcmpLtu (w : CoreRef) (f : FmtV) (sc : Bool) (s : State) : Host.Outcome State Fault Refusal :=
  .next (runCore w { word := vecWord 0x21 3 f sc, vector := true, legal := maskField f.vd } (vecCmp f sc cmpLtu) s)

/-- VCMP.LE (R207); vd[4:3] must be 0. -/
def execVcmpLe (w : CoreRef) (f : FmtV) (sc : Bool) (s : State) : Host.Outcome State Fault Refusal :=
  .next (runCore w { word := vecWord 0x21 4 f sc, vector := true, legal := maskField f.vd } (vecCmp f sc cmpLe) s)

/-- VCMP.LEU (R207); vd[4:3] must be 0. -/
def execVcmpLeu (w : CoreRef) (f : FmtV) (sc : Bool) (s : State) : Host.Outcome State Fault Refusal :=
  .next (runCore w { word := vecWord 0x21 5 f sc, vector := true, legal := maskField f.vd } (vecCmp f sc cmpLeu) s)

/-- VCMP.GT (R207); vd[4:3] must be 0. -/
def execVcmpGt (w : CoreRef) (f : FmtV) (sc : Bool) (s : State) : Host.Outcome State Fault Refusal :=
  .next (runCore w { word := vecWord 0x21 6 f sc, vector := true, legal := maskField f.vd } (vecCmp f sc cmpGt) s)

/-- VCMP.GTU (R207); vd[4:3] must be 0. -/
def execVcmpGtu (w : CoreRef) (f : FmtV) (sc : Bool) (s : State) : Host.Outcome State Fault Refusal :=
  .next (runCore w { word := vecWord 0x21 7 f sc, vector := true, legal := maskField f.vd } (vecCmp f sc cmpGtu) s)

/-- VCMP.GE (R207); vd[4:3] must be 0. -/
def execVcmpGe (w : CoreRef) (f : FmtV) (sc : Bool) (s : State) : Host.Outcome State Fault Refusal :=
  .next (runCore w { word := vecWord 0x21 8 f sc, vector := true, legal := maskField f.vd } (vecCmp f sc cmpGe) s)

/-- VCMP.GEU (R207); vd[4:3] must be 0. -/
def execVcmpGeu (w : CoreRef) (f : FmtV) (sc : Bool) (s : State) : Host.Outcome State Fault Refusal :=
  .next (runCore w { word := vecWord 0x21 9 f sc, vector := true, legal := maskField f.vd } (vecCmp f sc cmpGeu) s)

/-- VCMP.TEST (R207); vd[4:3] must be 0. -/
def execVcmpTest (w : CoreRef) (f : FmtV) (sc : Bool) (s : State) : Host.Outcome State Fault Refusal :=
  .next (runCore w { word := vecWord 0x21 10 f sc, vector := true, legal := maskField f.vd } (vecCmp f sc cmpTest) s)

/-- MAND (R207); MSK must be 0. -/
def execMand (w : CoreRef) (f : FmtV) (s : State) : Host.Outcome State Fault Refusal :=
  .next (runCore w { word := wordV 0x22 0 f, vector := true, legal := f.msk == 0 && maskField f.vd && maskField f.va && maskField f.vb } (maskOp f (fun a b => a && b)) s)

/-- MOR (R207); MSK must be 0. -/
def execMor (w : CoreRef) (f : FmtV) (s : State) : Host.Outcome State Fault Refusal :=
  .next (runCore w { word := wordV 0x22 1 f, vector := true, legal := f.msk == 0 && maskField f.vd && maskField f.va && maskField f.vb } (maskOp f (fun a b => a || b)) s)

/-- MXOR (R207); MSK must be 0. -/
def execMxor (w : CoreRef) (f : FmtV) (s : State) : Host.Outcome State Fault Refusal :=
  .next (runCore w { word := wordV 0x22 2 f, vector := true, legal := f.msk == 0 && maskField f.vd && maskField f.va && maskField f.vb } (maskOp f (fun a b => a != b)) s)

/-- MANDN (R207); MSK must be 0. -/
def execMandn (w : CoreRef) (f : FmtV) (s : State) : Host.Outcome State Fault Refusal :=
  .next (runCore w { word := wordV 0x22 3 f, vector := true, legal := f.msk == 0 && maskField f.vd && maskField f.va && maskField f.vb } (maskOp f (fun a b => a && !b)) s)

/-- MNOT (R207); MSK and vb must be 0. -/
def execMnot (w : CoreRef) (f : FmtV) (s : State) : Host.Outcome State Fault Refusal :=
  .next (runCore w { word := wordV 0x22 4 f, vector := true, legal := f.msk == 0 && f.vb == 0 && maskField f.vd && maskField f.va } (maskOp f (fun a _ => !a)) s)

/-- MSET (R207); MSK, va and vb must be 0. -/
def execMset (w : CoreRef) (f : FmtV) (s : State) : Host.Outcome State Fault Refusal :=
  .next (runCore w { word := wordV 0x22 5 f, vector := true, legal := f.msk == 0 && f.va == 0 && f.vb == 0 && maskField f.vd } (maskOp f (fun _ _ => true)) s)

/-- MCLR (R207); MSK, va and vb must be 0. -/
def execMclr (w : CoreRef) (f : FmtV) (s : State) : Host.Outcome State Fault Refusal :=
  .next (runCore w { word := wordV 0x22 6 f, vector := true, legal := f.msk == 0 && f.va == 0 && f.vb == 0 && maskField f.vd } (maskOp f (fun _ _ => false)) s)

/-- MPOP (R207): the set bits of m[va] below L; the fields it does not use must be 0 (Assumption 8). -/
def execMpop (w : CoreRef) (f : FmtV) (s : State) : Host.Outcome State Fault Refusal :=
  .next (runCore w { word := wordV 0x22 7 f, vector := true, legal := f.msk == 0 && f.vb == 0 && maskField f.va } (maskCount f List.length) s)

/-- MFIRST (R207): the lowest set bit of m[va] below L, or all ones; the fields it does not use must be 0 (Assumption 8). -/
def execMfirst (w : CoreRef) (f : FmtV) (s : State) : Host.Outcome State Fault Refusal :=
  .next (runCore w { word := wordV 0x22 8 f, vector := true, legal := f.msk == 0 && f.vb == 0 && maskField f.va } (maskCount f (fun l => l.headD (2 ^ 64 - 1))) s)

/-- VSEL (R207); MSK must not be 0. -/
def execVsel (w : CoreRef) (f : FmtV) (s : State) : Host.Outcome State Fault Refusal :=
  .next (runCore w { word := wordV 0x22 9 f, vector := true, legal := f.msk != 0 } (vselBody f) s)

/-- VSETVL (R207); MSK and vb must be 0. -/
def execVsetvl (w : CoreRef) (f : FmtV) (s : State) : Host.Outcome State Fault Refusal :=
  .next (runCore w { word := wordV 0x23 0 f, vector := true, legal := f.msk == 0 && f.vb == 0 } (vsetvlBody f) s)

/-- VSPLAT (R207): vd[e] ← ga; vb must be 0. -/
def execVsplat (w : CoreRef) (f : FmtV) (s : State) : Host.Outcome State Fault Refusal :=
  .next (runCore w { word := wordV 0x23 1 f, vector := true, legal := f.vb == 0 } (vecMap f (fun y _ => y.gn f.va)) s)

/-- VEXT (R207); MSK must be 0. -/
def execVext (w : CoreRef) (f : FmtV) (s : State) : Host.Outcome State Fault Refusal :=
  .next (runCore w { word := wordV 0x23 2 f, vector := true, legal := f.msk == 0 } (vextBody f) s)

/-- VINS (R207); MSK must be 0. -/
def execVins (w : CoreRef) (f : FmtV) (s : State) : Host.Outcome State Fault Refusal :=
  .next (runCore w { word := wordV 0x23 3 f, vector := true, legal := f.msk == 0 } (vinsBody f) s)

/-- VMV (R207): vd[e] ← va[e]; vb must be 0. -/
def execVmv (w : CoreRef) (f : FmtV) (s : State) : Host.Outcome State Fault Refusal :=
  .next (runCore w { word := wordV 0x23 4 f, vector := true, legal := f.vb == 0 } (vecMap f (fun y e => y.vaElem f e)) s)

/-- VIOTA (R207): vd[e] ← e; va and vb must be 0. -/
def execViota (w : CoreRef) (f : FmtV) (s : State) : Host.Outcome State Fault Refusal :=
  .next (runCore w { word := wordV 0x23 5 f, vector := true, legal := f.va == 0 && f.vb == 0 } (vecMap f (fun _ e => e)) s)

/-- VSLIDEUP (R207). -/
def execVslideup (w : CoreRef) (f : FmtV) (s : State) : Host.Outcome State Fault Refusal :=
  .next (runCore w { word := wordV 0x23 6 f, vector := true, legal := true } (vslideupBody f) s)

/-- VSLIDEDN (R207): vd[e] ← va[e + gb], or 0 beyond the register. -/
def execVslidedn (w : CoreRef) (f : FmtV) (s : State) : Host.Outcome State Fault Refusal :=
  .next (runCore w { word := wordV 0x23 7 f, vector := true, legal := true }
    (vecMap f (fun y e => if e + y.gn f.vb < ewCount f.ew then y.vaElem f (e + y.gn f.vb) else 0)) s)

/-- VTBL (R208): N is 1, 2 or 4 registers, IW is 8 or 16 bits. -/
def execVtbl (w : CoreRef) (f : FmtV) (n : Fin 3) (iw16 : Bool) (s : State) : Host.Outcome State Fault Refusal :=
  .next (runCore w { word := wordV 0x24 (n.val + if iw16 then 4 else 0) f, vector := true, legal := regsFit f.va (2 ^ n.val) && regsFit f.vb (indexSpan f.ew (if iw16 then 16 else 8)) }
    (vtblBody f (2 ^ n.val) (if iw16 then 16 else 8)) s)

/-- VTBL2 (R209): T = VFN − 16 second-level registers. -/
def execVtbl2 (w : CoreRef) (f : FmtV) (t : Fin 3) (s : State) : Host.Outcome State Fault Refusal :=
  .next (runCore w { word := wordV 0x24 (17 + t.val) f, vector := true, legal := regsFit f.va (t.val + 2) }
    (vtbl2Body f (t.val + 1)) s)

/-- VLD (R207); vb must be 0. -/
def execVld (w : CoreRef) (f : FmtVL) (s : State) : Host.Outcome State Fault Refusal :=
  .next (runLoads w { word := wordV 0x25 0 f.toFmtV, vector := true, legal := f.vb == 0 } (fun x => accPairs (x.unitAccs f.toFmtV)) (vldBody f.toFmtV f.l1Parity (fun y => y.unitAccs f.toFmtV)) s)

/-- VST (R207); vb must be 0. -/
def execVst (w : CoreRef) (f : FmtV) (s : State) : Host.Outcome State Fault Refusal :=
  .next (runCore w { word := wordV 0x25 1 f, vector := true, legal := f.vb == 0 } (vstBody f (fun y => y.unitAccs f)) s)

/-- VLDS (R207). -/
def execVlds (w : CoreRef) (f : FmtVL) (s : State) : Host.Outcome State Fault Refusal :=
  .next (runLoads w { word := wordV 0x25 2 f.toFmtV, vector := true, legal := true } (fun x => accPairs (x.strideAccs f.toFmtV)) (vldBody f.toFmtV f.l1Parity (fun y => y.strideAccs f.toFmtV)) s)

/-- VSTS (R207). -/
def execVsts (w : CoreRef) (f : FmtV) (s : State) : Host.Outcome State Fault Refusal :=
  .next (runCore w { word := wordV 0x25 3 f, vector := true, legal := true } (vstBody f (fun y => y.strideAccs f)) s)

/-- VGATHER.W (R210). -/
def execVgatherW (w : CoreRef) (f : FmtVL) (s : State) : Host.Outcome State Fault Refusal :=
  .next (runCore w { word := wordV 0x25 4 f.toFmtV, vector := true, legal := regsFit f.vb (indexSpan f.ew 32) } (gatherBody f.toFmtV 32 f.l1Parity) s)

/-- VGATHER.D (R210). -/
def execVgatherD (w : CoreRef) (f : FmtVL) (s : State) : Host.Outcome State Fault Refusal :=
  .next (runCore w { word := wordV 0x25 12 f.toFmtV, vector := true, legal := regsFit f.vb (indexSpan f.ew 64) } (gatherBody f.toFmtV 64 f.l1Parity) s)

/-- VSCATTER.W (R210). -/
def execVscatterW (w : CoreRef) (f : FmtV) (s : State) : Host.Outcome State Fault Refusal :=
  .next (runCore w { word := wordV 0x25 5 f, vector := true, legal := regsFit f.vb (indexSpan f.ew 32) } (scatterBody f 32) s)

/-- VSCATTER.D (R210). -/
def execVscatterD (w : CoreRef) (f : FmtV) (s : State) : Host.Outcome State Fault Refusal :=
  .next (runCore w { word := wordV 0x25 13 f, vector := true, legal := regsFit f.vb (indexSpan f.ew 64) } (scatterBody f 64) s)

/-- VLDM (R207); the fields it ignores must be 0 (Assumption 8). -/
def execVldm (w : CoreRef) (f : FmtVL) (s : State) : Host.Outcome State Fault Refusal :=
  .next (runLoads w { word := wordV 0x25 6 f.toFmtV, vector := true, legal := f.vb == 0 && f.msk == 0 && f.ew == 0 && maskField f.vd } (fun x => accPairs (x.maskAcc f.toFmtV)) (vldmBody f.toFmtV f.l1Parity) s)

/-- VSTM (R207); the fields it ignores must be 0 (Assumption 8). -/
def execVstm (w : CoreRef) (f : FmtV) (s : State) : Host.Outcome State Fault Refusal :=
  .next (runCore w { word := wordV 0x25 7 f, vector := true, legal := f.vb == 0 && f.msk == 0 && f.ew == 0 && maskField f.vd } (vstmBody f) s)

/-- VCOMPRESS (R207); MSK must not be 0 and vb must be 0. -/
def execVcompress (w : CoreRef) (f : FmtV) (s : State) : Host.Outcome State Fault Refusal :=
  .next (runCore w { word := wordV 0x26 0 f, vector := true, legal := f.msk != 0 && f.vb == 0 } (vcompressBody f) s)

/-- VEXPAND (R207); MSK must not be 0 and vb must be 0. -/
def execVexpand (w : CoreRef) (f : FmtV) (s : State) : Host.Outcome State Fault Refusal :=
  .next (runCore w { word := wordV 0x26 1 f, vector := true, legal := f.msk != 0 && f.vb == 0 } (vexpandBody f) s)

/-- VREDADD (R211). -/
def execVredadd (w : CoreRef) (f : FmtV) (s : State) : Host.Outcome State Fault Refusal :=
  .next (runCore w { word := wordV 0x27 0 f, vector := true, legal := true } (redBody f true opAdd) s)

/-- VREDADDS (R211). -/
def execVredadds (w : CoreRef) (f : FmtV) (s : State) : Host.Outcome State Fault Refusal :=
  .next (runCore w { word := wordV 0x27 1 f, vector := true, legal := true } (redBody f true opAdds) s)

/-- VREDADDSU (R211). -/
def execVredaddsu (w : CoreRef) (f : FmtV) (s : State) : Host.Outcome State Fault Refusal :=
  .next (runCore w { word := wordV 0x27 2 f, vector := true, legal := true } (redBody f false opAddsu) s)

/-- VREDMIN (R211). -/
def execVredmin (w : CoreRef) (f : FmtV) (s : State) : Host.Outcome State Fault Refusal :=
  .next (runCore w { word := wordV 0x27 3 f, vector := true, legal := true } (redBody f true opMin) s)

/-- VREDMINU (R211). -/
def execVredminu (w : CoreRef) (f : FmtV) (s : State) : Host.Outcome State Fault Refusal :=
  .next (runCore w { word := wordV 0x27 4 f, vector := true, legal := true } (redBody f false opMinu) s)

/-- VREDMAX (R211). -/
def execVredmax (w : CoreRef) (f : FmtV) (s : State) : Host.Outcome State Fault Refusal :=
  .next (runCore w { word := wordV 0x27 5 f, vector := true, legal := true } (redBody f true opMax) s)

/-- VREDMAXU (R211). -/
def execVredmaxu (w : CoreRef) (f : FmtV) (s : State) : Host.Outcome State Fault Refusal :=
  .next (runCore w { word := wordV 0x27 6 f, vector := true, legal := true } (redBody f false opMaxu) s)

/-- VREDAND (R211). -/
def execVredand (w : CoreRef) (f : FmtV) (s : State) : Host.Outcome State Fault Refusal :=
  .next (runCore w { word := wordV 0x27 7 f, vector := true, legal := true } (redBody f false opAnd) s)

/-- VREDOR (R211). -/
def execVredor (w : CoreRef) (f : FmtV) (s : State) : Host.Outcome State Fault Refusal :=
  .next (runCore w { word := wordV 0x27 8 f, vector := true, legal := true } (redBody f false opOr) s)

/-- VREDXOR (R211). -/
def execVredxor (w : CoreRef) (f : FmtV) (s : State) : Host.Outcome State Fault Refusal :=
  .next (runCore w { word := wordV 0x27 9 f, vector := true, legal := true } (redBody f false opXor) s)

end Sys2Proof.Machine
end

