-- ==== Sys2Proof/Machine/Dispatch.lean ====
section
/-!
DEFINITION. The dispatch: one arm for each command, each one direct call of that command's meaning.
-/
namespace Sys2Proof.Machine
open Sys2Proof

/-- The effect of a command on everything but the queue. -/
def exec (i : Instr) (s : State) : Host.Outcome State Fault Refusal :=
  match i with
  | .perstDeassert => Sys2Proof.Machine.execPerstDeassert s
  | .perstAssert => Sys2Proof.Machine.execPerstAssert s
  | .bootComplete r => Sys2Proof.Machine.execBootComplete r s
  | .supplyLoss => Sys2Proof.Machine.execSupplyLoss s
  | .thermalTrip => Sys2Proof.Machine.execThermalTrip s
  | .sensorWarning x => Sys2Proof.Machine.execSensorWarning x s
  | .sensorCurtainLimit x => Sys2Proof.Machine.execSensorCurtainLimit x s
  | .watchdogExpiry => Sys2Proof.Machine.execWatchdogExpiry s
  | .hotReset => Sys2Proof.Machine.execHotReset s
  | .flr => Sys2Proof.Machine.execFlr s
  | .moduleReset key => Sys2Proof.Machine.execModuleReset key s
  | .pbookVerifyDone => Sys2Proof.Machine.execPbookVerifyDone s
  | .d3hotEntry => Sys2Proof.Machine.execD3hotEntry s
  | .d0Return => Sys2Proof.Machine.execD0Return s
  | .standbyRequest => Sys2Proof.Machine.execStandbyRequest s
  | .standbyEntryDone => Sys2Proof.Machine.execStandbyEntryDone s
  | .standbyExitRequest => Sys2Proof.Machine.execStandbyExitRequest s
  | .standbyExitDone => Sys2Proof.Machine.execStandbyExitDone s
  | .sqDoorbell q => Sys2Proof.Machine.execSqDoorbell q s
  | .cqDoorbell q cons => Sys2Proof.Machine.execCqDoorbell q cons s
  | .entryArrival q => Sys2Proof.Machine.execEntryArrival q s
  | .hepFreeze linkDown aer => Sys2Proof.Machine.execHepFreeze linkDown aer s
  | .containRelease => Sys2Proof.Machine.execContainRelease s
  | .containTimeout us => Sys2Proof.Machine.execContainTimeout us s
  | .bar0BadSizeAccess off write => Sys2Proof.Machine.execBar0BadSizeAccess off write s
  | .inwinWrite off data => Sys2Proof.Machine.execInwinWrite off data s
  | .inwinRead off len => Sys2Proof.Machine.execInwinRead off len s
  | .aqEnable log2Depth => Sys2Proof.Machine.execAqEnable log2Depth s
  | .journalExportPart => Sys2Proof.Machine.execJournalExportPart s
  | .createCq e => Sys2Proof.Machine.execCreateCq e s
  | .createSq e => Sys2Proof.Machine.execCreateSq e s
  | .deleteSq e => Sys2Proof.Machine.execDeleteSq e s
  | .deleteCq e => Sys2Proof.Machine.execDeleteCq e s
  | .createJournalQ e => Sys2Proof.Machine.execCreateJournalQ e s
  | .getFeature e => Sys2Proof.Machine.execGetFeature e s
  | .setFeature e => Sys2Proof.Machine.execSetFeature e s
  | .loadPipeline e => Sys2Proof.Machine.execLoadPipeline e s
  | .loadPipelineReplace e => Sys2Proof.Machine.execLoadPipelineReplace e s
  | .unloadPipeline e => Sys2Proof.Machine.execUnloadPipeline e s
  | .attachTable e => Sys2Proof.Machine.execAttachTable e s
  | .attachTableReattach e => Sys2Proof.Machine.execAttachTableReattach e s
  | .detachTable e => Sys2Proof.Machine.execDetachTable e s
  | .tableLoad e => Sys2Proof.Machine.execTableLoad e s
  | .snapshotExport e => Sys2Proof.Machine.execSnapshotExport e s
  | .camLoad e => Sys2Proof.Machine.execCamLoad e s
  | .camFullWriteDone a => Sys2Proof.Machine.execCamFullWriteDone a s
  | .startCues e => Sys2Proof.Machine.execStartCues e s
  | .holdCues e => Sys2Proof.Machine.execHoldCues e s
  | .rehearse e runs => Sys2Proof.Machine.execRehearse e runs s
  | .rehearseResume e runs => Sys2Proof.Machine.execRehearseResume e runs s
  | .rehearsePrepare e => Sys2Proof.Machine.execRehearsePrepare e s
  | .keyImport e => Sys2Proof.Machine.execKeyImport e s
  | .attest e => Sys2Proof.Machine.execAttest e s
  | .fwDownload e => Sys2Proof.Machine.execFwDownload e s
  | .fwActivate e => Sys2Proof.Machine.execFwActivate e s
  | .fwActivateCommitSvn e => Sys2Proof.Machine.execFwActivateCommitSvn e s
  | .txn q e => Sys2Proof.Machine.execTxn q e s
  | .query q e => Sys2Proof.Machine.execQuery q e s
  | .queryCancel q e => Sys2Proof.Machine.execQueryCancel q e s
  | .svcSign q e => Sys2Proof.Machine.execSvcSign q e s
  | .svcVerify q e => Sys2Proof.Machine.execSvcVerify q e s
  | .svcDigest q e => Sys2Proof.Machine.execSvcDigest q e s
  | .startInstant x => Sys2Proof.Machine.execStartInstant x s
  | .heldInstant x => Sys2Proof.Machine.execHeldInstant x s
  | .commitPoint => Sys2Proof.Machine.execCommitPoint s
  | .commitSweep beats => Sys2Proof.Machine.execCommitSweep beats s
  | .stretchBound => Sys2Proof.Machine.execStretchBound s
  | .actSealSigned u => Sys2Proof.Machine.execActSealSigned u s
  | .strikePassStart => Sys2Proof.Machine.execStrikePassStart s
  | .strikePassDone beats => Sys2Proof.Machine.execStrikePassDone beats s
  | .analyticJobStart cols => Sys2Proof.Machine.execAnalyticJobStart cols s
  | .analyticJobEnd id res => Sys2Proof.Machine.execAnalyticJobEnd id res s
  | .add w f => Sys2Proof.Machine.execAdd w f s
  | .sub w f => Sys2Proof.Machine.execSub w f s
  | .and w f => Sys2Proof.Machine.execAnd w f s
  | .or w f => Sys2Proof.Machine.execOr w f s
  | .xor w f => Sys2Proof.Machine.execXor w f s
  | .andn w f => Sys2Proof.Machine.execAndn w f s
  | .sll w f => Sys2Proof.Machine.execSll w f s
  | .srl w f => Sys2Proof.Machine.execSrl w f s
  | .sra w f => Sys2Proof.Machine.execSra w f s
  | .rotl w f => Sys2Proof.Machine.execRotl w f s
  | .slt w f => Sys2Proof.Machine.execSlt w f s
  | .sltu w f => Sys2Proof.Machine.execSltu w f s
  | .min w f => Sys2Proof.Machine.execMin w f s
  | .minu w f => Sys2Proof.Machine.execMinu w f s
  | .max w f => Sys2Proof.Machine.execMax w f s
  | .maxu w f => Sys2Proof.Machine.execMaxu w f s
  | .clz w f => Sys2Proof.Machine.execClz w f s
  | .ctz w f => Sys2Proof.Machine.execCtz w f s
  | .popc w f => Sys2Proof.Machine.execPopc w f s
  | .bswap w f => Sys2Proof.Machine.execBswap w f s
  | .crc32cB w f => Sys2Proof.Machine.execCrc32cB w f s
  | .crc32cH w f => Sys2Proof.Machine.execCrc32cH w f s
  | .crc32cW w f => Sys2Proof.Machine.execCrc32cW w f s
  | .crc32cD w f => Sys2Proof.Machine.execCrc32cD w f s
  | .mul w f => Sys2Proof.Machine.execMul w f s
  | .mulh w f => Sys2Proof.Machine.execMulh w f s
  | .mulhu w f => Sys2Proof.Machine.execMulhu w f s
  | .div w f => Sys2Proof.Machine.execDiv w f s
  | .divu w f => Sys2Proof.Machine.execDivu w f s
  | .rem w f => Sys2Proof.Machine.execRem w f s
  | .remu w f => Sys2Proof.Machine.execRemu w f s
  | .jalr w f => Sys2Proof.Machine.execJalr w f s
  | .addi w f => Sys2Proof.Machine.execAddi w f s
  | .andi w f => Sys2Proof.Machine.execAndi w f s
  | .ori w f => Sys2Proof.Machine.execOri w f s
  | .xori w f => Sys2Proof.Machine.execXori w f s
  | .slti w f => Sys2Proof.Machine.execSlti w f s
  | .sltiu w f => Sys2Proof.Machine.execSltiu w f s
  | .sllImm w f => Sys2Proof.Machine.execSllImm w f s
  | .srlImm w f => Sys2Proof.Machine.execSrlImm w f s
  | .sraImm w f => Sys2Proof.Machine.execSraImm w f s
  | .rotlImm w f => Sys2Proof.Machine.execRotlImm w f s
  | .movz w f => Sys2Proof.Machine.execMovz w f s
  | .movk w f => Sys2Proof.Machine.execMovk w f s
  | .ldb w f l1Parity => Sys2Proof.Machine.execLdb w f l1Parity s
  | .ldbu w f l1Parity => Sys2Proof.Machine.execLdbu w f l1Parity s
  | .ldh w f l1Parity => Sys2Proof.Machine.execLdh w f l1Parity s
  | .ldhu w f l1Parity => Sys2Proof.Machine.execLdhu w f l1Parity s
  | .ldw w f l1Parity => Sys2Proof.Machine.execLdw w f l1Parity s
  | .ldwu w f l1Parity => Sys2Proof.Machine.execLdwu w f l1Parity s
  | .ldd w f l1Parity => Sys2Proof.Machine.execLdd w f l1Parity s
  | .ldres w f l1Parity => Sys2Proof.Machine.execLdres w f l1Parity s
  | .stb w f => Sys2Proof.Machine.execStb w f s
  | .sth w f => Sys2Proof.Machine.execSth w f s
  | .stw w f => Sys2Proof.Machine.execStw w f s
  | .std w f => Sys2Proof.Machine.execStd w f s
  | .stcond w f => Sys2Proof.Machine.execStcond w f s
  | .pfL1 w f => Sys2Proof.Machine.execPfL1 w f s
  | .pfL2 w f => Sys2Proof.Machine.execPfL2 w f s
  | .clean w f => Sys2Proof.Machine.execClean w f s
  | .inval w f => Sys2Proof.Machine.execInval w f s
  | .cleanInval w f => Sys2Proof.Machine.execCleanInval w f s
  | .beq w f => Sys2Proof.Machine.execBeq w f s
  | .bne w f => Sys2Proof.Machine.execBne w f s
  | .blt w f => Sys2Proof.Machine.execBlt w f s
  | .bge w f => Sys2Proof.Machine.execBge w f s
  | .bltu w f => Sys2Proof.Machine.execBltu w f s
  | .bgeu w f => Sys2Proof.Machine.execBgeu w f s
  | .jal w f => Sys2Proof.Machine.execJal w f s
  | .mfs w f => Sys2Proof.Machine.execMfs w f s
  | .mts w f => Sys2Proof.Machine.execMts w f s
  | .take w f => Sys2Proof.Machine.execTake w f s
  | .done w f out => Sys2Proof.Machine.execDone w f out s
  | .barS w f => Sys2Proof.Machine.execBarS w f s
  | .barA w f => Sys2Proof.Machine.execBarA w f s
  | .barIo w f => Sys2Proof.Machine.execBarIo w f s
  | .ret w f => Sys2Proof.Machine.execRet w f s
  | .trap w f => Sys2Proof.Machine.execTrap w f s
  | .vadd w f sc => Sys2Proof.Machine.execVadd w f sc s
  | .vsub w f sc => Sys2Proof.Machine.execVsub w f sc s
  | .vmul w f sc => Sys2Proof.Machine.execVmul w f sc s
  | .vmulh w f sc => Sys2Proof.Machine.execVmulh w f sc s
  | .vmulhu w f sc => Sys2Proof.Machine.execVmulhu w f sc s
  | .vmin w f sc => Sys2Proof.Machine.execVmin w f sc s
  | .vminu w f sc => Sys2Proof.Machine.execVminu w f sc s
  | .vmax w f sc => Sys2Proof.Machine.execVmax w f sc s
  | .vmaxu w f sc => Sys2Proof.Machine.execVmaxu w f sc s
  | .vand w f sc => Sys2Proof.Machine.execVand w f sc s
  | .vor w f sc => Sys2Proof.Machine.execVor w f sc s
  | .vxor w f sc => Sys2Proof.Machine.execVxor w f sc s
  | .vandn w f sc => Sys2Proof.Machine.execVandn w f sc s
  | .vsll w f sc => Sys2Proof.Machine.execVsll w f sc s
  | .vsrl w f sc => Sys2Proof.Machine.execVsrl w f sc s
  | .vsra w f sc => Sys2Proof.Machine.execVsra w f sc s
  | .vrotl w f sc => Sys2Proof.Machine.execVrotl w f sc s
  | .vaddsu w f sc => Sys2Proof.Machine.execVaddsu w f sc s
  | .vsubsu w f sc => Sys2Proof.Machine.execVsubsu w f sc s
  | .vadds w f sc => Sys2Proof.Machine.execVadds w f sc s
  | .vsubs w f sc => Sys2Proof.Machine.execVsubs w f sc s
  | .vcmpEq w f sc => Sys2Proof.Machine.execVcmpEq w f sc s
  | .vcmpNe w f sc => Sys2Proof.Machine.execVcmpNe w f sc s
  | .vcmpLt w f sc => Sys2Proof.Machine.execVcmpLt w f sc s
  | .vcmpLtu w f sc => Sys2Proof.Machine.execVcmpLtu w f sc s
  | .vcmpLe w f sc => Sys2Proof.Machine.execVcmpLe w f sc s
  | .vcmpLeu w f sc => Sys2Proof.Machine.execVcmpLeu w f sc s
  | .vcmpGt w f sc => Sys2Proof.Machine.execVcmpGt w f sc s
  | .vcmpGtu w f sc => Sys2Proof.Machine.execVcmpGtu w f sc s
  | .vcmpGe w f sc => Sys2Proof.Machine.execVcmpGe w f sc s
  | .vcmpGeu w f sc => Sys2Proof.Machine.execVcmpGeu w f sc s
  | .vcmpTest w f sc => Sys2Proof.Machine.execVcmpTest w f sc s
  | .mand w f => Sys2Proof.Machine.execMand w f s
  | .mor w f => Sys2Proof.Machine.execMor w f s
  | .mxor w f => Sys2Proof.Machine.execMxor w f s
  | .mandn w f => Sys2Proof.Machine.execMandn w f s
  | .mnot w f => Sys2Proof.Machine.execMnot w f s
  | .mset w f => Sys2Proof.Machine.execMset w f s
  | .mclr w f => Sys2Proof.Machine.execMclr w f s
  | .mpop w f => Sys2Proof.Machine.execMpop w f s
  | .mfirst w f => Sys2Proof.Machine.execMfirst w f s
  | .vsel w f => Sys2Proof.Machine.execVsel w f s
  | .vsetvl w f => Sys2Proof.Machine.execVsetvl w f s
  | .vsplat w f => Sys2Proof.Machine.execVsplat w f s
  | .vext w f => Sys2Proof.Machine.execVext w f s
  | .vins w f => Sys2Proof.Machine.execVins w f s
  | .vmv w f => Sys2Proof.Machine.execVmv w f s
  | .viota w f => Sys2Proof.Machine.execViota w f s
  | .vslideup w f => Sys2Proof.Machine.execVslideup w f s
  | .vslidedn w f => Sys2Proof.Machine.execVslidedn w f s
  | .vtbl w f n iw16 => Sys2Proof.Machine.execVtbl w f n iw16 s
  | .vtbl2 w f t => Sys2Proof.Machine.execVtbl2 w f t s
  | .vld w f => Sys2Proof.Machine.execVld w f s
  | .vst w f => Sys2Proof.Machine.execVst w f s
  | .vlds w f => Sys2Proof.Machine.execVlds w f s
  | .vsts w f => Sys2Proof.Machine.execVsts w f s
  | .vgatherW w f => Sys2Proof.Machine.execVgatherW w f s
  | .vgatherD w f => Sys2Proof.Machine.execVgatherD w f s
  | .vscatterW w f => Sys2Proof.Machine.execVscatterW w f s
  | .vscatterD w f => Sys2Proof.Machine.execVscatterD w f s
  | .vldm w f => Sys2Proof.Machine.execVldm w f s
  | .vstm w f => Sys2Proof.Machine.execVstm w f s
  | .vcompress w f => Sys2Proof.Machine.execVcompress w f s
  | .vexpand w f => Sys2Proof.Machine.execVexpand w f s
  | .vredadd w f => Sys2Proof.Machine.execVredadd w f s
  | .vredadds w f => Sys2Proof.Machine.execVredadds w f s
  | .vredaddsu w f => Sys2Proof.Machine.execVredaddsu w f s
  | .vredmin w f => Sys2Proof.Machine.execVredmin w f s
  | .vredminu w f => Sys2Proof.Machine.execVredminu w f s
  | .vredmax w f => Sys2Proof.Machine.execVredmax w f s
  | .vredmaxu w f => Sys2Proof.Machine.execVredmaxu w f s
  | .vredand w f => Sys2Proof.Machine.execVredand w f s
  | .vredor w f => Sys2Proof.Machine.execVredor w f s
  | .vredxor w f => Sys2Proof.Machine.execVredxor w f s
  | .interruptAccept c source cores => Sys2Proof.Machine.execInterruptAccept c source cores s
  | .storeAccepted w => Sys2Proof.Machine.execStoreAccepted w s
  | .remoteStoreLost w => Sys2Proof.Machine.execRemoteStoreLost w s
  | .cluSoftReset c => Sys2Proof.Machine.execCluSoftReset c s
  | .cluCoreReset c cores => Sys2Proof.Machine.execCluCoreReset c cores s
  | .coreSoftReset w => Sys2Proof.Machine.execCoreSoftReset w s
  | .cluEnable c en => Sys2Proof.Machine.execCluEnable c en s
  | .cluModeWrite c mode => Sys2Proof.Machine.execCluModeWrite c mode s
  | .dispPost c addr => Sys2Proof.Machine.execDispPost c addr s
  | .dispSignal c bits task => Sys2Proof.Machine.execDispSignal c bits task s
  | .dispDelay c bits hi => Sys2Proof.Machine.execDispDelay c bits hi s
  | .delayExpiry c cueList => Sys2Proof.Machine.execDelayExpiry c cueList s
  | .taskEnable c t ctl => Sys2Proof.Machine.execTaskEnable c t ctl s
  | .taskMaskWrite c t bits => Sys2Proof.Machine.execTaskMaskWrite c t bits s
  | .taskFlagsClear c t bits => Sys2Proof.Machine.execTaskFlagsClear c t bits s
  | .dispatchDeliver c => Sys2Proof.Machine.execDispatchDeliver c s
  | .cicSourceEvent c source => Sys2Proof.Machine.execCicSourceEvent c source s
  | .swiRaise c bits => Sys2Proof.Machine.execSwiRaise c bits s
  | .moderationExpiry c source => Sys2Proof.Machine.execModerationExpiry c source s
  | .cicSoftReset c => Sys2Proof.Machine.execCicSoftReset c s
  | .sidebandEdge port present level cycles => Sys2Proof.Machine.execSidebandEdge port present level cycles s
  | .irtrSoftReset => Sys2Proof.Machine.execIrtrSoftReset s
  | .scanSubmit m wr addr => Sys2Proof.Machine.execScanSubmit m wr addr s
  | .scanJobStart m => Sys2Proof.Machine.execScanJobStart m s
  | .scanJobDone m => Sys2Proof.Machine.execScanJobDone m s
  | .scanAbort m pages => Sys2Proof.Machine.execScanAbort m pages s
  | .scanSoftReset m pages => Sys2Proof.Machine.execScanSoftReset m pages s
  | .probeSubmitFg l wr addr => Sys2Proof.Machine.execProbeSubmitFg l wr addr s
  | .probeSubmitBg l wr addr => Sys2Proof.Machine.execProbeSubmitBg l wr addr s
  | .probeJobStart l => Sys2Proof.Machine.execProbeJobStart l s
  | .probeJobDone l => Sys2Proof.Machine.execProbeJobDone l s
  | .probeAbort l keys => Sys2Proof.Machine.execProbeAbort l keys s
  | .probeSoftReset l keys => Sys2Proof.Machine.execProbeSoftReset l keys s
  | .fcodecSubmit c wr addr => Sys2Proof.Machine.execFcodecSubmit c wr addr s
  | .fcodecWalk c => Sys2Proof.Machine.execFcodecWalk c s
  | .fcodecParse c => Sys2Proof.Machine.execFcodecParse c s
  | .fcodecBuild c => Sys2Proof.Machine.execFcodecBuild c s
  | .fcodecJobDone c => Sys2Proof.Machine.execFcodecJobDone c s
  | .fcodecAbort c => Sys2Proof.Machine.execFcodecAbort c s
  | .fcodecSoftReset c => Sys2Proof.Machine.execFcodecSoftReset c s
  | .camSubmit a wr addr => Sys2Proof.Machine.execCamSubmit a wr addr s
  | .camSearch a => Sys2Proof.Machine.execCamSearch a s
  | .camJobDone a => Sys2Proof.Machine.execCamJobDone a s
  | .camDiagSearch a window => Sys2Proof.Machine.execCamDiagSearch a window s
  | .camAbort a => Sys2Proof.Machine.execCamAbort a s
  | .camSoftReset a => Sys2Proof.Machine.execCamSoftReset a s
  | .cascadeSearchLost issuer num => Sys2Proof.Machine.execCascadeSearchLost issuer num s
  | .digSubmit u wr addr => Sys2Proof.Machine.execDigSubmit u wr addr s
  | .digestOneshot u slot => Sys2Proof.Machine.execDigestOneshot u slot s
  | .digestStart u slot => Sys2Proof.Machine.execDigestStart u slot s
  | .digestContinue u slot => Sys2Proof.Machine.execDigestContinue u slot s
  | .digestFinish u slot => Sys2Proof.Machine.execDigestFinish u slot s
  | .digJobDone u slot => Sys2Proof.Machine.execDigJobDone u slot s
  | .digResultRead u n => Sys2Proof.Machine.execDigResultRead u n s
  | .digAbort u => Sys2Proof.Machine.execDigAbort u s
  | .digSoftReset u => Sys2Proof.Machine.execDigSoftReset u s
  | .lsuSubmit u wr addr => Sys2Proof.Machine.execLsuSubmit u wr addr s
  | .larkspurSign u => Sys2Proof.Machine.execLarkspurSign u s
  | .larkspurVerify u => Sys2Proof.Machine.execLarkspurVerify u s
  | .lsuJobDone u verify => Sys2Proof.Machine.execLsuJobDone u verify s
  | .lsuSoftReset u => Sys2Proof.Machine.execLsuSoftReset u s
  | .dmaKick e n => Sys2Proof.Machine.execDmaKick e n s
  | .dmaChEnable e n ctl => Sys2Proof.Machine.execDmaChEnable e n ctl s
  | .dmaChDisable e n ctl => Sys2Proof.Machine.execDmaChDisable e n ctl s
  | .dmaBaseWrite e n val => Sys2Proof.Machine.execDmaBaseWrite e n val s
  | .dmaCopy e rem => Sys2Proof.Machine.execDmaCopy e rem s
  | .dmaIndexedCopy e rem => Sys2Proof.Machine.execDmaIndexedCopy e rem s
  | .dmaWriteBack e => Sys2Proof.Machine.execDmaWriteBack e s
  | .dmaSoftReset e => Sys2Proof.Machine.execDmaSoftReset e s
  | .cmpSubmit k wr addr => Sys2Proof.Machine.execCmpSubmit k wr addr s
  | .cmpSubmitSm k wr addr => Sys2Proof.Machine.execCmpSubmitSm k wr addr s
  | .cmpCompress k taken rem => Sys2Proof.Machine.execCmpCompress k taken rem s
  | .cmpDecompress k rem => Sys2Proof.Machine.execCmpDecompress k rem s
  | .cmpJobDone k => Sys2Proof.Machine.execCmpJobDone k s
  | .cmpFlush k wing => Sys2Proof.Machine.execCmpFlush k wing s
  | .cmpAbort k => Sys2Proof.Machine.execCmpAbort k s
  | .cmpSoftReset k => Sys2Proof.Machine.execCmpSoftReset k s
  | .greenWaysWrite c val => Sys2Proof.Machine.execGreenWaysWrite c val s
  | .convertDone c => Sys2Proof.Machine.execConvertDone c s
  | .l2MaintClean c scope way set => Sys2Proof.Machine.execL2MaintClean c scope way set s
  | .l2MaintInval c scope way set => Sys2Proof.Machine.execL2MaintInval c scope way set s
  | .l2MaintCleanInval c scope way set => Sys2Proof.Machine.execL2MaintCleanInval c scope way set s
  | .maintDone c => Sys2Proof.Machine.execMaintDone c s
  | .l2Preload c way lines => Sys2Proof.Machine.execL2Preload c way lines s
  | .preloadDone c => Sys2Proof.Machine.execPreloadDone c s
  | .lockWaysWrite c val => Sys2Proof.Machine.execLockWaysWrite c val s
  | .lfsrSeedWrite c val => Sys2Proof.Machine.execLfsrSeedWrite c val s
  | .l2Disable c => Sys2Proof.Machine.execL2Disable c s
  | .bypass c => Sys2Proof.Machine.execBypass c s
  | .l2Enable c => Sys2Proof.Machine.execL2Enable c s
  | .l2SoftReset c => Sys2Proof.Machine.execL2SoftReset c s
  | .l2EccUe c site => Sys2Proof.Machine.execL2EccUe c site s
  | .memcEnable m => Sys2Proof.Machine.execMemcEnable m s
  | .memcDisable m => Sys2Proof.Machine.execMemcDisable m s
  | .memcTrainMode m => Sys2Proof.Machine.execMemcTrainMode m s
  | .memcServiceMode m => Sys2Proof.Machine.execMemcServiceMode m s
  | .memcSoftReset m => Sys2Proof.Machine.execMemcSoftReset m s
  | .memcFreeze m f => Sys2Proof.Machine.execMemcFreeze m f s
  | .memcCorrectableError m addr => Sys2Proof.Machine.execMemcCorrectableError m addr s
  | .patrolScrub m => Sys2Proof.Machine.execPatrolScrub m s
  | .refresh m => Sys2Proof.Machine.execRefresh m s
  | .dramHot m degC => Sys2Proof.Machine.execDramHot m degC s
  | .selfRefreshDone m => Sys2Proof.Machine.execSelfRefreshDone m s
  | .trainWritePattern m rank => Sys2Proof.Machine.execTrainWritePattern m rank s
  | .trainReadCompare m rank => Sys2Proof.Machine.execTrainReadCompare m rank s
  | .trainWriteReadCompare m rank => Sys2Proof.Machine.execTrainWriteReadCompare m rank s
  | .trainCaCheck m rank => Sys2Proof.Machine.execTrainCaCheck m rank s
  | .trainLevelCheck m rank => Sys2Proof.Machine.execTrainLevelCheck m rank s
  | .trainDramPattern m rank => Sys2Proof.Machine.execTrainDramPattern m rank s
  | .trainDone m laneErr => Sys2Proof.Machine.execTrainDone m laneErr s
  | .wingEnable p mode => Sys2Proof.Machine.execWingEnable p mode s
  | .receiverDetect p => Sys2Proof.Machine.execReceiverDetect p s
  | .equalizeDone p => Sys2Proof.Machine.execEqualizeDone p s
  | .alignDone p delayNs => Sys2Proof.Machine.execAlignDone p delayNs s
  | .linkTrainTimeout p => Sys2Proof.Machine.execLinkTrainTimeout p s
  | .linkRetrain p => Sys2Proof.Machine.execLinkRetrain p s
  | .retrainTimeout p => Sys2Proof.Machine.execRetrainTimeout p s
  | .presentNHigh p => Sys2Proof.Machine.execPresentNHigh p s
  | .wingSoftReset p => Sys2Proof.Machine.execWingSoftReset p s
  | .hello p h payload => Sys2Proof.Machine.execHello p h payload s
  | .auth p h payload => Sys2Proof.Machine.execAuth p h payload s
  | .bye p h reason => Sys2Proof.Machine.execBye p h reason s
  | .heartbeat p h cue flags => Sys2Proof.Machine.execHeartbeat p h cue flags s
  | .heartbeatSend stretching => Sys2Proof.Machine.execHeartbeatSend stretching s
  | .nak p h fseq => Sys2Proof.Machine.execNak p h fseq s
  | .credit p h => Sys2Proof.Machine.execCredit p h s
  | .replayTimeout p => Sys2Proof.Machine.execReplayTimeout p s
  | .yield p h cue cause => Sys2Proof.Machine.execYield p h cue cause s
  | .role p h role rank cue => Sys2Proof.Machine.execRole p h role rank cue s
  | .arrival p h payload => Sys2Proof.Machine.execArrival p h payload s
  | .seal p h payload => Sys2Proof.Machine.execSeal p h payload s
  | .digest p h cue flags inp out delta => Sys2Proof.Machine.execDigest p h cue flags inp out delta s
  | .changeOk p h id result => Sys2Proof.Machine.execChangeOk p h id result s
  | .pin p h job op cue => Sys2Proof.Machine.execPin p h job op cue s
  | .readReq p h tag len addr => Sys2Proof.Machine.execReadReq p h tag len addr s
  | .writeReq p h tag addr en data => Sys2Proof.Machine.execWriteReq p h tag addr en data s
  | .readRsp p h tag status data => Sys2Proof.Machine.execReadRsp p h tag status data s
  | .writeAck p h tag status => Sys2Proof.Machine.execWriteAck p h tag status s
  | .change p h id opcode off total data => Sys2Proof.Machine.execChange p h id opcode off total data s
  | .catchup p h x => Sys2Proof.Machine.execCatchup p h x s
  | .delta p h payload => Sys2Proof.Machine.execDelta p h payload s
  | .ready p h cue => Sys2Proof.Machine.execReady p h cue s
  | .lock p h cue => Sys2Proof.Machine.execLock p h cue s
  | .searchKey p h num issuer key mask => Sys2Proof.Machine.execSearchKey p h num issuer key mask s
  | .searchResult p h num issuer index count data => Sys2Proof.Machine.execSearchResult p h num issuer index count data s
  | .searchResolved p h num issuer res => Sys2Proof.Machine.execSearchResolved p h num issuer res s
  | .matchReport p report => Sys2Proof.Machine.execMatchReport p report s
  | .cueSyncEdge beatsSince => Sys2Proof.Machine.execCueSyncEdge beatsSince s
  | .leadLost => Sys2Proof.Machine.execLeadLost s
  | .setStateEffecter page run => Sys2Proof.Machine.execSetStateEffecter page run s
  | .stateSkew page reported => Sys2Proof.Machine.execStateSkew page reported s
  | .keyComponent idx count epoch val => Sys2Proof.Machine.execKeyComponent idx count epoch val s
  | .requestUpdate => Sys2Proof.Machine.execRequestUpdate s
  | .passComponentTable => Sys2Proof.Machine.execPassComponentTable s
  | .updateComponent size => Sys2Proof.Machine.execUpdateComponent size s
  | .requestFirmwareData off data => Sys2Proof.Machine.execRequestFirmwareData off data s
  | .transferComplete => Sys2Proof.Machine.execTransferComplete s
  | .verifyComplete => Sys2Proof.Machine.execVerifyComplete s
  | .applyComplete => Sys2Proof.Machine.execApplyComplete s
  | .activateFirmware => Sys2Proof.Machine.execActivateFirmware s
  | .getVersion req => Sys2Proof.Machine.execGetVersion req s
  | .getCapabilities req => Sys2Proof.Machine.execGetCapabilities req s
  | .negotiateAlgorithms req offers => Sys2Proof.Machine.execNegotiateAlgorithms req offers s
  | .getMeasurements req => Sys2Proof.Machine.execGetMeasurements req s
  | .challenge req => Sys2Proof.Machine.execChallenge req s
  | .spdmUnsupportedRequest req => Sys2Proof.Machine.execSpdmUnsupportedRequest req s
  | .cueSoftReset => Sys2Proof.Machine.execCueSoftReset s
  | .commitSoftReset => Sys2Proof.Machine.execCommitSoftReset s
  | .strikeSoftReset => Sys2Proof.Machine.execStrikeSoftReset s
  | .dispSoftReset c => Sys2Proof.Machine.execDispSoftReset c s
  | .keysSoftReset => Sys2Proof.Machine.execKeysSoftReset s
  | .pbookSoftReset => Sys2Proof.Machine.execPbookSoftReset s
  | .hepSoftReset => Sys2Proof.Machine.execHepSoftReset s
  | .qengSoftReset => Sys2Proof.Machine.execQengSoftReset s
  | .companySoftReset => Sys2Proof.Machine.execCompanySoftReset s
  | .modctlSoftReset => Sys2Proof.Machine.execModctlSoftReset s
  | .pwrSoftReset => Sys2Proof.Machine.execPwrSoftReset s
  | .mgmtSoftReset => Sys2Proof.Machine.execMgmtSoftReset s
  | .expertKeyWrite wr page val => Sys2Proof.Machine.execExpertKeyWrite wr page val s
  | .errClear wr page => Sys2Proof.Machine.execErrClear wr page s
  | .evtForceWrite wr page val => Sys2Proof.Machine.execEvtForceWrite wr page val s
  | .evtRawClear wr page val => Sys2Proof.Machine.execEvtRawClear wr page val s
  | .registerWrite wr page word val => Sys2Proof.Machine.execRegisterWrite wr page word val s
  | .supplyRestored absentMs => Sys2Proof.Machine.execSupplyRestored absentMs s
  | .pcieLinkUp speed width => Sys2Proof.Machine.execPcieLinkUp speed width s
  | .busMasterEnableWrite en => Sys2Proof.Machine.execBusMasterEnableWrite en s
  | .msixUnmask vector => Sys2Proof.Machine.execMsixUnmask vector s
  | .refclkStop => Sys2Proof.Machine.execRefclkStop s
  | .refclkRestore => Sys2Proof.Machine.execRefclkRestore s
  | .wingLinkError p nakDue => Sys2Proof.Machine.execWingLinkError p nakDue s
  | .dramTempNormal m => Sys2Proof.Machine.execDramTempNormal m s
  | .flashWriteDone fail => Sys2Proof.Machine.execFlashWriteDone fail s
  | .mctpControlMessage control msg => Sys2Proof.Machine.execMctpControlMessage control msg s
  | .snapshotExportDone => Sys2Proof.Machine.execSnapshotExportDone s

end Sys2Proof.Machine
end

