-- ==== Sys2Proof/Safety.lean ====
section
/-!
DEFINITION. The terms in which claims about the module are made: the canonical form of its tables, when a core is ready to run
an instruction and what the state is once one has retired, and the results of the core's instruction families, each said
once for every instruction of one shape, in the arithmetic of bit vectors.
-/
namespace Sys2Proof.Machine
open Sys2Proof

/-! ## The whole machine -/

/-- The keys of a table rise strictly. -/
def Rising {α : Type} (t : List (Nat × α)) : Prop := (t.map Prod.fst).Pairwise (· < ·)

/-- The canonical form of every table that a store, a register write or a core changes: keys rise strictly and nothing listed
equals what an unlisted key reads as; and the keys of every other table of units and queues rise. -/
def State.Canon (s : State) : Prop :=
  Memory.wf s.mem = true ∧ Sparse.wf blankHost s.host = true ∧ Sparse.wf resetWord s.regs = true ∧
    Sparse.wf wideReset s.wide = true ∧ Sparse.wf (fun _ => Core.reset) s.cores = true ∧
    Sparse.wf (fun _ => Cluster.reset) s.clusters = true ∧
    (∀ p, p ∈ s.clusters → Sparse.wf (fun _ => (none : Option L2Line)) p.2.l2.lines = true) ∧
    Rising s.units ∧ Rising s.digs ∧ Rising s.cams ∧ Rising s.dmas ∧ Rising s.memcs ∧ Rising s.wings ∧ Rising s.qpairs ∧ Rising s.tables ∧
    Rising s.detached ∧ Rising s.keys.slots ∧ Sparse.wf (fun _ => true) s.irtr.alert = true ∧
    Sparse.wf (fun _ => true) s.irtr.present = true ∧ Sparse.wf (fun _ => false) s.irtr.latched = true

/-- A command answers a next state, and something holds of it. -/
def Answers (i : Instr) (s : State) (P : State → Prop) : Prop := ∃ t, exec i s = .next t ∧ P t

/-! ## Cores -/

/-- A core fetches its next instruction: the module serves and the core runs (R196, R287), no budget stop is due (R214), the fetch passes
its checks (R202, R205, R229) and does not wait for the L2 (R242). -/
def State.Fetches (s : State) (w : CoreRef) : Prop :=
  s.coreRuns (coreKey w) = true ∧ (s.core w).budgetStop = none ∧
    s.checkAccess (coreKey w) .fetch (s.core w).pc.toNat 4 = none ∧ s.fetchWaits (coreKey w) (s.core w).pc.toNat = false

/-- A core executes its next instruction: it fetches it, from its L1 instruction cache without a parity error or from memory that no cache
holds (R194, R195), and an item it holds has a count of OPS left (R214). What a fetch that misses or meets a parity error adds is stated by
itself (`Obligations.InstructionFetches`). -/
def State.CoreReady (s : State) (w : CoreRef) : Prop :=
  s.Fetches w ∧ w.parity = false ∧
    (s.cacheable (s.core w).pc.toNat = true → s.l1iHeld (coreKey w) (s.core w).pc.toNat = true) ∧
    (∀ h, (s.core w).held = some h → h.checked = true → (s.core w).mode ≠ .handler →
      ((s.core w).cnt 0).toNat + 1 ≤ ((s.core w).bud 0).toNat)

/-- COUNT0 counts the instruction in the item context outside handler mode (R214). -/
def Core.counted (x y : Core) : Core :=
  if x.held.isSome = true ∧ x.mode ≠ .handler then y.setCnt 0 (y.cnt 0 + 1) else y

/-- The instructions of one format run at a state as they run, without a parity error, once their fetch is done. -/
def FetchedFirst {α : Type} (mks : List (CoreRef → α → Instr)) : Prop :=
  ∀ mk, mk ∈ mks → ∀ (w : CoreRef) (a : α) (s : State), s.Canon → s.Fetches w →
    exec (mk w a) s = exec (mk { w with parity := false } a) (s.fetched w)

/-- The instruction retires having changed nothing but its core, which becomes `y` with OPS counted. -/
def RetiresAt (i : Instr) (w : CoreRef) (s : State) (y : Core) : Prop :=
  exec i s = .next (s.setCoreAt (coreKey w) ((s.core w).counted y))

/-- The same, with the pc at the next instruction. -/
def Retires (i : Instr) (w : CoreRef) (s : State) (y : Core) : Prop :=
  RetiresAt i w s { y with pc := (s.core w).pc + 4 }

/-- The instruction takes an exception and changes nothing else (R215): the cause is recorded, EPC holds the pc, the core is
in handler mode at EBASE + 64 × cause, and memory, the general registers and VL are as before. -/
def Raises (i : Instr) (w : CoreRef) (s : State) (cause : Nat) : Prop :=
  Answers i s (fun t =>
    (t.core w).mode = .handler ∧
    (t.core w).pc = BitVec.ofNat 64 (s.ebase w.c.val + 64 * cause) ∧
    (t.reg (corePage (coreKey w)) 0x05C).toNat % 256 = cause ∧
    t.pageAddr (corePage (coreKey w)) 0x054 0x058 = (s.core w).pc.toNat % 2 ^ 48 ∧
    t.coreEmode (coreKey w) = (if (s.core w).mode = .operator then 0 else 1) ∧
    (t.core w).g = (s.core w).g ∧ (t.core w).v = (s.core w).v ∧ (t.core w).m = (s.core w).m ∧ (t.core w).vl = (s.core w).vl ∧
    t.mem = s.mem ∧ t.host = s.host)

/-! ### Scalar instructions -/

/-- rd ← f ra rb, whatever the core holds (format A). -/
def ScalarResult (mk : CoreRef → FmtA → Instr) (f : Word64 → Word64 → Word64) : Prop :=
  ∀ (w : CoreRef) (a : FmtA) (s : State), s.Canon → s.CoreReady w →
    Retires (mk w a) w s ((s.core w).setGr a.rd.toNat (f ((s.core w).gr a.ra.toNat) ((s.core w).gr a.rb.toNat)))

/-- rd ← f ra, for the forms whose rb field must be 0 (format A). -/
def UnaryResult (mk : CoreRef → FmtA → Instr) (f : Word64 → Word64) : Prop :=
  ∀ (w : CoreRef) (a : FmtA) (s : State), s.Canon → s.CoreReady w → a.rb = 0 →
    Retires (mk w a) w s ((s.core w).setGr a.rd.toNat (f ((s.core w).gr a.ra.toNat)))

/-- rd ← f ra imm (format I). -/
def ImmResult (mk : CoreRef → FmtI → Instr) (f : Word64 → BitVec 16 → Word64) : Prop :=
  ∀ (w : CoreRef) (a : FmtI) (s : State), s.Canon → s.CoreReady w →
    Retires (mk w a) w s ((s.core w).setGr a.rd.toNat (f ((s.core w).gr a.ra.toNat) a.imm))

/-- rd ← f ra amount, with IMM[15:8] 0 (the shift immediates). -/
def ShiftResult (mk : CoreRef → FmtSh → Instr) (f : Word64 → Nat → Word64) : Prop :=
  ∀ (w : CoreRef) (a : FmtSh) (s : State), s.Canon → s.CoreReady w → a.hi = 0 →
    Retires (mk w a) w s ((s.core w).setGr a.rd.toNat (f ((s.core w).gr a.ra.toNat) a.amt.toNat))

/-- rd ← a constant made from IMM, the halfword HW and the old rd (MOVZ, MOVK). -/
def ConstResult (mk : CoreRef → FmtI → Instr) (f : BitVec 16 → Nat → Word64 → Word64) : Prop :=
  ∀ (w : CoreRef) (a : FmtI) (s : State), s.Canon → s.CoreReady w → a.ra.toNat < 4 →
    Retires (mk w a) w s ((s.core w).setGr a.rd.toNat (f a.imm a.ra.toNat ((s.core w).gr a.rd.toNat)))

/-- The pc goes to PC + 4 × OFF when the condition holds of ra and rb, else to the next instruction. -/
def BranchResult (mk : CoreRef → FmtB → Instr) (c : Word64 → Word64 → Bool) : Prop :=
  ∀ (w : CoreRef) (b : FmtB) (s : State), s.Canon → s.CoreReady w →
    let x := s.core w
    let target := if c (x.gr b.ra.toNat) (x.gr b.rb.toNat) = true then x.pc + 4 * b.off.signExtend 64 else x.pc + 4
    RetiresAt (mk w b) w s { x with pc := target }

/-- The bytes of a 64-bit value in the opposite order. -/
def bswapRef (a : Word64) : Word64 :=
  a.extractLsb' 0 8 ++ a.extractLsb' 8 8 ++ a.extractLsb' 16 8 ++ a.extractLsb' 24 8 ++ a.extractLsb' 32 8 ++ a.extractLsb' 40 8 ++
    a.extractLsb' 48 8 ++ a.extractLsb' 56 8

/-- CRC-32C bit by bit: the remainder after the low `n` bits of a value, least significant first, with the bit-reflected polynomial of
0x1EDC_6F41 (R204). -/
def crcRef (n : Nat) (rem : BitVec 32) (v : Word64) : BitVec 32 :=
  (List.range n).foldl (fun r i => if r.getLsbD 0 != v.getLsbD i then (r >>> 1) ^^^ 0x82F63B78#32 else r >>> 1) rem

/-! ### Scalar memory -/

/-- The address of a load or store of `n` bytes: ra + DISP × n (R203). -/
def Core.memAddr (x : Core) (f : FmtM) (n : Nat) : Nat :=
  (x.gr f.ra.toNat + f.disp.signExtend 64 * BitVec.ofNat 64 n).toNat

/-- A load of `n` bytes at `a` is served now: no register access of the core is unbracketed, the checks pass, the address is
memory class on a controller that answers, the L2 is not being disabled, and the store buffer holds all its bytes or none. -/
def State.LoadServed (s : State) (w : CoreRef) (a n : Nat) : Prop :=
  (s.core w).ioOpen = false ∧ s.checkAccess (coreKey w) .load a n = none ∧ s.classOf a = .memory ∧
    s.l2Waits w.c.val = false ∧ s.frozenAt a = false ∧ sbView (s.core w).sb a n ≠ .part

/-- The bytes a served load reads: the core's own buffered ones, else those of memory (R220). -/
def State.loaded (s : State) (w : CoreRef) (a n : Nat) : List Byte :=
  match sbView (s.core w).sb a n with
  | .full bs => bs
  | _ => s.bytesAt a n

/-- rt ← ext of the `n` bytes at the address; no byte of memory changes; a parity error of a line that the L1 data cache holds is counted and gives the same
bytes (R195). The load may evict a line, and with it a reservation. -/
def LoadResult (mk : CoreRef → FmtM → Bool → Instr) (n : Nat) (ext : Nat → Word64) : Prop :=
  ∀ (w : CoreRef) (f : FmtM) (p : Bool) (s : State), s.Canon → s.CoreReady w → s.LoadServed w ((s.core w).memAddr f n) n →
    Answers (mk w f p) s (fun t =>
      t.core w = { (s.core w).counted { (s.core w).setGr f.rt.toNat (ext (Word.leValue (s.loaded w ((s.core w).memAddr f n) n))) with
          pc := (s.core w).pc + 4, ioReady := false, ioOpen := false, remote := [] } with resv := (t.core w).resv } ∧
      (∀ b, t.byteAt b = s.byteAt b) ∧
      t.reg (corePage (coreKey w)) 0x050 = s.reg (corePage (coreKey w)) 0x050 +
        (if p = true ∧ s.l1Held (coreKey w) ((s.core w).memAddr f n) = true then 1 else 0))

/-- A core after a store outside the register pages: the bytes in its store buffer, its own reservation on the granule ended, no
register access open (R220, R221, R226). -/
def Core.stored (x : Core) (cls : Nat → AccessClass) (a : Nat) (bs : List Byte) : Core :=
  let y := ({ x with sb := sbStore x.sb (cls a) a bs } : Core).loseResvAt a bs.length
  { y with ioReady := false, ioOpen := false, remote := [] }

/-- A store of `n` bytes enters the store buffer and ends the core's own reservation on its granule; nothing else changes until the
fabric accepts it (R220, R226). -/
def StoreResult (mk : CoreRef → FmtM → Instr) (n : Nat) : Prop :=
  ∀ (w : CoreRef) (f : FmtM) (s : State), s.Canon → s.CoreReady w → (s.core w).ioOpen = false →
    s.checkAccess (coreKey w) .store ((s.core w).memAddr f n) n = none → s.classOf ((s.core w).memAddr f n) ≠ .register →
    (s.core w).sb.length + sbNeeds (s.core w).sb ((s.core w).memAddr f n) n ≤ 16 →
    Retires (mk w f) w s ((s.core w).stored s.classOf ((s.core w).memAddr f n) (Word.leBytes n ((s.core w).gr f.rt.toNat).toNat))

/-! ### Vectors -/

/-- Element `e` of a vector register as a value of EW bits (R199). -/
def elemOf (v : VWord) (ew : BitVec 2) (e : Nat) : BitVec (ewBits ew) := v.extractLsb' (ewBits ew * e) (ewBits ew)

/-- Element `e` of the operand va. -/
def Core.va (x : Core) (f : FmtV) (e : Nat) : BitVec (ewBits f.ew) := elemOf (x.vr f.va.toNat) f.ew e

/-- Element `e` of the second operand: vb, or gb[EW − 1:0] in the scalar form (R207). -/
def Core.vb (x : Core) (f : FmtV) (sc : Bool) (e : Nat) : BitVec (ewBits f.ew) :=
  if sc = true then (x.gr f.vb.toNat).setWidth (ewBits f.ew) else elemOf (x.vr f.vb.toNat) f.ew e

/-- The instruction writes vd and nothing else: element `e` takes `val e` where it is given, and keeps its value otherwise. -/
def VecWrites (i : Instr) (w : CoreRef) (f : FmtV) (s : State) (val : (e : Nat) → Option (BitVec (ewBits f.ew))) : Prop :=
  ∃ v : VWord, Retires i w s ((s.core w).setVr f.vd.toNat v) ∧
    ∀ e, e < ewCount f.ew → elemOf v f.ew e = (val e).getD (elemOf ((s.core w).vr f.vd.toNat) f.ew e)

/-- vd[e] ← va[e] op vb[e], or op gb, for every active element (R207). -/
def VecResult (mk : CoreRef → FmtV → Bool → Instr) (op : (n : Nat) → BitVec n → BitVec n → BitVec n) : Prop :=
  ∀ (w : CoreRef) (f : FmtV) (sc : Bool) (s : State), s.Canon → s.CoreReady w →
    VecWrites (mk w f sc) w f s (fun e =>
      if (s.core w).active f.ew f.msk e = true then some (op _ ((s.core w).va f e) ((s.core w).vb f sc e)) else none)

/-- The instruction writes a mask register and nothing else, bit by bit. -/
def MaskWrites (i : Instr) (w : CoreRef) (f : FmtV) (s : State) (val : Nat → Bool) : Prop :=
  ∃ m : MWord, Retires i w s ((s.core w).setMr f.vd.toNat m) ∧ ∀ e, e < 256 → m.getLsbD e = val e

/-- m[vd] bit e ← va[e] op vb[e] for every active element, every other bit 0 (R207). -/
def CmpResult (mk : CoreRef → FmtV → Bool → Instr) (op : (n : Nat) → BitVec n → BitVec n → Bool) : Prop :=
  ∀ (w : CoreRef) (f : FmtV) (sc : Bool) (s : State), s.Canon → s.CoreReady w → f.vd.toNat < 8 →
    MaskWrites (mk w f sc) w f s (fun e =>
      (s.core w).active f.ew f.msk e && op _ ((s.core w).va f e) ((s.core w).vb f sc e))

/-- md ← ma op mb for bits below L, the others 0 (R207); `legal` says which fields must be 0. -/
def MaskResult (mk : CoreRef → FmtV → Instr) (legal : FmtV → Prop) (op : Bool → Bool → Bool) : Prop :=
  ∀ (w : CoreRef) (f : FmtV) (s : State), s.Canon → s.CoreReady w → f.msk = 0 → f.vd.toNat < 8 → legal f →
    MaskWrites (mk w f) w f s (fun e =>
      decide (e < (s.core w).activeLen f.ew) && op (((s.core w).mr f.va.toNat).getLsbD e) (((s.core w).mr f.vb.toNat).getLsbD e))

/-- vd[e] ← a value for every active element, where the fields allow it (R207). -/
def MoveResult (mk : CoreRef → FmtV → Instr) (legal : FmtV → Prop)
    (val : (x : Core) → (f : FmtV) → Nat → BitVec (ewBits f.ew)) : Prop :=
  ∀ (w : CoreRef) (f : FmtV) (s : State), s.Canon → s.CoreReady w → legal f →
    VecWrites (mk w f) w f s (fun e =>
      if (s.core w).active f.ew f.msk e = true then some (val (s.core w) f e) else none)

/-- The elements of va as a reduction takes them: sign-extended or zero-extended to 64 bits (R211). -/
def Core.redElem (x : Core) (f : FmtV) (signed : Bool) (e : Nat) : Word64 :=
  if signed = true then (x.va f e).signExtend 64 else (x.va f e).setWidth 64

/-- gd ← the fold of the active elements of va, in ascending order, from gb (R211). -/
def ReduceResult (mk : CoreRef → FmtV → Instr) (signed : Bool) (op : Word64 → Word64 → Word64) : Prop :=
  ∀ (w : CoreRef) (f : FmtV) (s : State), s.Canon → s.CoreReady w →
    Retires (mk w f) w s ((s.core w).setGr f.vd.toNat
      (((List.range (ewCount f.ew)).filter (fun e => (s.core w).active f.ew f.msk e)).foldl
        (fun a e => op a ((s.core w).redElem f signed e)) ((s.core w).gr f.vb.toNat)))

/-- A signed sum or difference saturated at EW bits (R207). -/
def clampS (n : Nat) (v : Int) : BitVec n := BitVec.ofInt n (max (-(2 ^ (n - 1) : Int)) (min (2 ^ (n - 1) - 1) v))

/-- An unsigned sum or difference saturated at EW bits (R207). -/
def clampU (n : Nat) (v : Int) : BitVec n := BitVec.ofInt n (max 0 (min (2 ^ n - 1) v))

/-! ### Vector memory -/

/-- The address of element `e` of a vector access, by its form (R207, R210). -/
inductive VecAddr where
  | unit | stride | index (bits : Nat)
  deriving DecidableEq, Repr

/-- The address of element `e`, modulo 2^64. -/
def Core.elemAddr (x : Core) (f : FmtV) : VecAddr → Nat → Nat
  | .unit, e => (x.gr f.va.toNat + BitVec.ofNat 64 (e * (ewBits f.ew / 8))).toNat
  | .stride, e => (x.gr f.va.toNat + BitVec.ofNat 64 e * x.gr f.vb.toNat).toNat
  | .index n, e => (x.gr f.va.toNat + BitVec.ofNat 64 (x.indexElem f.vb.toNat n e)).toNat

/-- The fields a form needs: vb 0 for unit stride, and an index operand inside the register file (R206, R207). -/
def VecAddr.fits (f : FmtV) : VecAddr → Prop
  | .unit => f.vb = 0
  | .stride => True
  | .index n => f.vb.toNat + indexSpan f.ew n ≤ 32

/-- vd[e] ← the element in memory for every active element, when every active access is served; no byte changes, and a parity error of a line that
the L1 data cache holds is counted once (R195, R207, R210). -/
def VecLoadResult (mk : CoreRef → FmtV → Bool → Instr) (form : VecAddr) : Prop :=
  ∀ (w : CoreRef) (f : FmtV) (p : Bool) (s : State), s.Canon → s.CoreReady w → form.fits f → (s.core w).ioOpen = false →
    (∀ e, (s.core w).active f.ew f.msk e = true → s.LoadServed w ((s.core w).elemAddr f form e) (ewBits f.ew / 8)) →
    Answers (mk w f p) s (fun t =>
      (∃ v : VWord, t.core w = { (s.core w).counted { (s.core w).setVr f.vd.toNat v with
          pc := (s.core w).pc + 4, ioReady := false, ioOpen := false, remote := [] } with resv := (t.core w).resv } ∧
        ∀ e, e < ewCount f.ew → (elemOf v f.ew e).toNat =
          if (s.core w).active f.ew f.msk e = true then Word.leValue (s.loaded w ((s.core w).elemAddr f form e) (ewBits f.ew / 8))
          else (elemOf ((s.core w).vr f.vd.toNat) f.ew e).toNat) ∧
      (∀ b, t.byteAt b = s.byteAt b) ∧
      t.reg (corePage (coreKey w)) 0x050 = s.reg (corePage (coreKey w)) 0x050 +
        (if (p && (List.range (ewCount f.ew)).any (fun e => (s.core w).active f.ew f.msk e &&
            s.l1Held (coreKey w) ((s.core w).elemAddr f form e))) = true then 1 else 0))

/-- The store buffer after the active elements of vd have entered it, in ascending order (R207, R210, R220). -/
def Core.vecStored (x : Core) (f : FmtV) (form : VecAddr) : List SbEntry :=
  ((List.range (ewCount f.ew)).filter (fun e => x.active f.ew f.msk e)).foldl
    (fun b e => sbStore b .memory (x.elemAddr f form e) (Word.leBytes (ewBits f.ew / 8) (elemOf (x.vr f.vd.toNat) f.ew e).toNat)) x.sb

/-- The active elements of vd enter the store buffer, where each is memory class, passes its checks and there is room for all; nothing
else changes until the fabric accepts them (R207, R210, R220). -/
def VecStoreResult (mk : CoreRef → FmtV → Instr) (form : VecAddr) : Prop :=
  ∀ (w : CoreRef) (f : FmtV) (s : State), s.Canon → s.CoreReady w → form.fits f → (s.core w).ioOpen = false →
    (∀ e, (s.core w).active f.ew f.msk e = true → s.classOf ((s.core w).elemAddr f form e) = .memory ∧
      s.checkAccess (coreKey w) .store ((s.core w).elemAddr f form e) (ewBits f.ew / 8) = none) →
    ((s.core w).vecStored f form).length ≤ 16 →
    Answers (mk w f) s (fun t =>
      (t.core w).sb = (s.core w).vecStored f form ∧ (t.core w).pc = (s.core w).pc + 4 ∧ (t.core w).g = (s.core w).g ∧
      (t.core w).v = (s.core w).v ∧ (t.core w).m = (s.core w).m ∧ t.mem = s.mem ∧ t.regs = s.regs)

/-! ## Units with descriptors -/

/-- A run of bytes that an agent of the module can write: inside one 256-byte block of memory class that answers. -/
def State.Writable (s : State) (a n : Nat) : Prop :=
  a % 256 + n ≤ 256 ∧ (∀ i, i < n → s.classOf (a + i) = .memory ∧ s.populated (a + i) = true ∧ s.frozenAt (a + i) = false)

/-- The FIFO of a unit that a submission enters. -/
def UnitQ.side (u : UnitQ) (second : Bool) : List UnitJob := if second = true then u.fifo2 else u.fifo

/-- An 8-byte store of a writer to a register passes the budgets of the item that a core holds: any other writer has none (R214). -/
def State.Affords (s : State) (wr : Writer) (page off v : Nat) : Prop :=
  ∀ w, wr = .core w → ∃ x, s.charged (coreKey w) (s.core w) [(0xF00000000000 + page * 4096 + off, 8, v)] = .ok x

/-- A store that would take a counter of its item above its budget raises BUDGET (cause 9) with the counter in ECAUSE, and no unit and no byte of memory
changes (R214, R215). -/
def BudgetStops (mk : Writer → BitVec 64 → Instr) (page off : Nat) : Prop :=
  ∀ (w : CoreRef) (addr : BitVec 64) (id : Nat) (s : State), s.Canon → s.pageReached (.core (coreKey w)) page = true → (s.core w).mode ≠ .handler →
    s.charged (coreKey w) (s.core w) [(0xF00000000000 + page * 4096 + off, 8, addr.toNat)] = .error id → id < 8 →
    Answers (mk (.core w) addr) s (fun t => (t.core w).mode = .handler ∧ (t.reg (corePage (coreKey w)) 0x05C).toNat = 9 + 512 * id ∧
      t.units = s.units ∧ t.digs = s.digs ∧ t.lsu = s.lsu ∧ t.mem = s.mem)

/-- The alignment of a descriptor: its length, up to 128 bytes (R128, R134, R141, R158, R305, R320, R329, R386). -/
def UnitKind.align (k : UnitKind) : Nat := if k.descLen < 128 then 64 else 128

/-- A store to a SUBMIT register that reaches its page and passes the budgets copies the descriptor it names into the FIFO; at a full FIFO the job is
answered with SUBMIT_FULL (0x0014) in its done block, a misaligned descriptor with ACCESS (0x0012), and one that cannot be copied leaves units and memory
as they are (R133, R134). -/
def SubmitResult (mk : Writer → BitVec 64 → Instr) (k : UnitKind) (page off : Nat) (second : Bool) (who : Writer → Prop) : Prop :=
  ∀ (wr : Writer) (addr : BitVec 64) (s : State), s.Canon → s.pageReached (Writer.agent wr) page = true → who wr →
    s.Affords wr page off addr.toNat →
    let d := s.agentRead [] addr.toNat k.descLen
    let q := fun (u : State) => (u.unit page).side second
    let answered := fun (st : Nat) => s.Writable (field d k.doneAt 8) k.blockLen → Answers (mk wr addr) s (fun t =>
      q t = q s ∧ (t.unit page).run = (s.unit page).run ∧ t.bytesAt (field d k.doneAt 8) 2 = Word.leBytes 2 st)
    (s.submitBad k addr.toNat = false →
      (addr.toNat % k.align = 0 → (q s).length < k.depth → Answers (mk wr addr) s (fun t =>
        (q t).map UnitJob.desc = (q s).map UnitJob.desc ++ [d] ∧ (t.unit page).side (!second) = (s.unit page).side (!second) ∧
        (t.unit page).run = (s.unit page).run ∧ t.mem = s.mem ∧ t.regs = s.regs)) ∧
      (addr.toNat % k.align = 0 → k.depth ≤ (q s).length → answered 0x0014) ∧
      (addr.toNat % k.align ≠ 0 → answered 0x0012)) ∧
    (s.submitBad k addr.toNat = true → Answers (mk wr addr) s (fun t => t.units = s.units ∧ t.mem = s.mem))

/-- A settled job's done block is written at its DONE_ADDR, no other byte of memory changes, and the unit is free (R132). -/
def SettledJobEnds (i : Instr) (k : UnitKind) (page : Nat) : Prop :=
  ∀ (s : State) (r : RunJob) (e : JobEnd), s.Canon → (s.unit page).run = some r → r.fin = some e → e.block.length = k.blockLen →
    let a := field r.job.desc k.doneAt 8
    s.Writable a k.blockLen → Answers i s (fun t =>
      (t.unit page).run = none ∧ (t.unit page).fifo = (s.unit page).fifo ∧ (t.unit page).fifo2 = (s.unit page).fifo2 ∧
      t.bytesAt a k.blockLen = e.block ∧ (∀ b, b < a ∨ a + k.blockLen ≤ b → t.byteAt b = s.byteAt b))

/-- ABORT ends the running job with ABORTED (0x0002) in its done block and leaves the FIFOs as they are (R133). -/
def AbortEnds (i : Instr) (k : UnitKind) (page : Nat) : Prop :=
  ∀ (s : State) (r : RunJob), s.Canon → (s.unit page).run = some r → s.Writable (field r.job.desc k.doneAt 8) k.blockLen →
    Answers i s (fun t => (t.unit page).run = none ∧ (t.unit page).fifo = (s.unit page).fifo ∧
      (t.unit page).fifo2 = (s.unit page).fifo2 ∧ t.bytesAt (field r.job.desc k.doneAt 8) 2 = Word.leBytes 2 0x0002)

/-- SOFT_RESET leaves no job, queued or running, and clears the counters named. -/
def SoftResetEmpties (i : Instr) (page : Nat) (counters : List Nat) : Prop :=
  ∀ s : State, s.Canon → Answers i s (fun t => (t.unit page).fifo = [] ∧ (t.unit page).fifo2 = [] ∧ (t.unit page).run = none ∧
    (t.unit page).held = none ∧ ∀ o, o ∈ counters → t.reg page o = 0)

/-! ## Register pages -/

/-- A populated page: a block's instance lies there, and it is none of the sixteen pages of the PROBE row without a lane (R501, R505). -/
def PopulatedPage (page : Nat) : Prop := ∃ b i, blkAt page = some (b, i) ∧ ¬ (b = .probe ∧ i < 16)

/-- A soft reset that only clears counters of one page: they read 0, and every other register and the rest of the module is as before. -/
def ClearsCounters (i : Instr) (page : Nat) (counters : List Nat) : Prop :=
  ∀ s : State, s.Canon → Answers i s (fun t => (∀ o, o ∈ counters → t.reg page o = 0) ∧ t = { s with regs := t.regs } ∧
    ∀ k, (∀ o, o ∈ counters → k ≠ regKey page o) → Sparse.get resetWord t.regs k = Sparse.get resetWord s.regs k)

/-! ## Frames of a wing port -/

/-- A frame that arrives now arrives whole: the link carries frames, the frame is not a fragment, and no message is in parts. -/
def State.TakesWhole (s : State) (p : Nat) (h : FrameHead) : Prop :=
  (s.lstate p = 4 ∨ s.lstate p = 5) ∧ h.more = false ∧ (s.wing p).partType = [] ∧ (s.wing p).partBuf = []

/-- A frame that arrives whole acts on the module whose port has taken it: of that port only FSEQ expected, acknowledged frames, credits and
what leaves with them have changed (R437, R440, R441). -/
def FrameActs (i : Instr) (p : Nat) (s : State) (P : State → State → Prop) : Prop :=
  ∃ w : Wing, w.rxSeq = ((s.wing p).rxSeq + 1) % 2 ^ 32 ∧ w.myHello = (s.wing p).myHello ∧ w.peerHello = (s.wing p).peerHello ∧
    w.tag = (s.wing p).tag ∧ w.reqs = (s.wing p).reqs ∧ Answers i s (fun t => P (s.setWing p w) t)

/-- A port once a frame that takes no credit has arrived and nothing waits to be sent. -/
def Wing.tookFrame (w : Wing) (h : FrameHead) : Wing :=
  let left := match w.replay.findIdx? (fun f => f.fseq == h.ack.toNat) with
    | some i => w.replay.drop (i + 1)
    | none => w.replay
  { w with rxSeq := (w.rxSeq + 1) % 2 ^ 32, replay := left, stuck := if left.length < w.replay.length then 0 else w.stuck,
           credits := w.credits.set h.credVc.toNat (w.credits.getD h.credVc.toNat 0 + h.cred.toNat) }

/-- A port has sent a message, or holds it until its credits and its replay buffer allow it: its payload padded to a multiple of 8 (R438, R440). -/
def State.Sends (t : State) (p typ : Nat) (payload : List Byte) : Prop :=
  ∃ f, f ∈ (t.wing p).replay ++ (t.wing p).waitq ∧ f.typ = typ ∧
    f.payload = payload ++ List.replicate ((8 - payload.length % 8) % 8) 0

/-! ## The admin queue -/

/-- The admin queue can take one entry and run it at once: the host reaches the module and the module the host, the pair is enabled with its
ring empty and room for a completion, and no command waits (R406, R407, R415, R419). -/
def State.AdminReady (s : State) : Prop :=
  let p := s.qp 0
  s.hostReaches = true ∧ s.hostOk = true ∧ p.sqOn = true ∧ p.cqOn = true ∧ p.sqCons < 2 ^ 32 ∧ s.hostValAt p.idxAddr 4 = p.sqCons ∧
    ringDist p.cqProd p.cqCons < 2 ^ p.cqLog ∧ s.adminBacklog = [] ∧ s.adminBusy = false ∧ s.camDeltas = []

/-- The option bits of byte 32 as a row sets them: the byte's multiple of `k` with the option added. -/
def withOption (k o : Nat) (args : List Byte) : List Byte := match fit 32 args with
  | a :: r => BitVec.ofNat 8 (a.toNat / k * k + o) :: r
  | [] => []

/-- An admin row places its well-formed entry, rings the doorbell, and the command runs: `P` holds of the module with the entry fetched, the
entry's bytes, its data and the module that the command leaves (R396, R406, R409, R415). The ring slot must not meet the index block; `pre` is what the row brings
beside its entry. -/
def AdminRunsFrom (pre : State → State) (mk : Sqe → Instr) (opc : Nat) (args : List Byte → List Byte)
    (P : State → List Byte → List Byte → State → Prop) : Prop :=
  ∀ (e : Sqe) (s : State), s.Canon → s.AdminReady →
    let e1 := { e with args := args e.args }
    let b := sqeBytes opc e1
    let placed := s.placeEntry 0 opc e1
    let p := s.qp 0
    let next := (p.sqCons + 1) % 2 ^ 32
    placed.hostBytesAt (p.sqAddr + 64 * (p.sqCons % 2 ^ p.sqLog)) 64 = b → placed.hostValAt p.idxAddr 4 = next →
    adminFault p.winBase p.winLog b = none →
    ∃ u : State, u.Canon ∧ u.qp 0 = { p with sqProd := next, sqCons := next, rung := false } ∧ (∀ q, q ≠ 0 → u.qp q = s.qp q) ∧
      u = { (pre s).addReg qengPage 0x074 1 with host := u.host, qpairs := u.qpairs } ∧
      Answers (mk e) s (fun t => P u b (placed.adminData b) t)

/-- The same, for a row that brings nothing but its entry. -/
def AdminRuns (mk : Sqe → Instr) (opc : Nat) (args : List Byte → List Byte) (P : State → List Byte → List Byte → State → Prop) : Prop :=
  AdminRunsFrom id mk opc args P

/-- A command completes: its CQE is written with a status, a cue and result bytes, on a module of which `Q` holds (R415). -/
def Completes (t : State) (b : List Byte) (status cue : Nat) (res : List Byte) (Q : State → Prop) : Prop :=
  ∃ v : State, t = v.adminCqe b status cue res ∧ Q v

/-- A command that makes a change, once it runs on a lead or solo module outside the curtain: a refusal completes it; while cues run, an accepted
change waits for a start instant, and for the understudy's answer where there is one; `Q` says what it does at once where no cue
runs (R36, R172, R415, R452). -/
def ChangeRuns (mk : Sqe → Instr) (opc : Nat) (args : List Byte → List Byte) (Q : State → Change → State → Prop) : Prop :=
  AdminRuns mk opc args (fun u b data t => u.mdl.curtain = false → u.isFollower = false →
    let sent := u.sendsChanges && forwarded opc
    let asked := sent && (u.redundant || u.company.lockAt.isSome)
    (∀ r, u.changeOf b data = some (.error r) → Completes t b r.status u.plainCue r.info (fun _ => True)) ∧
    (∀ c, u.changeOf b data = some (.ok c) → (u.changeNow = false ∨ asked = true) → t.adminWait = some
      { sqe := b, change := c, ident := if sent = true then some u.changeSeq else none, ok := !asked } ∧
      t.mem = u.mem ∧ t.host = u.host ∧ t.tables = u.tables ∧ t.pipes = u.pipes ∧ t.keys = u.keys) ∧
    (∀ c, u.changeOf b data = some (.ok c) → u.changeNow = true → asked = false →
      Completes t b 0 u.soonCue [] (fun v => Q u c v)))

/-! ## Cues -/

/-- A solo module on which nothing waits: no queue, no entry, no job, no completion, no change and no hold. -/
def State.Quiet (s : State) : Prop :=
  s.role = 0 ∧ s.companyMode = 0 ∧ s.follows = false ∧ s.company.lost = [] ∧ s.qpairs = [] ∧ s.journal = none ∧ s.jobs = [] ∧
    s.cue.release = [] ∧ s.cue.buffer = [] ∧ s.cue.carried = 0 ∧ s.cue.holdReq = false ∧ s.cue.holdLag = false ∧ s.adminWait = none ∧
    s.adminBacklog = [] ∧ s.camDeltas = [] ∧ s.evictedExport = none ∧ s.strike.pins = [] ∧ s.mgmt.reqs = [] ∧
    s.lagNow s.pbook.due.length = false

end Sys2Proof.Machine
end

