-- ==== Sys2Proof/Certificates/Slice0/Obligations.lean ====
section
/-!
DEFINITION. What is claimed of the module, for the provers. Each statement names the rules of the spec it formalises; it
holds of every state that meets its hypotheses, whether or not a run reaches it.
-/
open Sys2Proof Sys2Proof.Machine

/-! ## Cores: scalar instructions -/

/-- The integer instructions of MAJOR 0x01 on two registers give their results in rd, wrap modulo 2^64, set no flag and change nothing
else; shifts take the low six bits of rb; a write to g0 is ignored (R194, R203, R204). -/
def Claims.ScalarIntegerResults : Prop :=
  ScalarResult Instr.add (fun a b => a + b) ∧
  ScalarResult Instr.sub (fun a b => a - b) ∧
  ScalarResult Instr.and (fun a b => a &&& b) ∧
  ScalarResult Instr.or (fun a b => a ||| b) ∧
  ScalarResult Instr.xor (fun a b => a ^^^ b) ∧
  ScalarResult Instr.andn (fun a b => a &&& ~~~b) ∧
  ScalarResult Instr.sll (fun a b => a <<< (b.toNat % 64)) ∧
  ScalarResult Instr.srl (fun a b => a >>> (b.toNat % 64)) ∧
  ScalarResult Instr.sra (fun a b => a.sshiftRight (b.toNat % 64)) ∧
  ScalarResult Instr.rotl (fun a b => a.rotateLeft (b.toNat % 64)) ∧
  ScalarResult Instr.slt (fun a b => if a.slt b = true then 1 else 0) ∧
  ScalarResult Instr.sltu (fun a b => if a.ult b = true then 1 else 0) ∧
  ScalarResult Instr.min (fun a b => if a.sle b = true then a else b) ∧
  ScalarResult Instr.minu (fun a b => if a.ule b = true then a else b) ∧
  ScalarResult Instr.max (fun a b => if b.sle a = true then a else b) ∧
  ScalarResult Instr.maxu (fun a b => if b.ule a = true then a else b)

/-- CLZ, CTZ, POPC and BSWAP, and the four CRC32C forms, which update the remainder in ra[31:0] with the low 1, 2, 4 or 8 bytes of rb
and leave 0 in rd[63:32] (R203, R204). -/
def Claims.ScalarBitAndCrcResults : Prop :=
  UnaryResult Instr.clz (fun a => a.clz) ∧
  UnaryResult Instr.ctz (fun a => a.ctz) ∧
  UnaryResult Instr.popc (fun a => a.cpop) ∧
  UnaryResult Instr.bswap bswapRef ∧
  ScalarResult Instr.crc32cB (fun a b => ((crcRef 8 (a.setWidth 32) b).setWidth 64)) ∧
  ScalarResult Instr.crc32cH (fun a b => ((crcRef 16 (a.setWidth 32) b).setWidth 64)) ∧
  ScalarResult Instr.crc32cW (fun a b => ((crcRef 32 (a.setWidth 32) b).setWidth 64)) ∧
  ScalarResult Instr.crc32cD (fun a b => ((crcRef 64 (a.setWidth 32) b).setWidth 64))

/-- Multiplication and division: the low and high halves of the products, division truncating toward zero, all ones for a division by 0,
the dividend for a remainder by 0, and −2^63 by −1 giving −2^63 and 0 (R203, R204). -/
def Claims.ScalarMultiplyDivideResults : Prop :=
  ScalarResult Instr.mul (fun a b => a * b) ∧
  ScalarResult Instr.mulh (fun a b => (a.signExtend 128 * b.signExtend 128).extractLsb' 64 64) ∧
  ScalarResult Instr.mulhu (fun a b => (a.setWidth 128 * b.setWidth 128).extractLsb' 64 64) ∧
  ScalarResult Instr.div (fun a b => if b = 0 then BitVec.allOnes 64 else a.sdiv b) ∧
  ScalarResult Instr.divu (fun a b => if b = 0 then BitVec.allOnes 64 else a / b) ∧
  ScalarResult Instr.rem (fun a b => if b = 0 then a else a.srem b) ∧
  ScalarResult Instr.remu (fun a b => if b = 0 then a else a % b)

/-- The immediate, shift immediate and constant instructions (R203): sign-extended and zero-extended immediates, shift amounts of IMM[5:0],
and the halfword that MOVZ and MOVK place. -/
def Claims.ScalarImmediateResults : Prop :=
  ImmResult Instr.addi (fun a i => a + i.signExtend 64) ∧
  ImmResult Instr.andi (fun a i => a &&& i.setWidth 64) ∧
  ImmResult Instr.ori (fun a i => a ||| i.setWidth 64) ∧
  ImmResult Instr.xori (fun a i => a ^^^ i.setWidth 64) ∧
  ImmResult Instr.slti (fun a i => if a.slt (i.signExtend 64) = true then 1 else 0) ∧
  ImmResult Instr.sltiu (fun a i => if a.ult (i.signExtend 64) = true then 1 else 0) ∧
  ShiftResult Instr.sllImm (fun a n => a <<< n) ∧
  ShiftResult Instr.srlImm (fun a n => a >>> n) ∧
  ShiftResult Instr.sraImm (fun a n => a.sshiftRight n) ∧
  ShiftResult Instr.rotlImm (fun a n => a.rotateLeft n) ∧
  ConstResult Instr.movz (fun i h _ => i.setWidth 64 <<< (16 * h)) ∧
  ConstResult Instr.movk (fun i h d => (d &&& ~~~(0xFFFF#64 <<< (16 * h))) ||| (i.setWidth 64 <<< (16 * h)))

/-- Branches go to PC + 4 × OFF when their comparison of ra and rb holds and on otherwise; JAL and JALR write PC + 4 into the link register
and go to PC + 4 × OFF and to ra, which JALR reads before it writes rd (R203). -/
def Claims.BranchAndJumpResults : Prop :=
  BranchResult Instr.beq (fun a b => a == b) ∧
  BranchResult Instr.bne (fun a b => a != b) ∧
  BranchResult Instr.blt (fun a b => a.slt b) ∧
  BranchResult Instr.bge (fun a b => b.sle a) ∧
  BranchResult Instr.bltu (fun a b => a.ult b) ∧
  BranchResult Instr.bgeu (fun a b => b.ule a) ∧
  (∀ (w : CoreRef) (b : FmtB) (s : State), s.Canon → s.CoreReady w → b.rb = 0 →
    let x := s.core w
    RetiresAt (.jal w b) w s { x.setGr b.ra.toNat (x.pc + 4) with pc := x.pc + 4 * b.off.signExtend 64 }) ∧
  (∀ (w : CoreRef) (a : FmtA) (s : State), s.Canon → s.CoreReady w → a.rb = 0 →
    let x := s.core w
    RetiresAt (.jalr w a) w s { x.setGr a.rd.toNat (x.pc + 4) with pc := x.gr a.ra.toNat })

/-! ## Cores: memory -/

/-- A scalar load that is served gives rt the bytes at ra + DISP × size, little-endian, sign-extended or zero-extended, from the core's own
buffered stores where they hold them (R8, R203, R220); it changes no byte, and an L1 parity error is only counted (R195). -/
def Claims.ScalarLoadResults : Prop :=
  LoadResult Instr.ldb 1 (fun v => (BitVec.ofNat 8 v).signExtend 64) ∧
  LoadResult Instr.ldbu 1 (fun v => BitVec.ofNat 64 v) ∧
  LoadResult Instr.ldh 2 (fun v => (BitVec.ofNat 16 v).signExtend 64) ∧
  LoadResult Instr.ldhu 2 (fun v => BitVec.ofNat 64 v) ∧
  LoadResult Instr.ldw 4 (fun v => (BitVec.ofNat 32 v).signExtend 64) ∧
  LoadResult Instr.ldwu 4 (fun v => BitVec.ofNat 64 v) ∧
  LoadResult Instr.ldd 8 (fun v => BitVec.ofNat 64 v)

/-- A scalar store that passes its checks and has room enters the store buffer and ends the core's own reservation on its granule; nothing
else changes (R203, R220, R226). -/
def Claims.ScalarStoreResults : Prop :=
  StoreResult Instr.stb 1 ∧ StoreResult Instr.sth 2 ∧ StoreResult Instr.stw 4 ∧ StoreResult Instr.std 8

/-- Outside handler mode a scalar load or store, an LDRES or an STCOND that is not aligned to its size raises ALIGN, cause 3, with EADDR holding its
address (R205, R215). -/
def Claims.MisalignedAccessRaisesAlign : Prop :=
  ∀ (w : CoreRef) (f : FmtM) (p : Bool) (s : State), s.Canon → s.CoreReady w → (s.core w).mode ≠ .handler →
    (s.core w).ioOpen = false →
    let bad := fun n => (s.core w).memAddr f n % n ≠ 0
    let raises := fun i n => Raises i w s 3 ∧ Answers i s (fun t =>
      t.pageAddr (corePage (coreKey w)) 0x064 0x068 = (s.core w).memAddr f n % 2 ^ 48)
    (bad 2 → raises (.ldh w f p) 2 ∧ raises (.ldhu w f p) 2 ∧ raises (.sth w f) 2) ∧
    (bad 4 → raises (.ldw w f p) 4 ∧ raises (.ldwu w f p) 4 ∧ raises (.stw w f) 4) ∧
    (bad 8 → raises (.ldd w f p) 8 ∧ raises (.std w f) 8 ∧
      ((s.core w).inTxn = false → raises (.ldres w f p) 8 ∧ raises (.stcond w f) 8))

/-- Outside a transaction item's operator mode, a served LDRES gives rt the 8 bytes at its address, changes no byte of memory, and opens a reservation on the
granule of that address where it lies in HBM, DDR5 or green room, and none elsewhere. STCOND, where its access passes its checks, closes the
reservation: while a reservation that covers its 8 bytes holds it puts them into the store buffer and gives 0 in rt, waiting while the buffer has no
room; without one, or at an address that cannot carry one, it stores nothing and gives 1. In operator mode of a transaction item both raise PRIV, cause 2
(R226, R254). -/
def Obligations.ReservationResults : Prop :=
  ∀ (w : CoreRef) (f : FmtM) (p : Bool) (s : State), s.Canon → s.CoreReady w →
    let x := s.core w
    let a := x.memAddr f 8
    let g := 128 * 2 ^ s.fld (pageOf .clu w.c.val) 0x414 1 0
    (x.inTxn = true → Raises (.ldres w f p) w s 2 ∧ Raises (.stcond w f) w s 2) ∧
    (x.inTxn = false → s.LoadServed w a 8 → Answers (.ldres w f p) s (fun t =>
      t.core w = x.counted { x.setGr f.rt.toNat (BitVec.ofNat 64 (Word.leValue (s.loaded w a 8))) with
        pc := x.pc + 4, ioReady := false, ioOpen := false, remote := [],
        resv := if s.reservable a = true then some (a - a % g, g) else none } ∧
      (∀ b, t.byteAt b = s.byteAt b) ∧ (p = true → s.l1Held (coreKey w) a = true →
        t.reg (corePage (coreKey w)) 0x050 = s.reg (corePage (coreKey w)) 0x050 + 1))) ∧
    (x.inTxn = false → x.ioOpen = false → s.checkAccess (coreKey w) .store a 8 = none →
      (s.classOf a = .register → x.ioReady = true) →
      let holds := s.reservable a = true ∧ ∃ b n, x.resv = some (b, n) ∧ b ≤ a ∧ a + 8 ≤ b + n
      (holds → x.sb.length + sbNeeds x.sb a 8 ≤ 16 →
        Retires (.stcond w f) w s { (x.stored s.classOf a (Word.leBytes 8 (x.gr f.rt.toNat).toNat)).setGr f.rt.toNat 0 with resv := none }) ∧
      (holds → 16 < x.sb.length + sbNeeds x.sb a 8 → exec (.stcond w f) s = .next s) ∧
      (¬ holds → Retires (.stcond w f) w s
        { x.setGr f.rt.toNat 1 with ioReady := false, ioOpen := false, remote := [], resv := none }))

/-- The fabric accepts the oldest entry of a store buffer where its block is memory class that answers and the L2 is not being disabled: the entry leaves the
buffer, and every byte of device memory reads as the entry has it where it holds one and as before elsewhere (R220, R250). -/
def Claims.StoreAcceptedWritesMemory : Prop :=
  ∀ (w : CoreRef) (s : State) (e : SbEntry) (r : List SbEntry), s.Canon → (s.core w).sb = e :: r →
    (∀ o, o < 256 → s.classOf (e.block * 256 + o) = .memory ∧ s.populated (e.block * 256 + o) = true ∧
      s.frozenAt (e.block * 256 + o) = false) →
    (∀ p, p ∈ e.bytes → p.1 < 256) → (e.bytes.map Prod.fst).Pairwise (· < ·) → s.l2Waits w.c.val = false →
    Answers (.storeAccepted w) s (fun t =>
      (t.core w).sb = r ∧ (t.core w).g = (s.core w).g ∧ (t.core w).pc = (s.core w).pc ∧
      (∀ p, p ∈ e.bytes → t.byteAt (e.block * 256 + p.1) = p.2) ∧
      (∀ b, (∀ p, p ∈ e.bytes → b ≠ e.block * 256 + p.1) → t.byteAt b = s.byteAt b))

/-- A store to a window that is lost leaves the buffer: FSTAT.REMOTE_LOST is set, and REMOTE_HOST for the host window, FSTAT_ADDR latches
the first such store's address, and REMOTE_LOST.COUNT counts it (R223). -/
def Claims.RemoteStoreLostIsRecorded : Prop :=
  ∀ (w : CoreRef) (s : State) (e : SbEntry) (r : List SbEntry), s.Canon → (s.core w).sb = e :: r →
    s.classOf (e.block * 256) = .remote → s.hostReachable = false →
    (∀ p, s.region (e.block * 256) = .wing p → s.wingReachable p = false) →
    let pg := corePage (coreKey w)
    Answers (.remoteStoreLost w) s (fun t =>
      (t.core w).sb = r ∧ t.fld pg 0x040 0 0 = 1 ∧ (s.region (e.block * 256) = .host → t.fld pg 0x040 1 1 = 1) ∧
      (s.fld pg 0x040 0 0 = 0 → t.pageAddr pg 0x044 0x048 = (e.block * 256 + (e.bytes.headD (0, 0)).1) % 2 ^ 48) ∧
      (s.fld pg 0x040 0 0 = 1 → t.pageAddr pg 0x044 0x048 = s.pageAddr pg 0x044 0x048) ∧
      t.reg pg 0x04C = s.reg pg 0x04C + 1 ∧ t.mem = s.mem ∧ t.host = s.host)

/-- A prefetch hint raises no exception, changes no byte of memory and goes on while the L2 is not being disabled; one that misses the L2 under no bypass
counts a miss, and PF.L1 leaves the line in the L1 data cache of its core where the L2 then holds it. CLEAN, INVAL and CLEAN_INVAL, outside operator mode
and while the L2 is idle, act on the line of their address in the L2 of their cluster: written back and kept, dropped with its dirty data discarded, and
written back and dropped; no L1 data cache of the cluster keeps a line dropped (R205, R236, R239, R240). -/
def Obligations.CacheInstructionResults : Prop :=
  ∀ (w : CoreRef) (f : FmtM) (s : State), s.Canon → s.CoreReady w → f.rt = 0 →
    let x := s.core w
    let a := x.memAddr f 128
    let l2 := (s.cluster w.c.val).l2
    let goesOn := fun (t : State) => (t.core w).pc = x.pc + 4 ∧ (t.core w).g = x.g ∧ (t.core w).sb = x.sb
    let gone := fun (t : State) (k : Nat) => l2At (t.cluster w.c.val).l2 k = none ∧ ∀ j, j < 16 → t.l1Held (w.c.val * 16 + j) a = false
    let holds := fun (t : State) => (l2Find (t.cluster w.c.val).l2 (a / 128)).isSome = true
    let fetches := s.cacheable a = true ∧ s.checkAccess (coreKey w) .load (a - a % 8) 1 = none ∧ s.frozenAt a = false ∧
      s.bypassed w.c.val = false
    let missed := fun (t : State) => fetches → ¬ holds s → t.reg (l2Page w.c.val) 0x058 = s.reg (l2Page w.c.val) 0x058 + 1
    (s.l2Waits w.c.val = false →
      Answers (.pfL1 w f) s (fun t => goesOn t ∧ (∀ b, t.byteAt b = s.byteAt b) ∧ (s.l1Held (coreKey w) a = false → missed t) ∧
        (fetches → holds t → t.l1Held (coreKey w) a = true)) ∧
      Answers (.pfL2 w f) s (fun t => goesOn t ∧ (∀ b, t.byteAt b = s.byteAt b) ∧ missed t)) ∧
    (x.mode ≠ .operator → l2.op = none → s.cacheable a = true →
      ∀ k l, l2Find l2 (a / 128) = some k → l2At l2 k = some l → l.lineNo = a / 128 →
        Answers (.clean w f) s (fun t => goesOn t ∧ (∀ b, t.byteAt b = s.byteAt b) ∧
          (∃ l', l2At (t.cluster w.c.val).l2 k = some l' ∧ l'.lineNo = l.lineNo ∧ l'.dirty = false)) ∧
        Answers (.inval w f) s (fun t => goesOn t ∧ gone t k ∧
          (l.dirty = true → l.backing.length = 128 → t.bytesAt (a / 128 * 128) 128 = l.backing) ∧
          (l.dirty = false → ∀ b, t.byteAt b = s.byteAt b)) ∧
        Answers (.cleanInval w f) s (fun t => goesOn t ∧ gone t k ∧ ∀ b, t.byteAt b = s.byteAt b))

/-! ## Cores: system instructions -/

/-- MFS gives VL, COUNT, BUDGET and CLUSTER zero-extended, and outside operator mode FSCR, CORE_ID, a CYCLE that is a free value, and the words of the core's own
CORE page; MTS writes VL as at most 256, and outside operator mode COUNT, BUDGET and FSCR; in operator mode its writes of COUNT and BUDGET change
nothing, as those of CLUSTER never do (R198). -/
def Claims.SystemRegisterResults : Prop :=
  ∀ (w : CoreRef) (f : FmtS) (s : State), s.Canon → s.CoreReady w →
    let x := s.core w
    let v := x.gr f.ra.toNat
    let low := v.setWidth 32
    (f.ra = 0 →
      (f.sys = 0x800#12 → Retires (.mfs w f) w s (x.setGr f.rd.toNat (BitVec.ofNat 64 x.vl))) ∧
      (∀ n, n < 8 → f.sys.toNat = 0x801 + n → Retires (.mfs w f) w s (x.setGr f.rd.toNat ((x.cnt n).setWidth 64))) ∧
      (∀ n, n < 8 → f.sys.toNat = 0x810 + n → Retires (.mfs w f) w s (x.setGr f.rd.toNat ((x.bud n).setWidth 64))) ∧
      (f.sys = 0x818#12 → Retires (.mfs w f) w s (x.setGr f.rd.toNat (BitVec.ofNat 64 w.c.val))) ∧
      (x.mode ≠ .operator →
        (∀ n, n < 2 → f.sys.toNat = 0x81C + n → Retires (.mfs w f) w s (x.setGr f.rd.toNat (x.fs n))) ∧
        (f.sys = 0x819#12 → Retires (.mfs w f) w s (x.setGr f.rd.toNat (BitVec.ofNat 64 (16 * w.c.val + w.k.val)))) ∧
        (f.sys = 0x81A#12 → Answers (.mfs w f) s (fun t =>
          t.core w = x.counted { x.setGr f.rd.toNat (Config.freeWord s.fresh) with pc := x.pc + 4 } ∧ t.mem = s.mem ∧ t.regs = s.regs)) ∧
        (f.sys.toNat < 0x400 → Answers (.mfs w f) s (fun t => (t.core w).pc = x.pc + 4 ∧ t.mem = s.mem ∧
          (t.core w).g = (x.setGr f.rd.toNat ((s.pageRead (.core (coreKey w)) (corePage (coreKey w)) (4 * f.sys.toNat)).1.setWidth 64)).g)))) ∧
    (f.rd = 0 →
      (f.sys = 0x800#12 → Retires (.mts w f) w s { x with vl := min low.toNat 256 }) ∧
      (f.sys = 0x818#12 → Retires (.mts w f) w s x) ∧
      (x.mode = .operator → ∀ n, n < 8 → f.sys.toNat = 0x801 + n ∨ f.sys.toNat = 0x810 + n → Retires (.mts w f) w s x) ∧
      (x.mode ≠ .operator →
        (∀ n, n < 8 → f.sys.toNat = 0x801 + n → Retires (.mts w f) w s (x.setCnt n low)) ∧
        (∀ n, n < 8 → f.sys.toNat = 0x810 + n → Retires (.mts w f) w s (x.setBud n low)) ∧
        (∀ n, n < 2 → f.sys.toNat = 0x81C + n → Retires (.mts w f) w s (x.setFs n v))))

/-- In operator mode MFS and MTS of a CORE page word, CORE_ID, CYCLE or FSCR, and TAKE, RET and the cache maintenance instructions, raise PRIV, cause 2
(R197, R198, R203). -/
def Claims.OperatorModeIsRefusedPrivilege : Prop :=
  ∀ (w : CoreRef) (f : FmtS) (g : FmtM) (s : State), s.Canon → s.CoreReady w → (s.core w).mode = .operator →
    (f.rd = 0 → f.ra = 0 → f.sys = 0 → Raises (.take w f) w s 2 ∧ Raises (.ret w f) w s 2) ∧
    (g.rt = 0 → Raises (.clean w g) w s 2 ∧ Raises (.inval w g) w s 2 ∧ Raises (.cleanInval w g) w s 2) ∧
    let closed := f.sys.toNat < 0x400 ∨ f.sys = 0x819#12 ∨ f.sys = 0x81A#12 ∨ f.sys = 0x81C#12 ∨ f.sys = 0x81D#12
    (f.ra = 0 → closed → Raises (.mfs w f) w s 2) ∧ (f.rd = 0 → closed → Raises (.mts w f) w s 2)

/-- Outside operator mode TAKE with an empty store buffer and no item waits for the dispatcher, its reservation gone; with an item it raises ITEM_STATE, cause 10. BAR.S
bars every entry of the store buffer to younger stores; BAR.A and BAR.IO retire where the buffer is empty, BAR.IO opening the bracket of a register
access, and change nothing where it is not (R212, R221, R225, R226). -/
def Claims.TakeAndBarrierResults : Prop :=
  ∀ (w : CoreRef) (f : FmtS) (s : State), s.Canon → s.CoreReady w →
    let x := s.core w
    (f.ra = 0 → f.sys = 0 → x.mode ≠ .operator → x.held = none → x.sb = [] →
      Answers (.take w f) s (fun t => t.core w = { x with take := some (s.stamp, f.rd.toNat), resv := none } ∧ t.stamp = s.stamp + 1 ∧
        t.mem = s.mem ∧ t.regs = s.regs)) ∧
    (f.ra = 0 → f.sys = 0 → x.mode = .firmware → x.held ≠ none → Raises (.take w f) w s 10) ∧
    (f.rd = 0 → f.ra = 0 → f.sys = 0 →
      Retires (.barS w f) w s { x with sb := x.sb.map (fun e => { e with barred := true }) } ∧
      (x.sb = [] → Retires (.barA w f) w s x ∧ Retires (.barIo w f) w s { x with ioReady := true, ioOpen := false }) ∧
      (x.sb ≠ [] → exec (.barA w f) s = .next s ∧ exec (.barIo w f) s = .next s))

/-- Outside handler mode TRAP takes exception TRAP, cause 11, with the instruction's word, and so its code, in EINST; outside operator mode RET restores the
mode that EMODE names and the pc that EPC holds and ends the reservation (R196, R203, R215, R226). -/
def Claims.TrapAndReturnResults : Prop :=
  ∀ (w : CoreRef) (f : FmtS) (s : State), s.Canon → s.CoreReady w → f.rd = 0 → f.ra = 0 →
    ((s.core w).mode ≠ .handler → Raises (.trap w f) w s 11 ∧
      Answers (.trap w f) s (fun t => t.reg (corePage (coreKey w)) 0x06C = 0xC0000008#32 ||| (f.sys.setWidth 32 <<< 4))) ∧
    (f.sys = 0 → (s.core w).mode ≠ .operator →
      let mode := if s.fld (corePage (coreKey w)) 0x070 1 1 = 0 then Mode.operator else Mode.firmware
      RetiresAt (.ret w f) w s { s.core w with
        mode := mode, pc := BitVec.ofNat 64 (s.pageAddr (corePage (coreKey w)) 0x054 0x058), resv := none, inCic := false })

/-- Outside handler mode an instruction of those listed, with a field that it does not use and that is not 0, raises ILLEGAL, cause 1: rb of the bit
counts, BSWAP, JALR and JAL, IMM[15:8] of the shift immediates, a halfword above 3 of MOVZ and MOVK, vb of VMV and VSPLAT, MSK of MAND, VEXT and VINS; and
so does a MSK of 0 where VSEL, VCOMPRESS and VEXPAND need a mask (R202, R207).
That MSK and EW count among them where an instruction does not use them is the model's reading (log entry 8). -/
def Claims.UnusedFieldsRaiseIllegal : Prop :=
  ∀ (w : CoreRef) (s : State), s.Canon → s.CoreReady w → (s.core w).mode ≠ .handler →
    (∀ a : FmtA, a.rb ≠ 0 → Raises (.clz w a) w s 1 ∧ Raises (.ctz w a) w s 1 ∧ Raises (.popc w a) w s 1 ∧ Raises (.bswap w a) w s 1 ∧
      Raises (.jalr w a) w s 1) ∧
    (∀ a : FmtSh, a.hi ≠ 0 → Raises (.sllImm w a) w s 1 ∧ Raises (.srlImm w a) w s 1 ∧ Raises (.sraImm w a) w s 1 ∧
      Raises (.rotlImm w a) w s 1) ∧
    (∀ a : FmtI, 4 ≤ a.ra.toNat → Raises (.movz w a) w s 1 ∧ Raises (.movk w a) w s 1) ∧
    (∀ b : FmtB, b.rb ≠ 0 → Raises (.jal w b) w s 1) ∧
    (∀ v : FmtV, v.vb ≠ 0 → Raises (.vmv w v) w s 1 ∧ Raises (.vsplat w v) w s 1) ∧
    (∀ v : FmtV, v.msk ≠ 0 → Raises (.mand w v) w s 1 ∧ Raises (.vext w v) w s 1 ∧ Raises (.vins w v) w s 1) ∧
    (∀ v : FmtV, v.msk = 0 → Raises (.vsel w v) w s 1 ∧ Raises (.vcompress w v) w s 1 ∧ Raises (.vexpand w v) w s 1)

/-- Any exception raised in handler mode is a double fault: the core stops and sets FSTAT.DOUBLE, UNIT_STATE becomes FAULT, the core's bit of
CLU.FAULT.CORES is set, its buffer is discarded, and with that the module enters the safety curtain, class 2 (R219, R222). Shown of the operation that
takes every exception, and of TRAP, an illegal CLZ, DONE without an item and a misaligned LDD. -/
def Obligations.DoubleFaultStopsTheCore : Prop :=
  ∀ (w : CoreRef) (s : State), s.Canon → s.CoreReady w → (s.core w).mode = .handler →
    let pg := corePage (coreKey w)
    let clu := pageOf .clu w.c.val
    let fault := fun (t : State) => ∃ u : State, t = u.enterCurtain 2 pg ∧
      (u.core w).stopped = true ∧ (u.core w).sb = [] ∧ u.fld pg 0x040 2 2 = 1 ∧ u.fld pg 0x00C 3 0 = 5 ∧
      u.fld clu 0x040 w.k.val w.k.val = 1 ∧ u.fld clu 0x010 0 0 = 1 ∧ u.mem = s.mem
    let doubles := fun (i : Instr) => Answers i s fault
    (∀ (info : InstrInfo) (e : Exc), fault (s.takeException (coreKey w) info e)) ∧
    (∀ f : FmtS, f.rd = 0 → f.ra = 0 → doubles (.trap w f)) ∧
    (∀ a : FmtA, a.rb ≠ 0 → doubles (.clz w a)) ∧
    (∀ (f : FmtS) (out : List NodePlan), f.rd = 0 → f.sys = 0 → (s.core w).held = none → doubles (.done w f out)) ∧
    (∀ (f : FmtM) (p : Bool), (s.core w).memAddr f 8 % 8 ≠ 0 → doubles (.ldd w f p))

/-- An instruction of the item context that would take COUNT0 above BUDGET0 does not retire: it raises BUDGET, cause 9, with ECAUSE.COUNTER 0
(R214). Shown of ADD and MUL. -/
def Claims.OpsBudgetStopsTheItem : Prop :=
  ∀ (w : CoreRef) (a : FmtA) (s : State) (h : Held), s.Canon → s.Fetches w → s.fetched w = s → (s.core w).held = some h → h.checked = true →
    (s.core w).mode ≠ .handler → ((s.core w).bud 0).toNat < ((s.core w).cnt 0).toNat + 1 →
    Raises (.add w a) w s 9 ∧ Raises (.mul w a) w s 9 ∧
    Answers (.add w a) s (fun t => (t.reg (corePage (coreKey w)) 0x05C).toNat = 9 ∧ (t.core w).count = (s.core w).count)

/-- Every instruction of a core runs on the module as its fetch leaves it, a fetch of a cacheable line the L1 instruction cache of the core then holding that line; the fetch
changes no byte of memory and of its core at most a reservation, and a parity error of a line that the L1 instruction cache held is counted in L1_PARITY and
sets its flag (R194, R195, R235). -/
def Obligations.InstructionFetches : Prop :=
  FetchedFirst [Instr.add, Instr.sub, Instr.and, Instr.or, Instr.xor, Instr.andn, Instr.sll, Instr.srl, Instr.sra, Instr.rotl, Instr.slt,
    Instr.sltu, Instr.min, Instr.minu, Instr.max, Instr.maxu, Instr.clz, Instr.ctz, Instr.popc, Instr.bswap, Instr.crc32cB, Instr.crc32cH,
    Instr.crc32cW, Instr.crc32cD, Instr.mul, Instr.mulh, Instr.mulhu, Instr.div, Instr.divu, Instr.rem, Instr.remu, Instr.jalr] ∧
  FetchedFirst [Instr.addi, Instr.andi, Instr.ori, Instr.xori, Instr.slti, Instr.sltiu, Instr.movz, Instr.movk] ∧
  FetchedFirst [Instr.sllImm, Instr.srlImm, Instr.sraImm, Instr.rotlImm] ∧
  FetchedFirst [Instr.beq, Instr.bne, Instr.blt, Instr.bge, Instr.bltu, Instr.bgeu, Instr.jal] ∧
  FetchedFirst [Instr.stb, Instr.sth, Instr.stw, Instr.std, Instr.stcond, Instr.pfL1, Instr.pfL2, Instr.clean, Instr.inval,
    Instr.cleanInval] ∧
  (∀ p : Bool, FetchedFirst [fun w f => Instr.ldb w f p, fun w f => .ldbu w f p, fun w f => .ldh w f p, fun w f => .ldhu w f p,
    fun w f => .ldw w f p, fun w f => .ldwu w f p, fun w f => .ldd w f p, fun w f => .ldres w f p]) ∧
  FetchedFirst [Instr.mfs, Instr.mts, Instr.take, Instr.barS, Instr.barA, Instr.barIo, Instr.ret, Instr.trap] ∧
  (∀ plan, FetchedFirst [fun w f => Instr.done w f plan]) ∧
  (∀ sc : Bool, FetchedFirst [fun w f => Instr.vadd w f sc, fun w f => .vsub w f sc, fun w f => .vmul w f sc, fun w f => .vmulh w f sc,
    fun w f => .vmulhu w f sc, fun w f => .vmin w f sc, fun w f => .vminu w f sc, fun w f => .vmax w f sc, fun w f => .vmaxu w f sc,
    fun w f => .vand w f sc, fun w f => .vor w f sc, fun w f => .vxor w f sc, fun w f => .vandn w f sc, fun w f => .vsll w f sc,
    fun w f => .vsrl w f sc, fun w f => .vsra w f sc, fun w f => .vrotl w f sc, fun w f => .vaddsu w f sc, fun w f => .vsubsu w f sc,
    fun w f => .vadds w f sc, fun w f => .vsubs w f sc, fun w f => .vcmpEq w f sc, fun w f => .vcmpNe w f sc, fun w f => .vcmpLt w f sc,
    fun w f => .vcmpLtu w f sc, fun w f => .vcmpLe w f sc, fun w f => .vcmpLeu w f sc, fun w f => .vcmpGt w f sc,
    fun w f => .vcmpGtu w f sc, fun w f => .vcmpGe w f sc, fun w f => .vcmpGeu w f sc, fun w f => .vcmpTest w f sc]) ∧
  FetchedFirst [Instr.mand, Instr.mor, Instr.mxor, Instr.mandn, Instr.mnot, Instr.mset, Instr.mclr, Instr.mpop, Instr.mfirst, Instr.vsel,
    Instr.vsetvl, Instr.vsplat, Instr.vext, Instr.vins, Instr.vmv, Instr.viota, Instr.vslideup, Instr.vslidedn, Instr.vst, Instr.vsts,
    Instr.vscatterW, Instr.vscatterD, Instr.vstm, Instr.vcompress, Instr.vexpand, Instr.vredadd, Instr.vredadds, Instr.vredaddsu,
    Instr.vredmin, Instr.vredminu, Instr.vredmax, Instr.vredmaxu, Instr.vredand, Instr.vredor, Instr.vredxor] ∧
  (∀ (n : Fin 3) (iw : Bool), FetchedFirst [fun w f => Instr.vtbl w f n iw, fun w f => .vtbl2 w f n]) ∧
  FetchedFirst [Instr.vld, Instr.vlds, Instr.vgatherW, Instr.vgatherD, Instr.vldm] ∧
  (∀ (w : CoreRef) (s : State), s.Canon → s.Fetches w →
    let key := coreKey w
    let pc := (s.core w).pc.toNat
    let t := s.fetched w
    (s.cacheable pc = true → t.l1iHeld key pc = true) ∧ (∀ b, t.byteAt b = s.byteAt b) ∧
    t.core w = { s.core w with resv := (t.core w).resv } ∧
    (w.parity = true → s.l1iHeld key pc = true → t.reg (corePage key) 0x050 = s.reg (corePage key) 0x050 + 1 ∧
      t.fld (corePage key) 0x040 3 3 = 1 ∧ t.fld (corePage key) 0x010 2 2 = 1) ∧
    (w.parity = false ∨ s.l1iHeld key pc = false → t.reg (corePage key) 0x050 = s.reg (corePage key) 0x050))
/-! ## Cores: vector instructions -/

/-- The element instructions of MAJOR 0x20 give vd[e] ← va[e] op vb[e], or op gb, for every active element at every width, keep the
inactive elements, read all sources first and change nothing else (R200, R206, R207). -/
def Claims.VectorElementResults : Prop :=
  VecResult Instr.vadd (fun _ a b => a + b) ∧
  VecResult Instr.vsub (fun _ a b => a - b) ∧
  VecResult Instr.vmul (fun _ a b => a * b) ∧
  VecResult Instr.vmulh (fun n a b => (a.signExtend (2 * n) * b.signExtend (2 * n)).extractLsb' n n) ∧
  VecResult Instr.vmulhu (fun n a b => (a.setWidth (2 * n) * b.setWidth (2 * n)).extractLsb' n n) ∧
  VecResult Instr.vmin (fun _ a b => if a.sle b = true then a else b) ∧
  VecResult Instr.vminu (fun _ a b => if a.ule b = true then a else b) ∧
  VecResult Instr.vmax (fun _ a b => if b.sle a = true then a else b) ∧
  VecResult Instr.vmaxu (fun _ a b => if b.ule a = true then a else b) ∧
  VecResult Instr.vand (fun _ a b => a &&& b) ∧
  VecResult Instr.vor (fun _ a b => a ||| b) ∧
  VecResult Instr.vxor (fun _ a b => a ^^^ b) ∧
  VecResult Instr.vandn (fun _ a b => a &&& ~~~b) ∧
  VecResult Instr.vsll (fun n a b => a <<< (b.toNat % n)) ∧
  VecResult Instr.vsrl (fun n a b => a >>> (b.toNat % n)) ∧
  VecResult Instr.vsra (fun n a b => a.sshiftRight (b.toNat % n)) ∧
  VecResult Instr.vrotl (fun n a b => a.rotateLeft (b.toNat % n)) ∧
  VecResult Instr.vaddsu (fun n a b => clampU n (a.toNat + b.toNat)) ∧
  VecResult Instr.vsubsu (fun n a b => clampU n (a.toNat - b.toNat)) ∧
  VecResult Instr.vadds (fun n a b => clampS n (a.toInt + b.toInt)) ∧
  VecResult Instr.vsubs (fun n a b => clampS n (a.toInt - b.toInt))

/-- The comparisons write bit e of m[vd] for every active element and 0 elsewhere; TEST is (va[e] AND vb[e]) ≠ 0 (R207). -/
def Claims.VectorCompareResults : Prop :=
  CmpResult Instr.vcmpEq (fun _ a b => a == b) ∧
  CmpResult Instr.vcmpNe (fun _ a b => a != b) ∧
  CmpResult Instr.vcmpLt (fun _ a b => a.slt b) ∧
  CmpResult Instr.vcmpLtu (fun _ a b => a.ult b) ∧
  CmpResult Instr.vcmpLe (fun _ a b => a.sle b) ∧
  CmpResult Instr.vcmpLeu (fun _ a b => a.ule b) ∧
  CmpResult Instr.vcmpGt (fun _ a b => b.slt a) ∧
  CmpResult Instr.vcmpGtu (fun _ a b => b.ult a) ∧
  CmpResult Instr.vcmpGe (fun _ a b => b.sle a) ∧
  CmpResult Instr.vcmpGeu (fun _ a b => b.ule a) ∧
  CmpResult Instr.vcmpTest (fun _ a b => a &&& b != 0)

/-- The mask instructions work on the bits below L and leave 0 from L up; MPOP counts the set bits below L and MFIRST gives the lowest, or
all ones (R207). -/
def Claims.MaskResults : Prop :=
  MaskResult Instr.mand (fun f => f.va.toNat < 8 ∧ f.vb.toNat < 8) (fun a b => a && b) ∧
  MaskResult Instr.mor (fun f => f.va.toNat < 8 ∧ f.vb.toNat < 8) (fun a b => a || b) ∧
  MaskResult Instr.mxor (fun f => f.va.toNat < 8 ∧ f.vb.toNat < 8) (fun a b => a != b) ∧
  MaskResult Instr.mandn (fun f => f.va.toNat < 8 ∧ f.vb.toNat < 8) (fun a b => a && !b) ∧
  MaskResult Instr.mnot (fun f => f.va.toNat < 8 ∧ f.vb = 0) (fun a _ => !a) ∧
  MaskResult Instr.mset (fun f => f.va = 0 ∧ f.vb = 0) (fun _ _ => true) ∧
  MaskResult Instr.mclr (fun f => f.va = 0 ∧ f.vb = 0) (fun _ _ => false) ∧
  (∀ (w : CoreRef) (f : FmtV) (s : State), s.Canon → s.CoreReady w → f.msk = 0 → f.vb = 0 → f.va.toNat < 8 →
    let x := s.core w
    let on := fun e => e < x.activeLen f.ew ∧ (x.mr f.va.toNat).getLsbD e = true
    (∃ n : Nat, Retires (.mpop w f) w s (x.setGr f.vd.toNat (BitVec.ofNat 64 n)) ∧
      n = (List.range (x.activeLen f.ew)).countP (fun e => (x.mr f.va.toNat).getLsbD e)) ∧
    (∀ e, on e → (∀ e', e' < e → ¬ on e') → Retires (.mfirst w f) w s (x.setGr f.vd.toNat (BitVec.ofNat 64 e))) ∧
    ((∀ e, ¬ on e) → Retires (.mfirst w f) w s (x.setGr f.vd.toNat (BitVec.allOnes 64))))

/-- The element moves (R207): VSEL by the mask below L, VSETVL, VSPLAT, VEXT and VINS at any element whatever VL and MSK are, VMV, VIOTA and the
two slides. -/
def Claims.VectorMoveResults : Prop :=
  (∀ (w : CoreRef) (f : FmtV) (s : State), s.Canon → s.CoreReady w → f.msk ≠ 0 →
    VecWrites (.vsel w f) w f s (fun e => if e < (s.core w).activeLen f.ew then
      some (if ((s.core w).mr f.msk.toNat).getLsbD e = true then (s.core w).va f e else (s.core w).vb f false e) else none)) ∧
  (∀ (w : CoreRef) (f : FmtV) (s : State), s.Canon → s.CoreReady w → f.msk = 0 → f.vb = 0 →
    let n := min ((s.core w).gr f.va.toNat).toNat (2048 / ewBits f.ew)
    Retires (.vsetvl w f) w s { (s.core w).setGr f.vd.toNat (BitVec.ofNat 64 n) with vl := n }) ∧
  (∀ (w : CoreRef) (f : FmtV) (s : State), s.Canon → s.CoreReady w → f.msk = 0 →
    let i := ((s.core w).gr f.vb.toNat).toNat
    Retires (.vext w f) w s ((s.core w).setGr f.vd.toNat (if i < ewCount f.ew then ((s.core w).va f i).setWidth 64 else 0)) ∧
    (i < ewCount f.ew → VecWrites (.vins w f) w f s (fun e =>
      if e = i then some (((s.core w).gr f.va.toNat).setWidth (ewBits f.ew)) else none)) ∧
    (ewCount f.ew ≤ i → Retires (.vins w f) w s (s.core w))) ∧
  MoveResult Instr.vsplat (fun f => f.vb = 0) (fun x f _ => (x.gr f.va.toNat).setWidth (ewBits f.ew)) ∧
  MoveResult Instr.vmv (fun f => f.vb = 0) (fun x f e => x.va f e) ∧
  MoveResult Instr.viota (fun f => f.va = 0 ∧ f.vb = 0) (fun _ f e => BitVec.ofNat (ewBits f.ew) e) ∧
  MoveResult Instr.vslidedn (fun _ => True) (fun x f e =>
    if e + (x.gr f.vb.toNat).toNat < ewCount f.ew then x.va f (e + (x.gr f.vb.toNat).toNat) else 0) ∧
  (∀ (w : CoreRef) (f : FmtV) (s : State), s.Canon → s.CoreReady w →
    VecWrites (.vslideup w f) w f s (fun e =>
      if (s.core w).active f.ew f.msk e = true ∧ ((s.core w).gr f.vb.toNat).toNat ≤ e then
        some ((s.core w).va f (e - ((s.core w).gr f.vb.toNat).toNat)) else none))

/-- VTBL looks each index up in the N × 2,048 / EW entries of registers va to va + N − 1, N being 1, 2 or 4 and the index 8 or 16 bits wide,
and gives 0 beyond the last entry; a table or an index operand that would name a register beyond v31 raises ILLEGAL (R206, R208). -/
def Obligations.TableLookupResults : Prop :=
  ∀ (w : CoreRef) (f : FmtV) (k : Fin 3) (iw16 : Bool) (s : State), s.Canon → s.CoreReady w →
    let x := s.core w
    let n := 2 ^ k.val
    let iw := if iw16 = true then 16 else 8
    let per := 2048 / ewBits f.ew
    let index := fun e => ((x.vr (f.vb.toNat + e * iw / 2048)).extractLsb' (iw * (e % (2048 / iw))) iw).toNat
    let entry := fun i => elemOf (x.vr (f.va.toNat + i / per)) f.ew (i % per)
    let fits := f.va.toNat + n ≤ 32 ∧ f.vb.toNat + (per * iw + 2047) / 2048 ≤ 32
    (fits → VecWrites (.vtbl w f k iw16) w f s (fun e => if x.active f.ew f.msk e = true then
      some (if index e < n * per then entry (index e) else 0) else none)) ∧
    (¬ fits → x.mode ≠ .handler → Raises (.vtbl w f k iw16) w s 1)

/-- VTBL2 takes byte e of vb through the 256 bytes of va and the byte found there through the T registers va + 1 to va + T of EW-bit
entries, and gives 0 beyond the last entry; a table beyond v31 raises ILLEGAL (R206, R209). -/
def Obligations.TwoLevelLookupResults : Prop :=
  ∀ (w : CoreRef) (f : FmtV) (k : Fin 3) (s : State), s.Canon → s.CoreReady w →
    let x := s.core w
    let t := k.val + 1
    let per := 2048 / ewBits f.ew
    let first := fun e => ((x.vr f.va.toNat).extractLsb' (8 * ((x.vr f.vb.toNat).extractLsb' (8 * e) 8).toNat) 8).toNat
    let entry := fun y => elemOf (x.vr (f.va.toNat + 1 + y / per)) f.ew (y % per)
    (f.va.toNat + t + 1 ≤ 32 → VecWrites (.vtbl2 w f k) w f s (fun e => if x.active f.ew f.msk e = true then
      some (if first e < t * per then entry (first e) else 0) else none)) ∧
    (32 < f.va.toNat + t + 1 → x.mode ≠ .handler → Raises (.vtbl2 w f k) w s 1)

/-- VCOMPRESS packs the active elements of va and fills with 0 up to L; VEXPAND gives the active elements va[0], va[1], … in ascending order
(R207). -/
def Claims.CompressAndExpandResults : Prop :=
  ∀ (w : CoreRef) (f : FmtV) (s : State), s.Canon → s.CoreReady w → f.msk ≠ 0 → f.vb = 0 →
    let x := s.core w
    let act := (List.range (ewCount f.ew)).filter (fun e => x.active f.ew f.msk e)
    VecWrites (.vcompress w f) w f s (fun j => if j < x.activeLen f.ew then
      some (match act[j]? with
        | some e => x.va f e
        | none => 0) else none) ∧
    VecWrites (.vexpand w f) w f s (fun e => if x.active f.ew f.msk e = true then
      some (x.va f ((List.range e).countP (fun e' => x.active f.ew f.msk e'))) else none)

/-- A reduction folds the active elements of va, in ascending order, from gb into gd: sign-extended for ADD, ADDS, MIN and MAX and
zero-extended for the others; ADDS and ADDSU saturate at 64 bits at each step (R211). -/
def Obligations.ReductionResults : Prop :=
  ReduceResult Instr.vredadd true (fun a b => a + b) ∧
  ReduceResult Instr.vredadds true (fun a b => clampS 64 (a.toInt + b.toInt)) ∧
  ReduceResult Instr.vredaddsu false (fun a b => clampU 64 (a.toNat + b.toNat)) ∧
  ReduceResult Instr.vredmin true (fun a b => if a.sle b = true then a else b) ∧
  ReduceResult Instr.vredminu false (fun a b => if a.ule b = true then a else b) ∧
  ReduceResult Instr.vredmax true (fun a b => if b.sle a = true then a else b) ∧
  ReduceResult Instr.vredmaxu false (fun a b => if b.ule a = true then a else b) ∧
  ReduceResult Instr.vredand false (fun a b => a &&& b) ∧
  ReduceResult Instr.vredor false (fun a b => a ||| b) ∧
  ReduceResult Instr.vredxor false (fun a b => a ^^^ b)

/-- A vector load whose active elements are all served writes them into vd, keeps the inactive elements and changes no byte of memory: unit
stride, strided, and gathers with 32-bit and 64-bit offsets; VLDM reads 32 bytes into a mask register. A parity error in the L1 data cache is counted once
and gives the same elements (R195, R207, R210). -/
def Claims.VectorLoadResults : Prop :=
  VecLoadResult (fun w f p => .vld w ⟨f, p⟩) .unit ∧ VecLoadResult (fun w f p => .vlds w ⟨f, p⟩) .stride ∧
  VecLoadResult (fun w f p => .vgatherW w ⟨f, p⟩) (.index 32) ∧ VecLoadResult (fun w f p => .vgatherD w ⟨f, p⟩) (.index 64) ∧
  (∀ (w : CoreRef) (f : FmtV) (p : Bool) (s : State), s.Canon → s.CoreReady w → f.vb = 0 → f.msk = 0 → f.ew = 0 → f.vd.toNat < 8 →
    let a := ((s.core w).gr f.va.toNat).toNat
    s.LoadServed w a 32 → Answers (.vldm w ⟨f, p⟩) s (fun t =>
      (t.core w).mr f.vd.toNat = BitVec.ofNat 256 (Word.leValue (s.loaded w a 32)) ∧
      (∀ r, r ≠ f.vd.toNat → (t.core w).mr r = (s.core w).mr r) ∧
      (t.core w).g = (s.core w).g ∧ (t.core w).v = (s.core w).v ∧ (t.core w).pc = (s.core w).pc + 4 ∧ (∀ b, t.byteAt b = s.byteAt b) ∧
      t.reg (corePage (coreKey w)) 0x050 = s.reg (corePage (coreKey w)) 0x050 +
        (if p = true ∧ s.l1Held (coreKey w) a = true then 1 else 0)))

/-- A vector store whose active elements pass their checks and have room in the store buffer puts them into it in ascending order: unit stride,
strided, and scatters; VSTM puts a mask register into it as 32 bytes (R207, R210, R220). -/
def Claims.VectorStoreResults : Prop :=
  VecStoreResult Instr.vst .unit ∧ VecStoreResult Instr.vsts .stride ∧
  VecStoreResult Instr.vscatterW (.index 32) ∧ VecStoreResult Instr.vscatterD (.index 64) ∧
  (∀ (w : CoreRef) (f : FmtV) (s : State), s.Canon → s.CoreReady w → f.vb = 0 → f.msk = 0 → f.ew = 0 → f.vd.toNat < 8 →
    let a := ((s.core w).gr f.va.toNat).toNat
    (s.core w).ioOpen = false → s.checkAccess (coreKey w) .store a 32 = none → s.classOf a = .memory →
    (s.core w).sb.length + sbNeeds (s.core w).sb a 32 ≤ 16 → Answers (.vstm w f) s (fun t =>
      (t.core w).sb = sbStore (s.core w).sb .memory a (Word.leBytes 32 ((s.core w).mr f.vd.toNat).toNat) ∧
      (t.core w).pc = (s.core w).pc + 4 ∧ (t.core w).g = (s.core w).g ∧ t.mem = s.mem ∧ t.regs = s.regs))

/-- Outside handler mode a gather or scatter with an active element in register pages, a wing window or the host window raises CLASS, cause 6, with the lowest
such element in EELEM and its address in EADDR (R210, R216). -/
def Claims.GatherOutsideMemoryRaisesClass : Prop :=
  ∀ (w : CoreRef) (f : FmtV) (p : Bool) (s : State) (e : Nat), s.Canon → s.CoreReady w → (s.core w).mode ≠ .handler → (s.core w).ioOpen = false →
    let x := s.core w
    let outside := fun n e => x.active f.ew f.msk e = true ∧ s.classOf (x.elemAddr f (.index n) e) ≠ .memory
    let raises := fun i n => Raises i w s 6 ∧ Answers i s (fun t =>
      t.fld (corePage (coreKey w)) 0x060 7 0 = e ∧
      t.pageAddr (corePage (coreKey w)) 0x064 0x068 = x.elemAddr f (.index n) e % 2 ^ 48)
    (VecAddr.fits f (.index 32) → outside 32 e → (∀ e', e' < e → ¬ outside 32 e') → raises (.vgatherW w ⟨f, p⟩) 32 ∧ raises (.vscatterW w f) 32) ∧
    (VecAddr.fits f (.index 64) → outside 64 e → (∀ e', e' < e → ¬ outside 64 e') → raises (.vgatherD w ⟨f, p⟩) 64 ∧ raises (.vscatterD w f) 64)
/-! ## Clusters: dispatchers and interrupts -/

/-- POST takes the post block at bits 47:0 of the value stored (R13, R276): it copies a valid record into the background items and writes POST_STATUS 0; one with a bad
kind or reserved flags gets status 2 and records POST_CLASS, and one that finds 4,096 items gets status 1, records POST_FULL and raises its event; the items
are then as before. No other byte of memory changes. A block in the host window is read and answered there while the endpoint may send; a block that
does not answer posts nothing, which is the model's reading (log entry 14). -/
def Claims.PostedRecordsJoinTheItems : Prop :=
  ∀ (c : Fin 12) (addr : BitVec 64) (s : State), s.Canon →
    let a := addr.toNat % 2 ^ 48
    let host := s.region a = .host
    let r := ItemRec.ofBytes (if host then s.hostBytesAt (a - 0xE00000000000) 32 else s.bytesAt a 32)
    let legal := r.flags % 2 = 0 ∧ r.flags / 32 = 0 ∧ (r.kind = 4 ∨ r.kind = 5)
    let recs := fun (u : State) => (u.disp c.val).items.map (fun q => (q.item, q.fg))
    let status := if legal then (if 4096 ≤ (s.disp c.val).bgCount then 1 else 0) else 2
    let answered := fun (t : State) => recs t = (if status = 0 then recs s ++ [(r, false)] else recs s) ∧
      (status = 2 → s.reg (dispPage c.val) 0x020 = 0 → t.reg (dispPage c.val) 0x020 = 0x0104) ∧
      (status = 1 → t.fld (dispPage c.val) 0x010 1 1 = 1 ∧
        (s.reg (dispPage c.val) 0x020 = 0 → t.reg (dispPage c.val) 0x020 = 0x0101))
    let sends := s.hep.frozen = false ∧ s.hep.bme = true ∧ s.hep.d0 = true
    (¬ host → s.rangeOk a 64 = false → exec (.dispPost c addr) s = .next s) ∧
    (host → ¬ sends → exec (.dispPost c addr) s = .next s) ∧
    (¬ host → s.rangeOk a 64 = true → Answers (.dispPost c addr) s (fun t => answered t ∧
      t.bytesAt (a + 32) 2 = Word.leBytes 2 status ∧ (∀ b, b ≠ a + 32 → b ≠ a + 33 → t.byteAt b = s.byteAt b))) ∧
    (host → sends → Answers (.dispPost c addr) s (fun t => answered t ∧ t.mem = s.mem ∧
      t.hostBytesAt (a - 0xE00000000000 + 32) 2 = Word.leBytes 2 status))

/-- SIGNAL ORs its bits into the task's flag word and leaves its mask; a WAITING task whose match test then passes becomes READY, and a task in
another state stays in it. A W1C write to the flags, with the expert lock off, clears the bits written 1 (R277, R280). -/
def Claims.SignalsSetTaskFlags : Prop :=
  ∀ (c : Fin 12) (bits task : BitVec 32) (s : State), s.Canon →
    let n := task.toNat % 64
    let pg := dispPage c.val
    let flags := fun (u : State) (k : Nat) => u.reg pg (taskOff k + 8)
    Answers (.dispSignal c bits task) s (fun t =>
      flags t n = flags s n ||| bits ∧ t.reg pg (taskOff n + 4) = s.reg pg (taskOff n + 4) ∧
      (s.taskState c.val n = 1 → t.taskState c.val n = if t.taskMatches c.val n = true then 2 else 1) ∧
      (s.taskState c.val n ≠ 1 → t.taskState c.val n = s.taskState c.val n) ∧
      t.mem = s.mem ∧ t.cores = s.cores) ∧
    (s.fld pg 0x034 0 0 = 1 → ∀ k : Fin 64, Answers (.taskFlagsClear c k bits) s (fun t =>
      flags t k.val = flags s k.val &&& ~~~bits ∧ t.mem = s.mem ∧ t.cores = s.cores))

/-- With the expert lock off, a disabled task that EN enables waits, or is ready where its flags match its mask; one that EN disables while it waits or is
ready is disabled; a running one stays running; the write stores EN, ALL, FG and PRIO, and a MASK write its mask, after which a waiting task that matches is
ready and a ready one that does not match waits. With the lock on neither write changes the task's state, and both record EXPERT_LOCKED (R280, R504). -/
def Claims.TaskControlMovesTasks : Prop :=
  ∀ (c : Fin 12) (k : Fin 64) (v : BitVec 32) (s : State), s.Canon →
    let pg := dispPage c.val
    let st := fun (u : State) => u.taskState c.val k.val
    (s.fld pg 0x034 0 0 = 1 →
      Answers (.taskEnable c k v) s (fun t =>
        (st s = 0 → v.getLsbD 31 = true → st t = if t.taskMatches c.val k.val = true then 2 else 1) ∧
        (st s = 1 → v.getLsbD 31 = true → st t = if t.taskMatches c.val k.val = true then 2 else 1) ∧
        (st s = 1 ∨ st s = 2 → v.getLsbD 31 = false → st t = 0) ∧ (st s = 3 → st t = 3) ∧
        t.fld pg (taskOff k.val) 31 24 = v.toNat / 2 ^ 24 % 256 &&& 0xE7) ∧
      Answers (.taskMaskWrite c k v) s (fun t =>
        t.reg pg (taskOff k.val + 4) = v ∧
        (st s = 2 → st t = if t.taskMatches c.val k.val = true then 2 else 1) ∧
        (st s = 1 → st t = if t.taskMatches c.val k.val = true then 2 else 1) ∧ (st s = 0 ∨ st s = 3 → st t = st s))) ∧
    (s.fld pg 0x034 0 0 = 0 → s.reg pg 0x020 = 0 →
      Answers (.taskEnable c k v) s (fun t => st t = st s ∧ t.reg pg 0x020 = 1) ∧
      Answers (.taskMaskWrite c k v) s (fun t => st t = st s ∧ t.reg pg 0x020 = 1))

/-- DELAY puts an entry that is due at the beat or the cue COUNT ahead into its list, which stays sorted by expiry; a COUNT of 0, or a full list, sets the flags at once,
a full list with DELAY_FULL and its event. The first beat entry expires at its beat, and the first cue entry once its cue has started: it leaves its list and ORs
its bits into its task's flags (R281). -/
def Claims.DelaysSetFlagsAtExpiry : Prop :=
  ∀ (c : Fin 12) (bits hi : BitVec 32) (s : State), s.Canon →
    let n := hi.toNat % 64
    let count := hi.toNat / 256
    let d := s.disp c.val
    let flags := fun (u : State) (k : Nat) => u.reg (dispPage c.val) (taskOff k + 8)
    let sorted := fun (l : List DelayEnt) => (l.map DelayEnt.due).Pairwise (· ≤ ·)
    let full := fun (t : State) => flags t n = flags s n ||| bits ∧ t.fld (dispPage c.val) 0x010 2 2 = 1 ∧
      (s.reg (dispPage c.val) 0x020 = 0 → t.reg (dispPage c.val) 0x020 = 0x0102)
    (∀ l e, sorted l → sorted (delayInsert l e)) ∧
    (count ≠ 0 → hi.getLsbD 7 = false → 256 ≤ d.beatDelays.length → Answers (.dispDelay c bits hi) s (fun t => full t ∧
      (t.disp c.val).beatDelays = d.beatDelays)) ∧
    (count ≠ 0 → hi.getLsbD 7 = true → 256 ≤ d.cueDelays.length → Answers (.dispDelay c bits hi) s (fun t => full t ∧
      (t.disp c.val).cueDelays = d.cueDelays)) ∧
    (∀ e r, d.cueDelays = e :: r → s.cue.number < e.due → exec (.delayExpiry c true) s = .next s) ∧
    (count = 0 → Answers (.dispDelay c bits hi) s (fun t => flags t n = flags s n ||| bits ∧ (t.disp c.val).beatDelays = d.beatDelays)) ∧
    (count ≠ 0 → hi.getLsbD 7 = false → d.beatDelays.length < 256 → Answers (.dispDelay c bits hi) s (fun t =>
      (t.disp c.val).beatDelays = delayInsert d.beatDelays { due := s.beat + count, task := n, bits := bits } ∧
      (t.disp c.val).cueDelays = d.cueDelays ∧ t.regs = s.regs)) ∧
    (count ≠ 0 → hi.getLsbD 7 = true → d.cueDelays.length < 256 → Answers (.dispDelay c bits hi) s (fun t =>
      (t.disp c.val).cueDelays = delayInsert d.cueDelays { due := s.cue.number + count, task := n, bits := bits } ∧
      (t.disp c.val).beatDelays = d.beatDelays ∧ t.regs = s.regs)) ∧
    (∀ e r, d.beatDelays = e :: r → Answers (.delayExpiry c false) s (fun t =>
      (t.disp c.val).beatDelays = r ∧ flags t e.task = flags s e.task ||| e.bits ∧ t.beat = max s.beat e.due)) ∧
    (∀ e r, d.cueDelays = e :: r → e.due ≤ s.cue.number → Answers (.delayExpiry c true) s (fun t =>
      (t.disp c.val).cueDelays = r ∧ flags t e.task = flags s e.task ||| e.bits ∧ t.beat = s.beat))

/-- The dispatcher delivers its first permitted record to the core that has waited longest in TAKE, which goes on past TAKE: for an item gd receives 0 and g4 to g7
the record, COUNT0 to COUNT7 become 0, and the item leaves the store; for a task gd receives 1, the task becomes RUNNING, its matched flags are
cleared and its RUNS counts (R212, R272, R274, R280, R283). A TAKE whose gd is one of g4 to g7 receives the record there. -/
def Claims.DeliveryRetiresTake : Prop :=
  ∀ (c : Fin 12) (s : State) (k st rd : Nat) (x : Candidate), s.Canon → s.dispatching = true → k < 16 →
    s.longestWaiting c.val = some k → s.dispSelect c.val = some x → (s.coreAt (c.val * 16 + k)).take = some (st, rd) →
    let key := c.val * 16 + k
    let pg := dispPage c.val
    let takes := fun (t : State) (kind : Word64) => (t.coreAt key).take = none ∧ (t.coreAt key).pc = (s.coreAt key).pc + 4 ∧
      (rd ≠ 0 → ¬ (4 ≤ rd ∧ rd ≤ 7) → (t.coreAt key).gr rd = kind) ∧ t.mem = s.mem
    (∀ i q, x.what = .item i → (s.disp c.val).items[i]? = some q →
      let word := fun n => BitVec.ofNat 64 (Word.leValue ((q.item.bytes.drop (8 * n)).take 8))
      Answers (.dispatchDeliver c) s (fun t => takes t 0 ∧
        (t.coreAt key).held = some { item := q.item, task := none, fg := q.fg, checked := q.fg } ∧
        (t.coreAt key).gr 4 = word 0 ∧ (t.coreAt key).gr 5 = word 1 ∧ (t.coreAt key).gr 6 = word 2 ∧ (t.coreAt key).gr 7 = word 3 ∧
        (∀ n, n < 8 → (t.coreAt key).cnt n = 0) ∧
        ((t.disp c.val).items.map (fun y => (y.item, y.fg))) = ((s.disp c.val).items.eraseIdx i).map (fun y => (y.item, y.fg)))) ∧
    (∀ n, n < 64 → x.what = .task n →
      let flags := s.reg pg (taskOff n + 8)
      Answers (.dispatchDeliver c) s (fun t => takes t 1 ∧ ((t.coreAt key).held.bind Held.task) = some n ∧ t.taskState c.val n = 3 ∧
        t.reg pg (taskOff n + 8) = flags &&& ~~~(flags &&& s.reg pg (taskOff n + 4)) ∧
        t.reg pg (taskOff n + 20) = s.reg pg (taskOff n + 20) + 1))

/-- The dispatcher selects by priority, then arrival stamp, then tasks before foreground items before background items, then place; with a
foreground item waiting in a running cue, background records are permitted only while fewer than 16 − SHARE cores hold one (R282, R283,
R285). -/
def Claims.DispatchOrderIsThatOfTheSpec : Prop :=
  ∀ (c : Nat) (s : State) (x : Candidate), s.dispSelect c = some x →
    x ∈ s.candidates c ∧ s.sharePermits c x.fg = true ∧
    (∀ y, y ∈ s.candidates c → s.sharePermits c y.fg = true →
      x.prio < y.prio ∨ (x.prio = y.prio ∧ (x.stamp < y.stamp ∨ (x.stamp = y.stamp ∧
        (x.group < y.group ∨ (x.group = y.group ∧ x.place ≤ y.place)))))) ∧
    (x.fg = false → s.fwait c = true → s.heldBg c < 16 - s.fld (dispPage c) 0x040 12 8)

/-- An edge source becomes pending at its event, and an event of sources 10 to 15 changes nothing; each set bit k of SWI.RAISE raises source 32 + k; the end of a
moderation interval ends the moderation of its source; and SOFT_RESET clears the pending edges, the moderation and the counters (R288, R291). -/
def Claims.InterruptSourcesBecomePending : Prop :=
  ∀ (c : Fin 12) (n : Fin 63) (bits : BitVec 32) (s : State), s.Canon →
    let cic := fun (u : State) => (u.cluster c.val).cic
    Answers (.cicSourceEvent c n) s (fun t =>
      (cicLevel n.val = false → ¬ (10 ≤ n.val ∧ n.val < 16) → t.cicPending c.val n.val = true) ∧
      (10 ≤ n.val ∧ n.val < 16 → t = s) ∧
      (∀ k, k ≠ n.val → (cic t).edge.getLsbD k = (cic s).edge.getLsbD k) ∧ t.regs = s.regs ∧ t.cores = s.cores) ∧
    Answers (.swiRaise c bits) s (fun t =>
      (∀ k, k < 31 → (cic t).edge.getLsbD (32 + k) = ((cic s).edge.getLsbD (32 + k) || bits.getLsbD k)) ∧
      (∀ k, k < 32 → (cic t).edge.getLsbD k = (cic s).edge.getLsbD k)) ∧
    Answers (.moderationExpiry c n) s (fun t =>
      (cic t).moderated.getLsbD n.val = false ∧ (cic t).edge = (cic s).edge) ∧
    Answers (.cicSoftReset c) s (fun t => (cic t).edge = 0 ∧ (cic t).moderated = 0 ∧ t.reg (cicPage c.val) 0x05C = 0 ∧
      t.reg (cicPage c.val) 0x060 = 0)

/-- The lowest-numbered core that accepts an offered source enters handler mode at VBASE + 64 × source, its pc in EPC and its mode in EMODE; the source, if an
edge, stops being pending, its moderation begins where MOD_BEATS is not 0, and the acceptance is counted; every other core that accepts it in the same cycle
enters at the spurious vector 63; cores to which the source is not offered change nothing (R196, R290, R291). -/
def Claims.InterruptAcceptanceEntersTheHandler : Prop :=
  ∀ (c : Fin 12) (n : Fin 63) (cores : List (Fin 16)) (k : Fin 16) (s : State), s.Canon →
    k ∈ cores → s.offerTo c.val k.val = some n.val →
    (∀ j : Fin 16, j ∈ cores → s.offerTo c.val j.val = some n.val → k ≤ j) →
    let key := c.val * 16 + k.val
    Answers (.interruptAccept c n cores) s (fun t =>
      (t.coreAt key).mode = .handler ∧ (t.coreAt key).pc = BitVec.ofNat 64 (s.vbase c.val + 64 * n.val) ∧
      (t.coreAt key).g = (s.coreAt key).g ∧ (t.coreAt key).resv = none ∧
      t.pageAddr (corePage key) 0x054 0x058 = (s.coreAt key).pc.toNat % 2 ^ 48 ∧
      (cicLevel n.val = false → (t.cluster c.val).cic.edge.getLsbD n.val = false) ∧
      t.reg (cicPage c.val) 0x05C = s.reg (cicPage c.val) 0x05C + 1 ∧
      t.coreEmode key = (if (s.coreAt key).mode = .operator then 0 else 1) ∧
      (s.fld (cicPage c.val) (srcOff n.val) 31 24 ≠ 0 → (t.cluster c.val).cic.moderated.getLsbD n.val = true) ∧
      (∀ j : Fin 16, j ∈ cores → j ≠ k → s.offerTo c.val j.val = some n.val →
        (t.coreAt (c.val * 16 + j.val)).mode = .handler ∧
        (t.coreAt (c.val * 16 + j.val)).pc = BitVec.ofNat 64 (s.vbase c.val + 0xFC0)) ∧
      (∀ j : Fin 16, j ∉ cores ∨ s.offerTo c.val j.val ≠ some n.val → t.coreAt (c.val * 16 + j.val) = s.coreAt (c.val * 16 + j.val)) ∧
      t.mem = s.mem) ∧
    (∀ js : List (Fin 16), (∀ j, j ∈ js → s.offerTo c.val j.val ≠ some n.val) → exec (.interruptAccept c n js) s = .next s)

/-- While the reference clock runs, a sideband input latches only when its new level outlasts its glitch filter: ALERT_N on its falling edge and PRESENT_N on either;
a shorter pulse changes nothing. A filtered level becomes the level of the line. SOFT_RESET of the router clears the latches (R294). -/
def Claims.SidebandInputsPassTheirFilter : Prop :=
  ∀ (port : Fin 4) (n : Nat) (s : State), s.Canon → s.irtr.refclk = true →
    let glitch := fun off => s.fld irtrPage off (8 * port.val + 7) (8 * port.val)
    let latched := fun (t : State) i => Sparse.get (fun _ => false) t.irtr.latched i
    (∀ level, n < glitch 0x0C0 → exec (.sidebandEdge port false level n) s = .next s) ∧
    (∀ level, n < glitch 0x0C4 → exec (.sidebandEdge port true level n) s = .next s) ∧
    (∀ level, glitch 0x0C0 ≤ n → Answers (.sidebandEdge port false level n) s (fun t => t.sideLevel port.val false = level ∧
      latched t port.val = (latched s port.val || (s.sideLevel port.val false && !level)) ∧
      (latched t port.val = true → t.routerInput (82 + port.val) = true))) ∧
    (∀ level, glitch 0x0C4 ≤ n → Answers (.sidebandEdge port true level n) s (fun t => t.sideLevel port.val true = level ∧
      latched t (4 + port.val) = (latched s (4 + port.val) || (s.sideLevel port.val true != level)) ∧
      (latched t (4 + port.val) = true → t.routerInput (86 + port.val) = true))) ∧
    Answers .irtrSoftReset s (fun t => t = { s with irtr := { s.irtr with latched := [] } })

/-! ## Clusters: cores -/

/-- While no cue runs, a core reset by the core's own page, by the cluster's SOFT_RESET or CORE_RESET (an expert write) or by a change of the cluster's EN leaves each core it
names in firmware mode at RESET_VEC with nothing held, its store buffer empty and VL 0, its STATUS.IE and EMODE 1 and FSTAT.DOUBLE 0, and its general, vector and mask
registers undefined: each reads a free value that nothing constrains. While cues run, these resets and a write of EN 0 change no core and record
CUE_RUNNING (R196, R201, R222, R232). -/
def Obligations.CoreResetState : Prop :=
  ∀ (w : CoreRef) (s : State), s.Canon →
    let clu := pageOf .clu w.c.val
    let unlocked := s.fld clu 0x034 0 0 = 1
    let all := fun (P : Nat → Prop) => ∀ k, k < 16 → P (w.c.val * 16 + k)
    let fresh := fun (t : State) (key : Nat) => ∃ n, s.fresh ≤ n ∧
      t.coreAt key = { Core.reset with undef := some n, pc := BitVec.ofNat 64 (s.resetVec (key / 16)) } ∧
      (∀ r, r ≠ 0 → (t.coreAt key).gr r = Config.freeWord (n + r)) ∧ (∀ r, (t.coreAt key).vr r = Config.freeVec (n + r)) ∧
      (∀ r, (t.coreAt key).mr r = Config.freeMask (n + r)) ∧ t.fld (corePage key) 0x070 1 0 = 3 ∧ t.fld (corePage key) 0x040 2 2 = 0
    let refused := fun (t : State) (page : Nat) => t.cores = s.cores ∧ t.mem = s.mem ∧ t.cluEn w.c.val = s.cluEn w.c.val ∧
      (s.reg page 0x020 = 0 → t.reg page 0x020 = 0x0100)
    (s.running = false →
      Answers (.coreSoftReset w) s (fun t => fresh t (coreKey w) ∧ ∀ k, k ≠ coreKey w → t.coreAt k = s.coreAt k) ∧
      Answers (.cluSoftReset w.c) s (fun t => all (fresh t)) ∧
      (unlocked → ∀ m : BitVec 16, Answers (.cluCoreReset w.c m) s (fun t =>
        ∀ k, k < 16 → if m.getLsbD k = true then fresh t (w.c.val * 16 + k) else t.coreAt (w.c.val * 16 + k) = s.coreAt (w.c.val * 16 + k))) ∧
      (s.cluEn w.c.val = true → Answers (.cluEnable w.c false) s (fun t => t.cluEn w.c.val = false ∧ all (fresh t)))) ∧
    (s.cluEn w.c.val = false → Answers (.cluEnable w.c true) s (fun t => t.cluEn w.c.val = true ∧ all (fresh t))) ∧
    (s.running = true →
      Answers (.coreSoftReset w) s (fun t => refused t (corePage (coreKey w))) ∧
      Answers (.cluSoftReset w.c) s (fun t => refused t clu) ∧
      (unlocked → ∀ m : BitVec 16, m ≠ 0 → Answers (.cluCoreReset w.c m) s (fun t => refused t clu)) ∧
      Answers (.cluEnable w.c false) s (fun t => refused t clu))

/-- A change of CLU.MODE: while no cue runs it takes SERVICE and MAINTENANCE, SERVICE clearing LOCK.WAYS of the L2, and another value records PARAM_RANGE; while cues
run it records CUE_RUNNING and changes no mode (R232, R248). -/
def Claims.ClusterModeWrites : Prop :=
  ∀ (c : Fin 12) (mode : BitVec 4) (s : State), s.Canon → mode.toNat ≠ s.fld (pageOf .clu c.val) 0x008 7 4 →
    (s.running = false → mode.toNat ≤ 1 → Answers (.cluModeWrite c mode) s (fun t =>
      t.fld (pageOf .clu c.val) 0x008 7 4 = mode.toNat ∧ t.cluEn c.val = s.cluEn c.val ∧
      t.reg (l2Page c.val) 0x400 = (if mode = 0 then 0 else s.reg (l2Page c.val) 0x400) ∧ t.cores = s.cores)) ∧
    (s.running = false → 1 < mode.toNat → s.reg (pageOf .clu c.val) 0x020 = 0 → Answers (.cluModeWrite c mode) s (fun t =>
      t.fld (pageOf .clu c.val) 0x008 7 4 = s.fld (pageOf .clu c.val) 0x008 7 4 ∧ t.reg (pageOf .clu c.val) 0x020 = 0x0102)) ∧
    (s.running = true → s.reg (pageOf .clu c.val) 0x020 = 0 → Answers (.cluModeWrite c mode) s (fun t =>
      t.fld (pageOf .clu c.val) 0x008 7 4 = s.fld (pageOf .clu c.val) 0x008 7 4 ∧ t.reg (pageOf .clu c.val) 0x020 = 0x0100))
/-! ## Cluster L2 -/

/-- A write of GREEN.WAYS that no rule refuses starts a conversion, BUSY until it completes; it then puts GREEN_NOW in force, and the ways that
change hands lose their bytes: green room bytes read a free value (R241, R245, R247). A write while cues run is refused with CUE_RUNNING. -/
def Claims.GreenRoomConversion : Prop :=
  ∀ (c : Fin 12) (v : BitVec 32) (s : State), s.Canon →
    let n := v.toNat % 16
    let pg := l2Page c.val
    let base := 0xC00000000000 + c.val * 0x01000000
    let op := fun (u : State) => (u.cluster c.val).l2.op
    (op s = none → n ≤ 12 → n % 2 = 0 → s.running = false → s.clusterActive c.val = false → s.fld pg 0x400 11 0 = 0 →
      Answers (.greenWaysWrite c v) s (fun t => op t = some (.convert n) ∧ t.greenNow c.val = s.greenNow c.val ∧ t.mem = s.mem)) ∧
    (op s = none → n ≤ 12 → n % 2 = 0 → s.running = true → s.reg pg 0x020 = 0 →
      Answers (.greenWaysWrite c v) s (fun t => op t = none ∧ t.reg pg 0x020 = 0x0100 ∧ t.reg pg 0x040 = s.reg pg 0x040)) ∧
    (op s = some (.convert n) → Answers (.convertDone c) s (fun t =>
      op t = none ∧ t.greenNow c.val = n ∧
      (∀ b, base + min (s.greenNow c.val) n * 524288 ≤ b → b < base + 12 * 524288 → t.byteAt b = blankByte b) ∧
      (∀ b, b < base ∨ base + 12 * 524288 ≤ b → t.byteAt b = s.byteAt b)))

/-- A maintenance operation on a line, named by set and way or found at the address in MAINT_ADDR: CLEAN writes a dirty line back and keeps it, INVAL drops the line and its
dirty data, CLEAN_INVAL writes back and drops; over all cache ways CLEAN leaves no dirty line, and INVAL and CLEAN_INVAL no line. BUSY is set until MAINT_DONE, a write that
meets BUSY is refused with L2_BUSY, and a scope of 3 with PARAM_RANGE (R240, R241). -/
def Claims.PageMaintenanceOfALine : Prop :=
  ∀ (c : Fin 12) (scope : BitVec 2) (way : BitVec 4) (set : BitVec 12) (s : State), s.Canon →
    let pg := l2Page c.val
    let l2 := fun (u : State) => (u.cluster c.val).l2
    let rows := fun (P : Instr → Prop) => P (.l2MaintClean c scope way set) ∧ P (.l2MaintInval c scope way set) ∧
      P (.l2MaintCleanInval c scope way set)
    ((l2 s).op = none → ∀ k l, scope = 0 ∧ k = set.toNat * 16 + way.toNat ∨
        scope = 1 ∧ l2Find (l2 s) (s.pageAddr pg 0x048 0x04C / 128) = some k → l2At (l2 s) k = some l →
      Answers (.l2MaintClean c scope way set) s (fun t =>
        (∃ l', l2At (l2 t) k = some l' ∧ l'.lineNo = l.lineNo ∧ l'.dirty = false) ∧ (l2 t).op = some .maint ∧ t.mem = s.mem) ∧
      Answers (.l2MaintInval c scope way set) s (fun t => l2At (l2 t) k = none ∧ (l2 t).op = some .maint ∧
        (l.dirty = true → l.backing.length = 128 → t.bytesAt (l.lineNo * 128) 128 = l.backing) ∧ (l.dirty = false → t.mem = s.mem)) ∧
      Answers (.l2MaintCleanInval c scope way set) s (fun t => l2At (l2 t) k = none ∧ (l2 t).op = some .maint ∧ t.mem = s.mem)) ∧
    ((l2 s).op = none → scope = 2 →
      Answers (.l2MaintClean c scope way set) s (fun t => (l2 t).op = some .maint ∧ t.mem = s.mem ∧ ∀ k l, l2At (l2 s) k = some l →
        ∃ l', l2At (l2 t) k = some l' ∧ l'.lineNo = l.lineNo ∧ l'.dirty = false) ∧
      Answers (.l2MaintInval c scope way set) s (fun t => (l2 t).op = some .maint ∧ (l2 t).lines = []) ∧
      Answers (.l2MaintCleanInval c scope way set) s (fun t => (l2 t).op = some .maint ∧ (l2 t).lines = [] ∧ t.mem = s.mem)) ∧
    (s.reg pg 0x020 = 0 → (l2 s).op = none → scope = 3 →
      rows (fun i => Answers i s (fun t => t.reg pg 0x020 = 0x0102 ∧ l2 t = l2 s))) ∧
    (s.reg pg 0x020 = 0 → (l2 s).op ≠ none → rows (fun i => Answers i s (fun t => t.reg pg 0x020 = 0x0101 ∧ l2 t = l2 s))) ∧
    ((l2 s).op = some .maint →
      Answers (.maintDone c) s (fun t => (l2 t).op = none ∧ (l2 t).lines = (l2 s).lines ∧ t.mem = s.mem ∧ t.fld pg 0x010 0 0 = 1)) ∧
    ((l2 s).op ≠ some .maint → exec (.maintDone c) s = .next s)

/-- With the expert range unlocked: LOCK.WAYS and PRELOAD take effect in MAINTENANCE, and outside it record their code; a lock of a way above 11 or of a green room way records
WAY_CONFLICT; a preload of an idle L2 that is not bypassed puts each line it names, all of them HBM or DDR5, into its set at the way it names, and is BUSY until
PRELOAD_DONE (R241, R248, R504). -/
def Claims.LockAndPreload : Prop :=
  ∀ (c : Fin 12) (v : BitVec 32) (way : BitVec 4) (n : BitVec 13) (s : State), s.Canon →
    let pg := l2Page c.val
    let l2 := fun (u : State) => (u.cluster c.val).l2
    let a := s.pageAddr pg 0x404 0x408
    s.fld pg 0x034 0 0 = 1 →
    (s.maintenance c.val = true → v.toNat < 4096 → v.toNat % 2 ^ s.greenNow c.val = 0 →
      Answers (.lockWaysWrite c v) s (fun t => t.reg pg 0x400 = v ∧ t.mem = s.mem)) ∧
    (s.maintenance c.val = false → s.reg pg 0x020 = 0 →
      Answers (.lockWaysWrite c v) s (fun t => t.reg pg 0x400 = s.reg pg 0x400 ∧ t.reg pg 0x020 = 0x0103) ∧
      Answers (.l2Preload c way n) s (fun t => l2 t = l2 s ∧ t.reg pg 0x020 = 0x0103)) ∧
    (s.maintenance c.val = true → s.reg pg 0x020 = 0 → (4096 ≤ v.toNat ∨ v.toNat % 2 ^ s.greenNow c.val ≠ 0) →
      Answers (.lockWaysWrite c v) s (fun t => t.reg pg 0x400 = s.reg pg 0x400 ∧ t.reg pg 0x020 = 0x0104)) ∧
    (s.maintenance c.val = true → (l2 s).op = none → way.toNat ≤ 11 → s.greenNow c.val ≤ way.toNat → 1 ≤ n.toNat → n.toNat ≤ 4096 →
      s.bypassed c.val = false → (∀ i, i < n.toNat → s.cacheable (a + 128 * i) = true) →
      Answers (.l2Preload c way n) s (fun t => (l2 t).op = some .preload ∧ t.mem = s.mem ∧ ∀ i, i < n.toNat →
        ∃ l, l2At (l2 t) ((a / 128 + i) % 4096 * 16 + way.toNat) = some l ∧ l.lineNo = a / 128 + i)) ∧
    ((l2 s).op = some .preload → Answers (.preloadDone c) s (fun t => (l2 t).op = none ∧ (l2 t).lines = (l2 s).lines))

/-- A write of LFSR.SEED sets both halves of the register to a seed that is not 0, and a seed of 0 is refused with PARAM_RANGE; the register's
next state shifts left and takes in the exclusive OR of its bits 15, 13, 12 and 10 (R238). -/
def Claims.ReplacementRegister : Prop :=
  (∀ (c : Fin 12) (v : BitVec 32) (s : State), s.Canon → s.reg (l2Page c.val) 0x020 = 0 →
    Answers (.lfsrSeedWrite c v) s (fun t =>
      if v.toNat % 65536 = 0 then t.reg (l2Page c.val) 0x050 = s.reg (l2Page c.val) 0x050 ∧ t.reg (l2Page c.val) 0x020 = 0x0102
      else t.fld (l2Page c.val) 0x050 15 0 = v.toNat % 65536 ∧ t.fld (l2Page c.val) 0x050 31 16 = v.toNat % 65536)) ∧
  (∀ x : BitVec 16, BitVec.ofNat 16 (lfsrNext x.toNat) =
    (x <<< 1) ||| (if (x.getLsbD 15 ^^ x.getLsbD 13 ^^ x.getLsbD 12 ^^ x.getLsbD 10) = true then 1 else 0))

/-- A disable of an idle L2, while no cue runs, makes the cluster's accesses wait; bypass then begins with every line written back and dropped, and an enable ends it. While cues
run a disable is refused with CUE_RUNNING, and so is SOFT_RESET, which otherwise empties the L2 and clears its counters (R242). -/
def Claims.L2DisableAndEnable : Prop :=
  ∀ (c : Fin 12) (s : State), s.Canon →
    let pg := l2Page c.val
    let l2 := fun (u : State) => (u.cluster c.val).l2
    ((l2 s).op = none → s.running = false → s.bypassed c.val = false →
      Answers (.l2Disable c) s (fun t => (l2 t).op = some .disable ∧ t.l2Waits c.val = true ∧ t.fld pg 0x008 0 0 = 0)) ∧
    ((l2 s).op = none → s.running = true → s.reg pg 0x020 = 0 →
      Answers (.l2Disable c) s (fun t => t.reg pg 0x020 = 0x0100 ∧ l2 t = l2 s)) ∧
    ((l2 s).op = some .disable → Answers (.bypass c) s (fun t =>
      t.bypassed c.val = true ∧ (l2 t).op = none ∧ (l2 t).lines = [] ∧ t.mem = s.mem)) ∧
    ((l2 s).op = none → s.bypassed c.val = true → Answers (.l2Enable c) s (fun t =>
      t.bypassed c.val = false ∧ t.fld pg 0x008 0 0 = 1 ∧ t.mem = s.mem)) ∧
    (s.running = true → s.reg pg 0x020 = 0 → Answers (.l2SoftReset c) s (fun t => t.reg pg 0x020 = 0x0100 ∧ l2 t = l2 s)) ∧
    (s.running = false → Answers (.l2SoftReset c) s (fun t =>
      (l2 t).lines = [] ∧ t.reg pg 0x054 = 0 ∧ t.reg pg 0x058 = 0 ∧ t.reg pg 0x05C = 0 ∧ t.reg pg 0x064 = 0 ∧ t.mem = s.mem))

/-- An uncorrectable L2 error in a clean line counts, and the line, dropped and fetched again, changes no byte; no L1 data cache of the cluster keeps it. One in a dirty line or in
green room loses data: a dirty line leaves in memory what it held before, UNIT_STATE is FAULT, and the module enters the curtain, class 3. A correctable error of a line
counts and changes nothing else but FAULT_SEEN (R237, R268, R453). That a tag error counts as one of the line its way holds is the model's reading (log entry 51). -/
def Claims.UncorrectableL2Error : Prop :=
  ∀ (c : Fin 12) (set : Fin 4096) (way : Fin 16) (tag : Bool) (s : State) (l : L2Line), s.Canon →
    let pg := l2Page c.val
    let k := set.val * 16 + way.val
    (∀ off, off < s.greenNow c.val * 524288 → Answers (.l2EccUe c (.green off)) s (fun t => ∃ u : State, t = u.enterCurtain 3 pg ∧
      u.fld pg 0x00C 3 0 = 5)) ∧
    (l2At (s.cluster c.val).l2 k = some l →
    (l.dirty = false → Answers (.l2EccUe c (.line set way tag)) s (fun t =>
      l2At (t.cluster c.val).l2 k = some l ∧ t.mem = s.mem ∧ t.reg pg 0x064 = s.reg pg 0x064 + 1 ∧ t.mdl = s.mdl ∧
      ∀ j, j < 16 → t.l1Held (16 * c.val + j) (l.lineNo * 128) = false)) ∧
    Answers (.l2EccUe c (.corrected set way)) s (fun t => t = { s with regs := t.regs, company := { s.company with faultSeen := true } } ∧
      t.reg pg 0x064 = s.reg pg 0x064 + 1) ∧
    (l.dirty = true → Answers (.l2EccUe c (.line set way tag)) s (fun t => ∃ u : State, t = u.enterCurtain 3 pg ∧
      l2At (u.cluster c.val).l2 k = none ∧ u.fld pg 0x00C 3 0 = 5 ∧
      (l.backing.length = 128 → u.bytesAt (l.lineNo * 128) 128 = l.backing))))

/-! ## Memory controllers -/

/-- CTL.EN of a controller that nothing uses: 0 puts it into self-refresh, OFF, and 1 brings it back once the exit is done; while the table
store or the cue logic is in use EN = 0 is refused (R256, R267). -/
def Claims.ControllerEnableAndSelfRefresh : Prop :=
  ∀ (m : Fin 22) (s : State), s.Canon →
    let pg := memcPage m.val
    let x := s.memc m.val
    (s.memcInUse = false → s.fld pg 0x008 0 0 = 1 → x.unit = 2 →
      Answers (.memcDisable m) s (fun t => t.memc m.val = { x with unit := 0, op := some .enter } ∧ t.fld pg 0x008 0 0 = 0 ∧ t.mem = s.mem)) ∧
    (s.memcInUse = true → s.reg pg 0x020 = 0 → Answers (.memcDisable m) s (fun t => t.memcs = s.memcs ∧ t.reg pg 0x020 = 0x0101)) ∧
    (s.fld pg 0x008 0 0 = 0 → x.unit = 0 →
      Answers (.memcEnable m) s (fun t => t.memc m.val = { x with op := some .exit } ∧ t.fld pg 0x008 0 0 = 1 ∧ t.mem = s.mem)) ∧
    (x.op = some .enter → Answers (.selfRefreshDone m) s (fun t =>
      (t.memc m.val).selfRefresh = true ∧ (t.memc m.val).op = none ∧ (t.memc m.val).unit = x.unit ∧ t.mem = s.mem)) ∧
    (x.op = some .exit → x.unit = 0 → x.trained = true → s.fld pg 0x008 7 4 = 0 → Answers (.selfRefreshDone m) s (fun t =>
      (t.memc m.val).selfRefresh = false ∧ (t.memc m.val).unit = 2 ∧ t.mem = s.mem))

/-- A controller that works and freezes is in FAULT, its twelve capture registers latched where CAUSE was 0 and kept where it was not, self-refresh is being entered, and the
module drops the curtain, class 1; one that is OFF or in FAULT is left as it is. A correctable error counts and latches its address, with the event at each
multiple of the limit (R263, R265, R266). -/
def Claims.ControllerErrors : Prop :=
  ∀ (m : Fin 22) (f : FreezeReport) (addr : BitVec 48) (s : State), s.Canon →
    let pg := memcPage m.val
    let x := s.memc m.val
    let synd := fun i => (f.synd.getD i 0).toNat
    let caps := [(0x080, f.cause.toNat), (0x084, f.addr.toNat), (0x088, f.addr.toNat / 2 ^ 32), (0x08C, f.cmd.toNat / 2048 * 2048),
      (0x090, f.row.toNat), (0x094, synd 0), (0x098, synd 1), (0x09C, synd 2), (0x0A0, synd 3), (0x0A4, f.beat.toNat), (0x0A8, s.cue.number),
      (0x0AC, s.cue.number / 2 ^ 32)]
    (x.unit = 1 ∨ x.unit = 2 → Answers (.memcFreeze m f) s (fun t => ∃ u : State,
      t = u.enterCurtain 1 pg ∧ (u.memc m.val).unit = 4 ∧ (u.memc m.val).op = some .enter ∧ u.mem = s.mem ∧
      (∀ p, p ∈ caps → u.reg pg p.1 = (if s.reg pg 0x080 = 0 then BitVec.ofNat 32 p.2 else s.reg pg p.1)))) ∧
    (x.unit = 0 ∨ x.unit = 4 ∨ x.unit = 5 → exec (.memcFreeze m f) s = .next s) ∧
    Answers (.memcCorrectableError m addr) s (fun t =>
      t.reg pg 0x048 = s.reg pg 0x048 + 1 ∧ t.reg pg 0x04C = addr.setWidth 32 ∧ t.fld pg 0x050 15 0 = addr.toNat / 2 ^ 32 ∧
      (s.reg pg 0x054 ≠ 0 → (s.reg pg 0x048 + 1) % s.reg pg 0x054 = 0 → t.fld pg 0x010 0 0 = 1) ∧ t.mem = s.mem)

/-- Patrol scrub, enabled on a controller that works, takes its local units in turn, changes no data and counts a pass at the last; a refresh of one that works and is not in
self-refresh changes no data; SOFT_RESET clears the error and pass counters; a DRAM device above 85 °C records its temperature and raises its event where it was cool
before, and one back at 85 °C or below records that (R258, R264, R270). -/
def Claims.ControllerUpkeep : Prop :=
  ∀ (m : Fin 22) (deg : BitVec 8) (s : State), s.Canon →
    let pg := memcPage m.val
    let x := s.memc m.val
    (s.fld pg 0x058 31 31 = 1 → x.unit = 2 → Answers (.patrolScrub m) s (fun t => t.mem = s.mem ∧
      (x.scrubAt + 1 < s.localUnits m.val → (t.memc m.val).scrubAt = x.scrubAt + 1 ∧ t.reg pg 0x05C = s.reg pg 0x05C) ∧
      (s.localUnits m.val ≤ x.scrubAt + 1 → (t.memc m.val).scrubAt = 0 ∧ t.reg pg 0x05C = s.reg pg 0x05C + 1))) ∧
    (x.unit = 2 → x.selfRefresh = false → Answers (.refresh m) s (fun t => (t.memc m.val).refreshes = x.refreshes + 1 ∧
      t.mem = s.mem ∧ t.regs = s.regs)) ∧
    Answers (.memcSoftReset m) s (fun t => t.reg pg 0x048 = 0 ∧ t.reg pg 0x05C = 0 ∧ t.memcs = s.memcs) ∧
    (deg.toNat ≤ 85 → exec (.dramHot m deg) s = .next s) ∧
    (85 < deg.toNat → Answers (.dramHot m deg) s (fun t => t.fld pg 0x060 7 0 = deg.toNat ∧ t.fld pg 0x060 8 8 = 1 ∧
      (s.fld pg 0x060 8 8 = 0 → t.fld pg 0x010 3 3 = 1))) ∧
    Answers (.dramTempNormal m) s (fun t => t.fld pg 0x060 7 0 ≤ 85 ∧ t.fld pg 0x060 8 8 = 0 ∧ t.mem = s.mem)

/-- A DDR5 controller trained by software that works and that nothing uses enters TRAIN mode, its DIMMs in setup; with the expert range unlocked each training run on a rank it
has, a pattern run at an address among its units, is in progress with its report cleared; TRAIN_DONE ends it and reports its
lanes' errors, none for a run that only writes and lane 0 alone for a CA check, and changes no byte of memory unless the run writes its pattern; SERVICE mode puts
the controller back to work with its delays in force (R260, R269). -/
def Obligations.TrainingRuns : Prop :=
  ∀ (m : Fin 22) (rank : BitVec 4) (errs : List Nat) (s : State), s.Canon →
    let pg := memcPage m.val
    let tp := memtPage m.val
    let x := s.memc m.val
    (s.hwTrained m.val = false → s.memcInUse = false → s.fld pg 0x008 7 4 = 0 → x.unit = 2 →
      Answers (.memcTrainMode m) s (fun t => t.fld pg 0x008 7 4 = 1 ∧ (t.memc m.val).unit = 1 ∧
        (x.op = none → (t.memc m.val).op = some .setup) ∧ t.mem = s.mem)) ∧
    (s.fld pg 0x008 7 4 = 1 → x.unit = 1 →
      Answers (.memcServiceMode m) s (fun t => t.fld pg 0x008 7 4 = 0 ∧ (t.memc m.val).unit = 2 ∧ (t.memc m.val).dly = x.dly ∧ t.mem = s.mem)) ∧
    (s.fld tp 0x034 0 0 = 1 → s.fld pg 0x008 7 4 = 1 → x.op = none → rank.toNat < s.ranks m.val →
      let runs := fun i n => Answers i s (fun t => (t.memc m.val).op = some (.run n) ∧ t.reg tp 0x404 = 0 ∧ t.mem = s.mem)
      ((s.memcLocal m.val (s.pageAddr tp 0x410 0x414)).isSome = true →
        runs (.trainWritePattern m rank) 1 ∧ runs (.trainReadCompare m rank) 2 ∧ runs (.trainWriteReadCompare m rank) 3) ∧
      runs (.trainCaCheck m rank) 4 ∧ runs (.trainLevelCheck m rank) 5 ∧ runs (.trainDramPattern m rank) 6) ∧
    (∀ n, x.op = some (.run n) →
      let err := fun l => if n = 1 ∨ n = 4 ∧ l ≠ 0 then 0 else min 65535 (errs.getD l 0)
      Answers (.trainDone m errs) s (fun t => (t.memc m.val).op = none ∧ (∀ l, l < 10 → (t.reg tp (0x424 + 4 * l)).toNat = err l) ∧
        t.fld tp 0x404 0 0 = 1 ∧ t.fld tp 0x404 1 1 = (if (List.range 10).any (fun l => err l != 0) = true then 1 else 0) ∧
        (n ≠ 1 → n ≠ 3 → t.mem = s.mem)))
/-! ## Fixed units: scan lanes, probe lanes, field codecs -/

/-- The SUBMIT registers of the scan lanes, the probe lanes (foreground and background), the field codecs, the search arrays and the
compression engines copy a descriptor into their FIFO, answer SUBMIT_FULL at a full one and ACCESS for a misaligned descriptor, and leave units and
memory as they are where the descriptor cannot be copied (what ERR_CODE then holds is the model's choice, Assumption 14); SUBMIT_SM takes the stage
manager's stores only and records SM_ONLY (0x0106) for any other; and a core's submission above a budget of its item raises BUDGET in place of it (R133, R134,
R143, R214, R391). -/
def Claims.SubmitCopiesTheDescriptor : Prop :=
  (∀ m, SubmitResult (Instr.scanSubmit m) scanKind (scanPage m.val) 0x040 false (fun _ => True)) ∧
  (∀ l, SubmitResult (Instr.probeSubmitFg l) probeKind (probePage l.val) 0x040 false (fun _ => True)) ∧
  (∀ l, SubmitResult (Instr.probeSubmitBg l) probeKind (probePage l.val) 0x048 true (fun _ => True)) ∧
  (∀ c, SubmitResult (Instr.fcodecSubmit c) fcodecKind (fcodecPage c.val) 0x040 false (fun _ => True)) ∧
  (∀ a, SubmitResult (Instr.camSubmit a) camKind (camPage a.val) 0x040 false (fun _ => True)) ∧
  (∀ k, SubmitResult (Instr.cmpSubmit k) cmpKind (cmpPage k.val) 0x040 false (fun _ => True)) ∧
  (∀ k, SubmitResult (Instr.cmpSubmitSm k) cmpKind (cmpPage k.val) 0x048 true (fun wr => wr = .manager)) ∧
  (∀ (k : Fin 4) (wr : Writer) (addr : BitVec 64) (s : State), s.Canon → s.pageReached (Writer.agent wr) (cmpPage k.val) = true →
    wr ≠ .manager → s.reg (cmpPage k.val) 0x020 = 0 → Answers (.cmpSubmitSm k wr addr) s (fun t =>
      t.units = s.units ∧ t.mem = s.mem ∧ t.reg (cmpPage k.val) 0x020 = 0x0106)) ∧
  (∀ l, BudgetStops (Instr.probeSubmitFg l) (probePage l.val) 0x040 ∧ BudgetStops (Instr.probeSubmitBg l) (probePage l.val) 0x048) ∧
  (∀ c, BudgetStops (Instr.fcodecSubmit c) (fcodecPage c.val) 0x040) ∧ (∀ a, BudgetStops (Instr.camSubmit a) (camPage a.val) 0x040) ∧
  (∀ u, BudgetStops (Instr.digSubmit u) (digPage u.val) 0x040) ∧ (∀ u, BudgetStops (Instr.lsuSubmit u) (lsuPage u.val) 0x040)

/-- A job of an enabled, idle lane or codec starts in order of submission, and STAT.BUSY reads 1: a scan lane's; a probe lane's foreground job ahead of
its background jobs, of which a running one yields and stays held, and which goes on before the next of them; and a codec's, which is settled with DESC_BAD
(0x0010) for a bad descriptor and waits while the L2 of its cluster is being cleaned (R127, R134, R138, R143, R150, R242). -/
def Claims.UnitJobsStartInOrder : Prop :=
  (∀ (m : Fin 22) (s : State) (j : UnitJob) (r : List UnitJob), s.Canon →
    let pg := scanPage m.val
    s.unitEn pg = true → s.fld pg 0x00C 3 0 = 1 → (s.unit pg).run = none → (s.unit pg).fifo = j :: r →
    Answers (.scanJobStart m) s (fun t => (t.unit pg).run.map RunJob.job = some j ∧ (t.unit pg).fifo = r ∧ t.fld pg 0x00C 8 8 = 1 ∧
      t.mem = s.mem)) ∧
  (∀ (l : Fin 6) (s : State) (j : UnitJob) (r : List UnitJob), s.Canon →
    let pg := probePage l.val
    s.unitEn pg = true → s.fld pg 0x00C 3 0 = 1 ∨ s.fld pg 0x00C 3 0 = 2 →
    ((s.unit pg).fifo = j :: r → (∀ x, (s.unit pg).run = some x → x.second = true) →
      Answers (.probeJobStart l) s (fun t => (t.unit pg).run = some (RunJob.start j false) ∧ (t.unit pg).fifo = r ∧
        (∀ x, (s.unit pg).run = some x → (t.unit pg).held = some x) ∧ t.mem = s.mem)) ∧
    ((s.unit pg).fifo = [] → (s.unit pg).run = none → (s.unit pg).held = none → (s.unit pg).fifo2 = j :: r →
      Answers (.probeJobStart l) s (fun t => (t.unit pg).run = some (RunJob.start j true) ∧ (t.unit pg).fifo2 = r ∧ t.mem = s.mem)) ∧
    (∀ x, (s.unit pg).fifo = [] → (s.unit pg).run = none → (s.unit pg).held = some x →
      Answers (.probeJobStart l) s (fun t => (t.unit pg).run = some x ∧ (t.unit pg).held = none ∧ (t.unit pg).fifo2 = (s.unit pg).fifo2 ∧
        t.mem = s.mem))) ∧
  (∀ (c : Fin 12) (s : State), s.l2Waits c.val = true →
    exec (.fcodecWalk c) s = .next s ∧ exec (.fcodecParse c) s = .next s ∧ exec (.fcodecBuild c) s = .next s) ∧
  (∀ (c : Fin 12) (s : State) (j : UnitJob) (r : List UnitJob), s.Canon →
    let pg := fcodecPage c.val
    s.unitEn pg = true → s.l2Waits c.val = false → (s.unit pg).run = none → (s.unit pg).fifo = j :: r →
    let starts := fun i => Answers i s (fun t => (t.unit pg).run.map RunJob.job = some j ∧ (t.unit pg).fifo = r ∧
      (∃ e, (t.unit pg).run.bind RunJob.fin = some e ∧ (fcodecDescBad j.desc = true → e.status = 0x0010 ∧ t.mem = s.mem)))
    (fcodecDescBad j.desc = true ∨ field j.desc 0 1 = 0 → starts (.fcodecWalk c)) ∧
    (fcodecDescBad j.desc = true ∨ field j.desc 0 1 = 1 → starts (.fcodecParse c)) ∧
    (fcodecDescBad j.desc = true ∨ field j.desc 0 1 = 2 → starts (.fcodecBuild c)))

/-- A scan job ends with its pages, its selected slots and its bytes of records in its done block, OK where its work met no error; a probe job with the keys
it has resolved; both count in JOBS_DONE and leave the FIFOs; and ABORT ends them early, with ABORTED where their work met none (R132, R133, R135, R142). -/
def Claims.LaneJobsReportTheirWork : Prop :=
  (∀ (m : Fin 22) (n : Nat) (s : State) (r : RunJob), s.Canon →
    let pg := scanPage m.val
    let d := r.job.desc
    let work := fun (k : Nat) => (s.scanWork m.val r k).1
    let ends := fun i (k : Nat) (st : Nat) => (work k).fin = none →
      Answers i s (fun t => (t.unit pg).run = none ∧ (t.unit pg).fifo = (s.unit pg).fifo ∧ t.reg pg 0x054 = s.reg pg 0x054 + 1 ∧
        t.bytesAt (field d 48 8) 32 = Word.leBytes 2 st ++ Word.leBytes 2 0 ++ Word.leBytes 4 (work k).pages ++ (d.drop 56).take 8 ++
          Word.leBytes 8 (work k).selected ++ Word.leBytes 8 (work k).out.length)
    (s.unit pg).run = some r → d.length = 384 → s.Writable (field d 48 8) 64 →
    ends (.scanJobDone m) (r.at_ + 2 ^ 32) 0x0000 ∧ ends (.scanAbort m n) n 0x0002) ∧
  (∀ (l : Fin 6) (n : Nat) (s : State) (r : RunJob), s.Canon →
    let pg := probePage l.val
    let d := r.job.desc
    let work := fun (k : Nat) => ((s.setRun pg none).probeWork d k).2
    let ends := fun i (k : Nat) (st : Nat) => Answers i s (fun t => (t.unit pg).run = none ∧ (t.unit pg).fifo = (s.unit pg).fifo ∧
      (t.unit pg).fifo2 = (s.unit pg).fifo2 ∧ t.reg pg 0x05C = s.reg pg 0x05C + 1 ∧
      ((work k).fin = none → s.Writable (field d 48 8) 64 →
        t.bytesAt (field d 48 8) 8 = Word.leBytes 2 st ++ Word.leBytes 2 0 ++ Word.leBytes 4 (work k).keys))
    (s.unit pg).run = some r → ends (.probeJobDone l) 4096 0x0000 ∧ ends (.probeAbort l n) n 0x0002)

/-- The settled jobs of the codecs, the search arrays and the compression engines write their done blocks; ABORT ends a running one with ABORTED; and
SOFT_RESET of each of these units and of the lanes ends every job and clears its counters (R132, R133, R135, R158, R305, R387). -/
def Claims.UnitJobsEnd : Prop :=
  (∀ c, SettledJobEnds (.fcodecJobDone c) fcodecKind (fcodecPage c.val)) ∧
  (∀ a, SettledJobEnds (.camJobDone a) camKind (camPage a.val)) ∧
  (∀ k, SettledJobEnds (.cmpJobDone k) cmpKind (cmpPage k.val)) ∧
  (∀ c, AbortEnds (.fcodecAbort c) fcodecKind (fcodecPage c.val)) ∧
  (∀ a, AbortEnds (.camAbort a) camKind (camPage a.val)) ∧
  (∀ k, AbortEnds (.cmpAbort k) cmpKind (cmpPage k.val)) ∧
  (∀ c, SoftResetEmpties (.fcodecSoftReset c) (fcodecPage c.val) [0x048, 0x054]) ∧
  (∀ m n, SoftResetEmpties (.scanSoftReset m n) (scanPage m.val) [0x054, 0x060, 0x064]) ∧
  (∀ l n, SoftResetEmpties (.probeSoftReset l n) (probePage l.val) [0x058, 0x05C]) ∧
  (∀ a, SoftResetEmpties (.camSoftReset a) (camPage a.val) [0x050, 0x054, 0x058]) ∧
  (∀ k, SoftResetEmpties (.cmpSoftReset k) (cmpPage k.val) [0x050, 0x058, 0x060, 0x064, 0x068])

/-! ## Search arrays -/

/-- A search finds the entries whose care bits agree with the key, in native mode, or, in masked mode, that agree with it under the search's
mask; the lowest-numbered matching entry wins, and the count is that of all of them (R299, R300). -/
def Claims.SearchFindsTheLowestMatch : Prop :=
  ∀ (c : Cam) (key mask : BitVec 160), Sparse.wf (fun _ => (none : Option CamEnt)) c.ents = true →
    let entry := fun i => Sparse.get (fun _ => (none : Option CamEnt)) c.ents i
    let agrees := fun (e : CamEnt) => ∀ b, b < 160 → (if c.mode = 1 then mask.getLsbD b else e.care.getLsbD b) = true →
      e.key.getLsbD b = key.getLsbD b
    (∀ i, i ∈ (c.search key mask).all ↔ ∃ e, entry i = some e ∧ agrees e) ∧
    (c.search key mask).count = (c.search key mask).all.length ∧
    (∀ i data, (c.search key mask).win = some (i, data) ↔
      (∃ e, entry i = some e ∧ agrees e ∧ e.data = data) ∧ ∀ j e, j < i → entry j = some e → ¬ agrees e)

/-- A search of one array by a job with readable keys and writable results writes its result entry, counts the search, and goes on to the next key or
settles the job; the diagnostic search leaves the winning index, or all ones, in its registers; and a search that the cascade has lost ends
its issuer's job with CASCADE_LOST (R300, R303, R310, R316). -/
def Claims.SearchCommands : Prop :=
  (∀ (a : Fin 2) (s : State) (r : RunJob), s.Canon →
    let pg := camPage a.val
    let d := r.job.desc
    let k := s.bytesAt (field d 8 8 + 48 * r.at_) 48
    let hit := (s.cam a.val).search (BitVec.ofNat 160 (field k 0 20)) (BitVec.ofNat 160 (field k 20 20))
    let out := field d 16 8 + 32 * r.at_
    (s.unit pg).run = some r → r.fin = none → r.pages = [] → s.camDescBad a.val d = false → camOdd d = none → field d 0 1 = a.val → field d 1 1 = 0 →
    field k 44 4 = 0 → s.agentFault false (field d 8 8 + 48 * r.at_) 48 = none → s.agentFault false out 32 = none → s.Writable out 32 →
    Answers (.camSearch a) s (fun t => t.bytesAt out 32 = camResult hit.win hit.count 0 0 ∧
      t.wideAt pg 0x04C = (s.wideAt pg 0x04C + 1) % 2 ^ 64 ∧
      ∃ r', (t.unit pg).run = some r' ∧ r'.at_ = r.at_ + 1 ∧ (r'.fin.isSome = decide (field d 2 2 ≤ r.at_ + 1)))) ∧
  (∀ (a : Fin 2) (window : BitVec 17) (s : State), s.Canon → s.fld (camPage a.val) 0x034 0 0 = 1 → window.toNat % 64 = 0 →
    let num := fun o => (List.range 5).foldl (fun x k => x + (s.reg (camPage a.val) (o + 4 * k)).toNat * 2 ^ (32 * k)) 0
    let hit := (s.cam a.val).search (BitVec.ofNat 160 (num 0x400)) (BitVec.ofNat 160 (num 0x414))
    Answers (.camDiagSearch a window) s (fun t =>
      t.reg (camPage a.val) 0x42C = (match hit.win with
        | some x => BitVec.ofNat 32 x.1
        | none => 0xFFFFFFFF#32) ∧ t.fld (camPage a.val) 0x430 0 0 = (if hit.win.isSome = true then 1 else 0) ∧ t.mem = s.mem)) ∧
  (∀ (issuer : Fin 4) (num : Fin 2048) (s : State) (r : RunJob), s.Canon → s.rank = issuer.val →
    (s.unit (camPage 0)).run = some r → r.pages = [num.val] → r.fin = none →
    Answers (.cascadeSearchLost issuer num) s (fun t =>
      (∃ r' e, (t.unit (camPage 0)).run = some r' ∧ r'.fin = some e ∧ e.status = 0x0017) ∧
      (∀ x, x ∈ t.company.searches → ¬ (x.issuer = issuer.val ∧ x.num = num.val)) ∧ t.mem = s.mem))

/-! ## Digest units -/

/-- A digest job takes a free slot, or the slot of a victim, whose context is suspended, and otherwise waits in the FIFO; a full FIFO answers SUBMIT_FULL. A
job in a slot whose message, key and output are in order absorbs its message: ONESHOT and FINISH write the digest at OUT_ADDR, START and CONTINUE save the
context with STATE 1. DIG_JOB_DONE writes the done block, frees the slot and gives it to the next job; a hash of the sweeper or the prompt book on its way to
the unit enters it, takes a free slot and counts its blocks (R318, R320, R321, R322, R323, R325; that it enters at the unit's next command is the model's
choice, Assumption 148). -/
def Claims.DigestCommands : Prop :=
  ∀ (u : Fin 24) (s : State), s.Canon →
    let pg := digPage u.val
    let shape := fun (x : Nat × DigJob) => (x.1, x.2.job.desc)
    ((∀ h, h ∈ s.hashes → digPage h.unit ≠ pg) →
    (∀ (wr : Writer) (addr : BitVec 64), s.pageReached (Writer.agent wr) pg = true → s.Affords wr pg 0x040 addr.toNat →
      s.submitBad digKind addr.toNat = false → addr.toNat % 64 = 0 →
      let d := s.agentRead [] addr.toNat 64
      let busy := s.unitEn pg = false ∨ ((s.dig pg).freeSlot = none ∧ (s.dig pg).victim (field d 2 1) = none)
      (∀ i, s.unitEn pg = true → (s.dig pg).freeSlot = some i → Answers (.digSubmit u wr addr) s (fun t =>
        (t.dig pg).slots.map shape = (s.dig pg).slots.map shape ++ [(i, d)] ∧ (t.dig pg).fifo = (s.dig pg).fifo ∧ t.mem = s.mem)) ∧
      (∀ v, s.unitEn pg = true → (s.dig pg).freeSlot = none → (s.dig pg).victim (field d 2 1) = some v →
        Answers (.digSubmit u wr addr) s (fun t =>
          (t.dig pg).slots.map shape = ((s.dig pg).slots.filter (fun x => x.1 ≠ v.1)).map shape ++ [(v.1, d)] ∧
          (t.dig pg).susp.length = (s.dig pg).susp.length + 1 ∧ t.reg pg 0x054 = s.reg pg 0x054 + 1)) ∧
      (busy → (s.dig pg).fifo.length < 32 → Answers (.digSubmit u wr addr) s (fun t =>
        (t.dig pg).fifo.map UnitJob.desc = (s.dig pg).fifo.map UnitJob.desc ++ [d] ∧ (t.dig pg).slots = (s.dig pg).slots ∧
        t.mem = s.mem)) ∧
      (busy → 32 ≤ (s.dig pg).fifo.length → s.Writable (field d 40 8) 32 → Answers (.digSubmit u wr addr) s (fun t =>
        t.digs = s.digs ∧ t.bytesAt (field d 40 8) 2 = Word.leBytes 2 0x0014))) ∧
    (∀ (slot : Fin 4) (j : DigJob) (key : List Byte) (c : DigCtx), (s.dig pg).slots = [(slot.val, j)] → j.fin = none →
      s.digBegin pg j = .ok (key, c) → s.l2Waits (u.val / 2) = false →
      let d := j.job.desc
      let save := field d 32 8
      let m := s.digMsg d j.pos
      let settled := fun (t : State) => ∃ j' e, (t.dig pg).slots = [(slot.val, j')] ∧ j'.fin = some e ∧ e.status = 0x0000
      let digest := digFinal (field d 1 1) (field d 24 2) key c m
      let finishes := fun i => s.Writable (field d 16 8) digest.length → Answers i s (fun t => settled t ∧
        t.bytesAt (field d 16 8) digest.length = digest)
      let saves := fun i => Answers i s (fun t => settled t ∧ (save % 256 = 0 →
        t.bytesAt save 2 = Word.leBytes 1 (field d 1 1) ++ Word.leBytes 1 1 ∧
        t.bytesAt (save + 8) 8 = Word.leBytes 8 (c.absorbed + m.length / digRate (field d 1 1) * digRate (field d 1 1))))
      (field d 0 1 = 0 → finishes (.digestOneshot u slot)) ∧ (field d 0 1 = 3 → finishes (.digestFinish u slot)) ∧
      (field d 0 1 = 1 → saves (.digestStart u slot)) ∧ (field d 0 1 = 2 → saves (.digestContinue u slot))) ∧
    (∀ (slot : Fin 4) (j : DigJob) (e : JobEnd), (s.dig pg).slots = [(slot.val, j)] → (s.dig pg).susp = [] →
      j.fin = some e → e.block.length = 32 → s.Writable (field j.job.desc 40 8) 32 →
      let ends := fun (next : List (Nat × List Byte)) => Answers (.digJobDone u slot) s (fun t => (t.dig pg).slots.map shape = next ∧
        (t.dig pg).fifo = [] ∧ t.bytesAt (field j.job.desc 40 8) 32 = e.block ∧ t.reg pg 0x058 = s.reg pg 0x058 + 1)
      ((s.dig pg).fifo = [] → ends []) ∧
      (∀ w, (s.dig pg).fifo = [w] → s.unitEn pg = true → ends [(0, w.desc)]))) ∧
    (∀ (slot : Fin 4) (h : DigHash), s.hashes = [h] → digPage h.unit = pg → s.unitEn pg = true → (s.dig pg).slots = [] →
      Answers (.digJobDone u slot) s (fun t => t.hashes = [] ∧ (0, h.out) ∈ (t.dig pg).results ∧ (t.dig pg).slots = [] ∧
        t.wideAt pg 0x04C = (s.wideAt pg 0x04C + h.blocks) % 2 ^ 64 ∧ t.mem = s.mem))

/-- A read of RESULT before a slot has finalized its digest records EARLY_READ (0x0105) where no error is held and raises its event, and after it changes
nothing; ABORT ends the jobs in the slots with ABORTED (0x0002), and SOFT_RESET those in every place a job can be in, and clears the counters (R322, R323,
R325). -/
def Claims.DigestResultsAndResets : Prop :=
  ∀ (u : Fin 24) (n : Fin 16) (s : State), s.Canon →
    let pg := digPage u.val
    (s.digResult pg n.val = none → s.reg pg 0x020 = 0 → Answers (.digResultRead u n) s (fun t =>
      t.reg pg 0x020 = 0x0105 ∧ t.fld pg 0x010 3 3 = 1 ∧ t.digs = s.digs ∧ t.mem = s.mem)) ∧
    (∀ v, s.digResult pg n.val = some v → exec (.digResultRead u n) s = .next s) ∧
    ((s.dig pg).susp = [] → (s.dig pg).fifo = [] → Answers (.digAbort u) s (fun t => (t.dig pg).slots = [] ∧
      ∀ x, (s.dig pg).slots = [x] → s.Writable (field x.2.job.desc 40 8) 32 →
        t.bytesAt (field x.2.job.desc 40 8) 2 = Word.leBytes 2 0x0002)) ∧
    Answers (.digSoftReset u) s (fun t => (t.dig pg).slots = [] ∧ (t.dig pg).susp = [] ∧ (t.dig pg).fifo = [] ∧
      t.reg pg 0x050 = 0 ∧ t.reg pg 0x054 = 0 ∧ t.reg pg 0x058 = 0)

/-! ## Larkspur units -/

/-- A request enters the module's sign or verify queue by its operation; a usable unit serves the next one: a bad descriptor is settled with DESC_BAD, a
refused key with KEY_REFUSED, and a verification with OK or VERIFY_FAIL as the signature verifies; a signature that fails its self-check puts its unit into
FAULT and stays queued; while an act seal waits and no other unit is free for it, no request is signed; LSU_JOB_DONE writes the done block's STATUS and
SOFT_RESET ends the unit's requests but not the queues (R23, R327, R328, R329). -/
def Claims.LarkspurCommands : Prop :=
  ∀ (u : Fin 8) (s : State), s.Canon →
    let pg := lsuPage u.val
    let signed := fun (t : State) (j : UnitJob) (st : Nat) =>
      ∃ e, t.lsu.runs = [{ unit := u.val, verify := false, job := j, fin := some e }] ∧ e.status = st
    let verified := fun (t : State) (j : UnitJob) (st : Nat) =>
      ∃ e, t.lsu.runs = [{ unit := u.val, verify := true, job := j, fin := some e }] ∧ e.status = st
    (∀ (wr : Writer) (addr : BitVec 64), s.pageReached (Writer.agent wr) pg = true → s.Affords wr pg 0x040 addr.toNat →
      s.submitBad lsuKind addr.toNat = false → addr.toNat % 64 = 0 →
      let d := s.agentRead [] addr.toNat 64
      Answers (.lsuSubmit u wr addr) s (fun t =>
        (field d 0 1 = 1 → s.lsu.verify.length < 1024 → t.lsu.verify.map UnitJob.desc = s.lsu.verify.map UnitJob.desc ++ [d] ∧
          t.lsu.sign = s.lsu.sign ∧ t.mem = s.mem) ∧
        (field d 0 1 ≠ 1 → s.lsu.sign.length < 256 → t.lsu.sign.map UnitJob.desc = s.lsu.sign.map UnitJob.desc ++ [d] ∧
          t.lsu.verify = s.lsu.verify ∧ t.mem = s.mem) ∧
        (s.Writable (field d 32 8) 32 → (field d 0 1 = 1 ∧ 1024 ≤ s.lsu.verify.length) ∨ (field d 0 1 ≠ 1 ∧ 256 ≤ s.lsu.sign.length) →
          t.lsu = s.lsu ∧ t.bytesAt (field d 32 8) 2 = Word.leBytes 2 0x0014))) ∧
    (∀ j : UnitJob, s.lsu.sign = [j] → s.lsuUsable u.val = true → s.lsu.runs = [] → s.pbook.nextSeal = none →
      (lsuDescBad j.desc = true → Answers (.larkspurSign u) s (fun t => t.lsu.sign = [] ∧ t.mem = s.mem ∧ signed t j 0x0010)) ∧
      (lsuDescBad j.desc = false → field j.desc 32 8 % 64 = 0 → s.agentFault false (field j.desc 8 8) (field j.desc 4 4) = none →
        (j.core = none → s.agentFault false (field j.desc 16 8) 1462 = none) →
        (s.lsuSignKey j = none → Answers (.larkspurSign u) s (fun t => t.lsu.sign = [] ∧ t.mem = s.mem ∧ signed t j 0x0019)) ∧
        (∀ pk, s.lsuSignKey j = some pk → Answers (.larkspurSign u) s (fun t =>
          (t.lsu.sign = [] ∧ signed t j 0x0000 ∧ t.reg pg 0x04C = s.reg pg 0x04C + 1) ∨
          (t.lsu.sign = [j] ∧ u.val ∈ t.lsu.faulted ∧ t.fld pg 0x010 3 3 = 1))))) ∧
    (s.pbook.nextSeal.isSome = true → (∀ v, v < 8 → v ≠ u.val → s.lsuUsable v = false) → exec (.larkspurSign u) s = .next s) ∧
    (∀ j : UnitJob, s.lsu.verify = [j] → s.lsuUsable u.val = true → s.lsu.runs = [] →
      (lsuDescBad j.desc = true → Answers (.larkspurVerify u) s (fun t => t.lsu.verify = [] ∧ t.mem = s.mem ∧ verified t j 0x0010)) ∧
      (lsuDescBad j.desc = false → field j.desc 32 8 % 64 = 0 → s.agentFault false (field j.desc 8 8) (field j.desc 4 4) = none →
        s.agentFault false (field j.desc 16 8) (field j.desc 24 2) = none →
        (s.verifyKey (field j.desc 2 2) = none →
          Answers (.larkspurVerify u) s (fun t => t.lsu.verify = [] ∧ t.mem = s.mem ∧ verified t j 0x0019)) ∧
        (∀ pk, s.verifyKey (field j.desc 2 2) = some pk →
          let good := falconVerify pk (s.bytesAt (field j.desc 8 8) (field j.desc 4 4)) (s.bytesAt (field j.desc 16 8) (field j.desc 24 2))
          Answers (.larkspurVerify u) s (fun t => t.lsu.verify = [] ∧ t.mem = s.mem ∧ t.reg pg 0x050 = s.reg pg 0x050 + 1 ∧
            t.reg pg 0x054 = s.reg pg 0x054 + (if good = true then 0 else 1) ∧ verified t j (if good = true then 0x0000 else 0x0018))))) ∧
    (∀ (v : Bool) (r : LsuRun) (e : JobEnd), s.lsu.runs = [r] → r.unit = u.val → r.verify = v → r.fin = some e →
      s.Writable (field r.job.desc 32 8) 32 → Answers (.lsuJobDone u v) s (fun t => t.lsu.runs = [] ∧
        t.bytesAt (field r.job.desc 32 8) 2 = Word.leBytes 2 e.status)) ∧
    Answers (.lsuSoftReset u) s (fun t => (∀ r, r ∈ t.lsu.runs → r.unit ≠ u.val) ∧ t.lsu.sign = s.lsu.sign ∧ t.lsu.verify = s.lsu.verify ∧
      t.reg pg 0x04C = 0 ∧ t.reg pg 0x050 = 0 ∧ t.reg pg 0x054 = 0)

/-! ## DMA engines -/

/-- A DMA channel that EN enables is READY, and one that it disables is OFF at once and keeps its HEAD; a KICK makes an IDLE or STOPPED channel READY and
is remembered in a running one; BASE_LO takes a write, 64-byte aligned, only while EN is 0, and sets HEAD to 0; SOFT_RESET leaves every channel OFF
(R366, R367, R377, R379). -/
def Claims.DmaChannelControl : Prop :=
  ∀ (e : Fin 8) (n : Fin 32) (v : BitVec 32) (s : State), s.Canon →
    let pg := dmaPage e.val
    (s.chState e.val n.val = 1 ∨ s.chState e.val n.val = 4 → Answers (.dmaKick e n) s (fun t => t.chState e.val n.val = 2 ∧ t.mem = s.mem)) ∧
    (s.chState e.val n.val = 3 → Answers (.dmaKick e n) s (fun t => n.val ∈ (t.dma e.val).kicked ∧ t.chState e.val n.val = 3)) ∧
    (s.chEn e.val n.val = false → v.getLsbD 31 = false → Answers (.dmaChEnable e n v) s (fun t =>
      t.chEn e.val n.val = true ∧ t.chState e.val n.val = 2 ∧ t.chHead e.val n.val = s.chHead e.val n.val ∧ t.mem = s.mem)) ∧
    (s.chEn e.val n.val = true → v.getLsbD 31 = false → Answers (.dmaChDisable e n v) s (fun t =>
      t.chEn e.val n.val = false ∧ t.chState e.val n.val = 0 ∧ t.chHead e.val n.val = s.chHead e.val n.val ∧
      (∀ x, (s.dma e.val).run = some x → x.chan = n.val → (t.dma e.val).run = none) ∧
      ((∀ x, (s.dma e.val).run = some x → x.chan ≠ n.val) → (t.dma e.val).run = (s.dma e.val).run ∧ t.mem = s.mem))) ∧
    (s.chEn e.val n.val = false → Answers (.dmaBaseWrite e n v) s (fun t =>
      t.reg pg (chCtl n.val + 4) = v &&& 0xFFFFFFC0#32 ∧ t.chHead e.val n.val = 0 ∧ t.mem = s.mem)) ∧
    (s.chEn e.val n.val = true → s.reg pg 0x020 = 0 → Answers (.dmaBaseWrite e n v) s (fun t =>
      t.reg pg (chCtl n.val + 4) = s.reg pg (chCtl n.val + 4) ∧ t.reg pg 0x020 = 0x0101)) ∧
    Answers (.dmaSoftReset e) s (fun t => (∀ k, k < 32 → t.chState e.val k = 0 ∧ t.chEn e.val k = false) ∧ t.reg pg 0x040 = 0)

/-- A free engine takes the READY channel of the best priority, in turn, and runs the descriptor at its HEAD: a copy, here into one 256-byte block, moves its
bytes and no others, an indexed copy gathers its elements in the order of its table, a bad descriptor moves nothing; a descriptor with OWN = 0 leaves the
channel IDLE, or READY where a KICK came; the write-back puts the status into the descriptor, returns it with OWN = 0, moves HEAD on modulo the ring and
leaves the channel READY after OK (R366, R367, R368, R371, R372, R373, R375). -/
def Claims.DmaDescriptorsRun : Prop :=
  ∀ (e : Fin 8) (n : Nat) (r : DmaRemote) (s : State), s.Canon → (s.dma e.val).run = none →
    let pg := dmaPage e.val
    let a := s.chDesc e.val n
    let d := s.agentRead [] a 64
    let ends := fun (st elems bytes : Nat) (t : State) => t.chState e.val n = 3 ∧
      (t.dma e.val).run = some { chan := n, desc := d, fin := some (st, elems, bytes) }
    n < 32 →
    (s.dmaNext e.val = some n → s.agentFault true a 64 = none →
      (∀ i, i = .dmaCopy e r ∨ i = .dmaIndexedCopy e r → (field d 0 4).testBit 31 = false →
        (n ∉ (s.dma e.val).kicked → Answers i s (fun t => t.chState e.val n = 1 ∧ t.mem = s.mem)) ∧
        (n ∈ (s.dma e.val).kicked → Answers i s (fun t => t.chState e.val n = 2 ∧ n ∉ (t.dma e.val).kicked ∧ t.mem = s.mem))) ∧
      ((field d 0 4).testBit 31 = true → (field d 0 4).testBit 28 = false →
        (dmaDescBad d = true → Answers (.dmaCopy e r) s (fun t => t.mem = s.mem ∧ ends 0x0010 0 0 t)) ∧
        (dmaDescBad d = false → s.classOf (field d 8 8) = .memory → s.agentFault true (field d 8 8) (field d 4 4) = none →
          s.Writable (field d 16 8) (field d 4 4) → Answers (.dmaCopy e r) s (fun t =>
            t.bytesAt (field d 16 8) (field d 4 4) = s.bytesAt (field d 8 8) (field d 4 4) ∧
            (∀ b, b < field d 16 8 ∨ field d 16 8 + field d 4 4 ≤ b → t.byteAt b = s.byteAt b) ∧ ends 0x0000 0 (field d 4 4) t))) ∧
      ((field d 0 4).testBit 31 = true → (field d 0 4).testBit 28 = true →
        let len := field d 4 4
        let elem := field d 36 2
        let w := if (field d 0 4).testBit 27 = true then 8 else 4
        let off := fun (i : Nat) => s.valAt (field d 24 8 + w * i) w
        let src := fun (i : Nat) => (field d 8 8 + off i) % 2 ^ 48
        let dst := field d 16 8
        (dmaDescBad d = true → Answers (.dmaIndexedCopy e r) s (fun t => t.mem = s.mem ∧ ends 0x0010 0 0 t)) ∧
        (dmaDescBad d = false → len ≤ field d 32 4 / w → s.classOf (field d 24 8) = .memory →
          s.Writable dst (len * elem) → (∀ i, i < len → s.classOf (field d 24 8 + w * i) = .memory ∧
            s.agentFault true (field d 24 8 + w * i) w = none ∧ s.classOf (src i) = .memory ∧ s.agentFault true (src i) elem = none ∧
            (src i + elem ≤ dst ∨ dst + len * elem ≤ src i)) →
          Answers (.dmaIndexedCopy e r) s (fun t => ends 0x0000 len (len * elem) t ∧
            (∀ i, i < len → t.bytesAt (dst + i * elem) elem = s.bytesAt (src i) elem) ∧
            (∀ b, b < dst ∨ dst + len * elem ≤ b → t.byteAt b = s.byteAt b))))) ∧
    (∀ (u : State) (x : DmaRun) (bytes : Nat), u.Canon → (u.dma e.val).run = some x → x.chan = n → x.fin = some (0x0000, 0, bytes) →
      u.Writable (u.chDesc e.val n) 64 → u.chDesc e.val n % 64 = 0 → (field x.desc 0 4).testBit 29 = false → u.fld pg (chCtl n) 12 8 ≤ 16 →
      Answers (.dmaWriteBack e) u (fun t => (t.dma e.val).run = none ∧ t.chState e.val n = 2 ∧
        t.chHead e.val n = (u.chHead e.val n + 1) % 2 ^ u.fld pg (chCtl n) 12 8 ∧
        t.bytesAt (u.chDesc e.val n) 4 = Word.leBytes 4 (Word.putBits 31 31 0 (field x.desc 0 4)) ∧
        t.bytesAt (u.chDesc e.val n + 48) 2 = Word.leBytes 2 0 ∧ t.reg pg 0x040 = u.reg pg 0x040 + 1))

/-! ## Compression engines -/

/-- An enabled, idle engine starts the next job of its operation, SUBMIT_SM's first: a bad descriptor is settled with DESC_BAD and a misaligned DONE_ADDR with
ACCESS, and both move nothing; a COMPRESS job that has not taken a whole block writes nothing, and one that has taken its whole input of one block writes that
block and is settled with OK; a DECOMPRESS job of one block writes what it decodes and is settled with OK, as is one without input; FLUSH of a job that has
taken more than it has written writes the block and counts it (R380, R381, R382, R386, R387, R388, R389). The blocks are shown with input and output in memory
and output in one 256-byte block. -/
def Claims.CompressionCommands : Prop :=
  ∀ (k : Fin 4) (rem : DmaRemote) (n : Nat) (s : State) (j : UnitJob) (q : List UnitJob), s.Canon →
    let pg := cmpPage k.val
    let d := j.desc
    let run := fun (t : State) => (t.unit pg).run
    let len := field d 16 4
    let input := s.bytesAt (field d 8 8) len
    let settled := fun (t : State) (st : Nat) => (t.unit pg).fifo2 = q ∧ (t.unit pg).fifo = (s.unit pg).fifo ∧ t.fld pg 0x00C 9 9 = 1 ∧
      ∃ r e, run t = some r ∧ r.job = j ∧ r.fin = some e ∧ e.status = st
    let fits := fun (out : List Byte) => out.length ≤ field d 20 4 ∧ s.Writable (field d 24 8) out.length
    (s.unitEn pg = true → run s = none → (s.unit pg).fifo2 = j :: q →
      (cmpDescBad d = true → ∀ i, i = .cmpCompress k n rem ∨ i = .cmpDecompress k rem → Answers i s (fun t => t.mem = s.mem ∧
        settled t 0x0010)) ∧
      (cmpDescBad d = false → field d 32 8 % 64 ≠ 0 →
        (field d 0 1 = 0 → Answers (.cmpCompress k n rem) s (fun t => t.mem = s.mem ∧ settled t 0x0012)) ∧
        (field d 0 1 = 1 → Answers (.cmpDecompress k rem) s (fun t => t.mem = s.mem ∧ settled t 0x0012))) ∧
      (cmpDescBad d = false → field d 32 8 % 64 = 0 → s.classOf (field d 8 8) = .memory →
        (field d 0 1 = 0 → n < min (field d 4 4) len → Answers (.cmpCompress k n rem) s (fun t =>
          t.mem = s.mem ∧ (t.unit pg).fifo2 = q ∧ ∃ r, run t = some r ∧ r.job = j ∧ r.fin = none ∧ r.at_ = 0)) ∧
        (field d 0 1 = 0 → 0 < len → len ≤ field d 4 4 → len ≤ n → s.agentFault true (field d 8 8) len = none →
          let out := cmpBlock (field d 1 1) (field d 2 1) (field d 3 1 % 2) input
          fits out → Answers (.cmpCompress k n rem) s (fun t => settled t 0x0000 ∧ t.bytesAt (field d 24 8) out.length = out)) ∧
        (field d 0 1 = 1 → len = 0 → Answers (.cmpDecompress k rem) s (fun t => t.mem = s.mem ∧ settled t 0x0000)) ∧
        (∀ out used final, field d 0 1 = 1 → s.agentFault true (field d 8 8) len = none → decodeBlock (field d 1 1) input = .ok out used final →
          used = len → 0 < len → field input 4 4 ≤ field d 20 4 → fits out →
          Answers (.cmpDecompress k rem) s (fun t => settled t 0x0000 ∧ t.bytesAt (field d 24 8) out.length = out)))) ∧
    (∀ r : RunJob, run s = some r → r.fin = none → field r.job.desc 0 1 = 0 → field r.job.desc 1 1 = 1 → r.blockFrom < r.pages.headD 0 →
      s.classOf (field r.job.desc 8 8 + r.blockFrom) = .memory →
      let out := cmpBlock 1 (field r.job.desc 2 1) 2 (s.bytesAt (field r.job.desc 8 8 + r.blockFrom) (r.pages.headD 0 - r.blockFrom))
      r.hits + out.length ≤ field r.job.desc 20 4 → s.Writable (field r.job.desc 24 8 + r.hits) out.length →
      Answers (.cmpFlush k []) s (fun t => t.reg pg 0x068 = s.reg pg 0x068 + 1 ∧ t.bytesAt (field r.job.desc 24 8 + r.hits) out.length = out ∧
        ∃ r', run t = some r' ∧ r'.fin = none ∧ r'.at_ = r.at_ + 1 ∧ r'.blockFrom = r.pages.headD 0))
/-! ## Wing ports -/

/-- Training: a port that is enabled with a MODE starts DETECT where a cable is present, and a DOWN port takes a new MODE alone (COMPANY_LOCKED 0x0101 and PARAM_RANGE 0x0100 otherwise);
EQUALIZE, ALIGN and HELLO follow, each from the state before it alone; HELLO begins with every credit granted and this module's HELLO sent. A retrain returns to ACTIVE. DETECT and EQUALIZE time out to DOWN, and the soft reset, an absent cable and a
failed retrain force DOWN, with every frame discarded (R436, R439, R445, R448, R471). -/
def Obligations.WingTraining : Prop :=
  ∀ (p : Fin 4) (s : State), s.Canon →
    let pg := wingPage p.val
    let ls := s.lstate p.val
    let down := fun (t : State) => t.lstate p.val = 0 ∧ (t.wing p.val).replay = [] ∧ (t.wing p.val).waitq = [] ∧
      (ls = 5 ∨ ls = 6 → t.fld pg 0x010 1 1 = 1) ∧ t.mem = s.mem
    (∀ mode : BitVec 4,
      (ls = 0 → mode.toNat ≤ 3 → Answers (.wingEnable p mode) s (fun t => t.wingMode p.val = mode.toNat ∧
        t.fld pg 0x008 0 0 = 1 ∧ t.lstate p.val = (if mode = 0 ∨ s.sideLevel p.val true = true then 0 else 1) ∧ t.mem = s.mem)) ∧
      (ls ≠ 0 → mode.toNat = s.wingMode p.val → mode.toNat ≤ 3 → Answers (.wingEnable p mode) s (fun t => t.wingMode p.val = mode.toNat ∧
        t.fld pg 0x008 0 0 = 1 ∧ t.lstate p.val = ls ∧ t.wings = s.wings ∧ t.mem = s.mem)) ∧
      (ls ≠ 0 → mode.toNat ≠ s.wingMode p.val → s.reg pg 0x020 = 0 → Answers (.wingEnable p mode) s (fun t =>
        t.reg pg 0x020 = 0x0101 ∧ t.lstate p.val = ls ∧ t.wingMode p.val = s.wingMode p.val ∧ t.wings = s.wings)) ∧
      (ls = 0 → 3 < mode.toNat → s.reg pg 0x020 = 0 → Answers (.wingEnable p mode) s (fun t =>
        t.reg pg 0x020 = 0x0100 ∧ t.lstate p.val = ls ∧ t.wingMode p.val = s.wingMode p.val ∧ t.wings = s.wings))) ∧
    (ls = 1 ∨ ls = 0 ∧ s.wingWanted p.val = true → Answers (.receiverDetect p) s (fun t => t.lstate p.val = 2 ∧ t.fld pg 0x00C 8 8 = 1 ∧
      t.wings = s.wings)) ∧
    (2 ≤ ls ∨ s.wingWanted p.val = false ∧ ls ≠ 1 → exec (.receiverDetect p) s = .next s) ∧
    (ls = 2 → Answers (.equalizeDone p) s (fun t => t.lstate p.val = 3 ∧ t.wings = s.wings)) ∧
    (ls ≠ 2 → exec (.equalizeDone p) s = .next s) ∧
    (∀ ns : BitVec 16,
      (ls = 3 → Answers (.alignDone p ns) s (fun t => t.lstate p.val = 4 ∧ t.reg pg 0x058 = BitVec.ofNat 32 ns.toNat ∧
        (t.wing p.val).myHello.length = 256 ∧ (t.wing p.val).txSeq = 1 ∧ (t.wing p.val).rxSeq = 0 ∧ (t.wing p.val).peerHello = [] ∧
        (t.wing p.val).credits = [251, 8192, 2048, 2048, 32768, 1024] ∧ (t.wing p.val).waitq = [] ∧
        (t.wing p.val).replay.map Frame.payload = [(t.wing p.val).myHello] ∧ (t.wing p.val).replay.map Frame.typ = [0x01])) ∧
      (ls = 6 → Answers (.alignDone p ns) s (fun t => t.lstate p.val = 5 ∧ t.wings = s.wings)) ∧
      (ls ≠ 3 → ls ≠ 6 → exec (.alignDone p ns) s = .next s)) ∧
    (ls = 1 ∨ ls = 2 → Answers (.linkTrainTimeout p) s (fun t => down t ∧ t.reg pg 0x050 = s.reg pg 0x050 + 1)) ∧
    (ls ≠ 1 → ls ≠ 2 → exec (.linkTrainTimeout p) s = .next s) ∧
    (ls = 5 → Answers (.linkRetrain p) s (fun t => t.lstate p.val = 6 ∧ t.reg pg 0x04C = s.reg pg 0x04C + 1 ∧ t.fld pg 0x010 3 3 = 1 ∧
      t.wings = s.wings)) ∧
    (ls ≠ 5 → exec (.linkRetrain p) s = .next s) ∧
    (ls = 6 → Answers (.retrainTimeout p) s down) ∧
    (ls ≠ 6 → exec (.retrainTimeout p) s = .next s) ∧
    Answers (.presentNHigh p) s (fun t => down t ∧ t.irtr = (s.sideChange p.val true true).irtr) ∧
    Answers (.wingSoftReset p) s (fun t => down t ∧ ∀ o, o ∈ [0x044, 0x048, 0x04C, 0x050, 0x054] → t.reg pg o = 0)

/-- Frames of a live port: CREDIT and HEARTBEAT advance FSEQ, free what they acknowledge and add the credits they carry; NAK and the replay timer replay, counted, and at the
retry limit an ACTIVE link retrains; an error is counted and its NAK names the frame expected. A port that is neither in HELLO nor ACTIVE takes none of them (R436, R437, R440,
R441, R455). -/
def Claims.LinkFrames : Prop :=
  ∀ (p : Fin 4) (h : FrameHead) (s : State), s.Canon →
    let pg := wingPage p.val
    let live := s.lstate p.val = 4 ∨ s.lstate p.val = 5
    let replays := fun (u t : State) => ((u.wing p.val).replay = [] → t = u) ∧
      ((u.wing p.val).replay ≠ [] → t.reg pg 0x044 = u.reg pg 0x044 + 1 ∧ (t.wing p.val).replay = (u.wing p.val).replay ∧
        (t.wing p.val).stuck = (u.wing p.val).stuck + 1 ∧
        t.lstate p.val = (if u.lstate p.val = 5 ∧ u.fld pg 0x404 3 0 ≤ (u.wing p.val).stuck + 1 then 6 else u.lstate p.val))
    (s.TakesWhole p.val h → (s.wing p.val).waitq = [] →
      exec (.credit p h) s = .next (s.setWing p.val ((s.wing p.val).tookFrame h)) ∧
      ∀ cue flags, exec (.heartbeat p h cue flags) s = .next (s.setWing p.val ((s.wing p.val).tookFrame h))) ∧
    (¬ live → exec (.credit p h) s = .next s ∧ (∀ cue flags, exec (.heartbeat p h cue flags) s = .next s) ∧
      (∀ n, exec (.nak p h n) s = .next s) ∧ exec (.replayTimeout p) s = .next s ∧ ∀ due, exec (.wingLinkError p due) s = .next s) ∧
    (s.TakesWhole p.val h → ∀ n, FrameActs (.nak p h n) p.val s replays) ∧
    (live → Answers (.replayTimeout p) s (replays s)) ∧
    (live → Answers (.wingLinkError p false) s (fun t => t.reg pg 0x048 = s.reg pg 0x048 + 1 ∧ t.wings = s.wings)) ∧
    (live → Answers (.wingLinkError p true) s (fun t => t.reg pg 0x048 = s.reg pg 0x048 + 1 ∧ (t.wing p.val).rxSeq = (s.wing p.val).rxSeq ∧
      t.Sends p.val 0x05 (Word.leBytes 4 (s.wing p.val).rxSeq ++ List.replicate 4 0)))

/-- HELLO keeps what the partner says and is answered with an AUTH over both, where this module's identity can sign; AUTH makes the port ACTIVE, or REFUSED with the
first reason that holds and a BYE that gives it; BYE takes a live port and a REFUSED one DOWN with its reason (R436, R445–R447). -/
def Claims.HelloAuthBye : Prop :=
  (∀ (p : Fin 4) (h : FrameHead) (b : List Byte) (s : State), s.Canon → s.TakesWhole p.val h →
    let pg := wingPage p.val
    (s.lstate p.val = 4 → FrameActs (.hello p h b) p.val s (fun u t =>
      (t.wing p.val).peerHello = fit 256 b ∧ (t.wing p.val).myHello = (u.wing p.val).myHello ∧ t.lstate p.val = 4 ∧ t.mem = u.mem ∧
      ∀ sig, ((u.setWing p.val { u.wing p.val with peerHello := fit 256 b }).idSign
          (ascii "STXWING1" ++ (u.wing p.val).myHello ++ fit 256 b) lsuAll).1 = some sig →
        t.Sends p.val 0x02 (fit 1793 Config.identityPub ++ List.replicate 3 0 ++ Word.leBytes 2 sig.length ++ List.replicate 2 0 ++ sig))) ∧
    (s.lstate p.val = 4 → (s.wing p.val).peerHello ≠ [] → FrameActs (.auth p h b) p.val s (fun u t =>
      (∀ r, u.partnerRefused p.val b = some r → t.lstate p.val = 7 ∧ t.fld pg 0x05C 7 0 = r ∧ (t.wing p.val).authed = some false ∧
        t.fld pg 0x010 2 2 = 1 ∧ t.Sends p.val 0x03 (Word.leBytes 2 r) ∧ t.mem = u.mem) ∧
      (u.partnerRefused p.val b = none → t.lstate p.val = 5 ∧ (t.wing p.val).authed = some true ∧ t.fld pg 0x010 0 0 = 1))) ∧
    (∀ reason, FrameActs (.bye p h reason) p.val s (fun u t => t.lstate p.val = 0 ∧ t.fld pg 0x05C 7 0 = reason.toNat % 256 ∧
      (t.wing p.val).replay = [] ∧ (t.wing p.val).waitq = [] ∧ t.mem = u.mem))) ∧
  (∀ (p : Fin 4) (h : FrameHead) (reason : BitVec 16) (s : State), s.Canon → s.lstate p.val = 7 → Answers (.bye p h reason) s (fun t =>
    t.lstate p.val = 0 ∧ t.fld (wingPage p.val) 0x05C 7 0 = reason.toNat % 256 ∧ t.mem = s.mem))

/-! ## Companies: lockstep, catch-up and cascades -/

/-- An ARRIVAL or a SEAL is kept once, by an understudy or a module that has its LOCK; what an ARRIVAL message says is read back whole; YIELD, a lost lead and the
ROLE DESYNC move an understudy, and no other role but a mirror's lead; a HEARTBEAT leaves on every pair link; a CUE_SYNC edge counts at a follower, 20 beats after the last
(R439, R443, R451, R454–R457, R468). -/
def Claims.LockstepFrames : Prop :=
  (∀ (e : Entry), e.sq < 2 ^ 16 → e.idx < 2 ^ 32 → e.sqe.length = 64 → e.data.length < 2 ^ 32 → arrivalEntry (arrivalBytes e) = e) ∧
  (∀ (p : Fin 4) (h : FrameHead) (b : List Byte) (s : State), s.Canon → s.lstate p.val = 5 → s.TakesWhole p.val h →
    FrameActs (.arrival p h b) p.val s (fun u t =>
      (u.takesSeals = true → (∀ x, x ∈ u.company.arrivals → x.sq ≠ (arrivalEntry b).sq ∨ x.idx ≠ (arrivalEntry b).idx) →
        t = u.setCo { u.company with arrivals := u.company.arrivals ++ [arrivalEntry b] }) ∧
      (u.takesSeals = false ∨ (∃ x, x ∈ u.company.arrivals ∧ x.sq = (arrivalEntry b).sq ∧ x.idx = (arrivalEntry b).idx) → t = u)) ∧
    FrameActs (.seal p h b) p.val s (fun u t =>
      (u.takesSeals = true → (∀ x, x ∈ u.company.seals → x.cue ≠ field b 0 8) →
        ∃ m : SealMsg, t = u.setCo { u.company with seals := u.company.seals ++ [m] } ∧ m.cue = field b 0 8 ∧ m.ents.length = field b 8 4 ∧
          m.changes.length = field b 12 4 ∧ ∀ i, i < field b 8 4 →
            m.ents[i]? = some (field b (16 + 16 * i) 2, field b (18 + 16 * i) 2, field b (20 + 16 * i) 4)) ∧
      (u.takesSeals = false ∨ (∃ x, x ∈ u.company.seals ∧ x.cue = field b 0 8) → t = u)) ∧
    (∀ cue cause, FrameActs (.yield p h cue cause) p.val s (fun u t =>
      (u.role = 2 → t.company.promoting = true ∧ t.mem = u.mem ∧ t.cue = u.cue ∧ t.role = 2) ∧
      (u.role ≠ 2 ∨ u.company.promoting = true → t = u))) ∧
    (∀ rank cue, FrameActs (.role p h 4 rank cue) p.val s (fun u t =>
      (u.role = 2 ∨ u.role = 3 → t.role = 4 ∧ t.redundant = false ∧ t.jobs = [] ∧ t.cue.phase = .none ∧ t.cue.sealedSet = [] ∧
        t.cue.buffer = [] ∧ t.cue.number = u.cue.number ∧ t.cue.unit = (if u.cue.unit = 2 then 1 else u.cue.unit) ∧
        t.company.arrivals = [] ∧ t.company.seals = []) ∧
      (u.role ≠ 2 → u.role ≠ 3 → t = u))) ∧
    (∀ r rank cue, r ≠ 1 → r ≠ 4 → FrameActs (.role p h r rank cue) p.val s (fun u t => t = u)) ∧
    (∀ rank cue, FrameActs (.role p h 1 rank cue) p.val s (fun u t =>
      (u.role = 1 → u.wingMode p.val = 3 → t.role = 5 ∧ t.redundant = false ∧ t.cue.release = [] ∧ t.mem = u.mem) ∧
      (u.role ≠ 1 ∨ u.wingMode p.val ≠ 3 → t = u)))) ∧
  (∀ s : State, s.Canon →
    (s.role = 2 → Answers .leadLost s (fun t => t.company.promoting = true ∧ t.role = 2 ∧ t.cue = s.cue ∧ t.mem = s.mem)) ∧
    (s.role ≠ 2 → exec .leadLost s = .next s) ∧
    (∀ beats, (s.follows = true ∨ s.mustFollow = true) → 20 ≤ beats → exec (.cueSyncEdge beats) s =
      .next { s with company := { s.company with cueSynced := true } }) ∧
    (∀ beats, (s.follows = false ∧ s.mustFollow = false) ∨ beats < 20 → exec (.cueSyncEdge beats) s = .next s) ∧
    (∀ stretching : Bool, s.role = 1 → Answers (.heartbeatSend stretching) s (fun t => t.cue = s.cue ∧ t.mem = s.mem ∧ t.regs = s.regs ∧
      ∀ q, q ∈ s.pairLinks → t.Sends q 0x04 (Word.leBytes 8 s.cue.number ++ Word.leBytes 8 (if stretching = true then 1 else 0)))) ∧
    (∀ stretching, s.role ≠ 1 → exec (.heartbeatSend stretching) s = .next s))

/-- The digests of a swept cue: equal ones let a lead release and begin lockstep; different ones are counted and put the understudy out of lockstep, and drop the curtain,
class 7, on a lead that alone saw a fault; digests of another cue wait (R453, R454, R462). -/
def Claims.DigestsDecide : Prop :=
  ∀ (p : Fin 4) (h : FrameHead) (cue : Word64) (flags : Word32) (inp out delta : List Byte) (s : State), s.Canon → s.lstate p.val = 5 →
    s.TakesWhole p.val h →
    let d : Digests := { inp := inp, out := out, delta := delta }
    let fault := Word.bit 0 flags.toNat
    FrameActs (.digest p h cue flags inp out delta) p.val s (fun u t =>
      (u.cue.phase ≠ .swept ∨ cue.toNat ≠ u.cue.number ∨ u.compares = false →
        t = u.setCo { u.company with peerDigest := some (cue.toNat, fault, d) }) ∧
      (u.role = 1 → u.cue.phase = .swept → cue.toNat = u.cue.number → u.compares = true →
        (d = u.cue.digests → t.cue = { u.cue with peerOk := true } ∧ t.redundant = true ∧ t.company.peerDigest = none ∧ t.mem = u.mem) ∧
        (d ≠ u.cue.digests → (u.company.faultSeen = false ∨ fault = true) → t.cue = { u.cue with peerOk := true } ∧ t.redundant = false ∧
          t.reg companyPage 0x060 = u.reg companyPage 0x060 + 1 ∧ t.company.peerBehind = true ∧ t.mem = u.mem) ∧
        (d ≠ u.cue.digests → u.company.faultSeen = true → fault = false → ∃ v : State, t = v.enterCurtain 7 companyPage ∧
          v.company.yielded = true ∧ v.redundant = false ∧ v.cue = u.cue ∧ v.mdl.curtain = u.mdl.curtain ∧
          v.reg companyPage 0x060 = u.reg companyPage 0x060 + 1)))

/-- A CHANGE is checked when its last part has come, kept where it is accepted, and answered with its result; CHANGE_OK readies the change that waits under its identifier,
and no other (R438, R452). -/
def Claims.ChangesForwarded : Prop :=
  ∀ (p : Fin 4) (h : FrameHead) (s : State), s.Canon → s.lstate p.val = 5 → s.TakesWhole p.val h →
    (∀ (ident : Word64) (opc : BitVec 16) (off total : Word32) (data : List Byte),
      let id_ := ident.toNat
      let old := ((s.company.changeParts.find? (fun x => x.1 == id_)).map Prod.snd).getD []
      let all := (old ++ data).take total.toNat
      FrameActs (.change p h ident opc off total data) p.val s (fun u t =>
        (u.isFollower = false ∨ (∃ x, x ∈ u.company.changes ∧ x.1 = id_) ∨ off.toNat ≠ old.length → t = u) ∧
        (u.isFollower = true → (∀ x, x ∈ u.company.changes → x.1 ≠ id_) → off.toNat = old.length →
          (all.length < total.toNat → t = u.setCo { u.company with
            changeParts := u.company.changeParts.filter (fun x => x.1 != id_) ++ [(id_, all)] }) ∧
          (all.length = total.toNat →
            (∀ c, u.changeOf (all.take 64) (all.drop 64) = some (.ok c) → t.company.changes = u.company.changes ++ [(id_, opc.toNat, all)] ∧
              t.Sends p.val 0x13 (Word.leBytes 8 id_ ++ Word.leBytes 2 0 ++ List.replicate 6 0)) ∧
            (u.changeOf (all.take 64) (all.drop 64) = none → opc = 0x20 → t.company.changes = u.company.changes ++ [(id_, 0x20, all)] ∧
              t.Sends p.val 0x13 (Word.leBytes 8 id_ ++ Word.leBytes 2 0 ++ List.replicate 6 0)) ∧
            (∀ r, u.changeOf (all.take 64) (all.drop 64) = some (.error r) → r.status ≠ 0 → t.company.changes = u.company.changes ∧
              t.Sends p.val 0x13 (Word.leBytes 8 id_ ++ Word.leBytes 2 r.status ++ List.replicate 6 0)))))) ∧
    (∀ (ident : Word64) (result : BitVec 16), FrameActs (.changeOk p h ident result) p.val s (fun u t =>
      (u.adminWait = none → u.camDeltas = [] → t = u) ∧
      (∀ w, u.adminWait = some w → u.camDeltas = [] → w.ident ≠ some ident.toNat → t = u) ∧
      (∀ w, u.adminWait = some w → u.camDeltas = [] → w.ident = some ident.toNat → u.changeNow = false → u.adminBacklog = [] →
        t.adminWait = some { w with ok := true } ∧
        (result = 0 → t = { u with adminWait := some { w with ok := true } }) ∧
        (result ≠ 0 → u.redundant = true → t.redundant = false ∧ t.company.peerBehind = true))))

/-- Catch-up: the first section empties what the snapshot replaces; a section that comes outside a load changes nothing, but one of the duplicate window is kept once while
the role is CATCHING_UP; with the last one, and no delta waiting, READY
leaves; a DELTA waits its turn during the load and is applied in cue order after it; the first READY at a lead is answered with LOCK two cues ahead, which the other side keeps
(R462, R463).
What the sections carry and the window's sections after the snapshot are the model's choice (log entries 27, 134). -/
def Claims.CatchupFrames : Prop :=
  ∀ (p : Fin 4) (h : FrameHead) (s : State), s.Canon → s.lstate p.val = 5 → s.TakesWhole p.val h →
    (∀ cue : Word64, FrameActs (.catchup p h (.start cue)) p.val s (fun u t =>
      (u.role = 3 ∨ u.role = 4 → t.role = 3 ∧ t.tables = [] ∧ t.cams = [] ∧ t.dup = [] ∧ t.cue.number = cue.toNat ∧
        t.cue.committed = cue.toNat ∧ t.company.loading = true ∧ t.company.ready = false ∧ t.company.deltas = [] ∧
        t.company.appliedTo = cue.toNat ∧ t.mem = u.mem) ∧
      (u.role ≠ 3 → u.role ≠ 4 → t = u))) ∧
    (∀ x : CatchItem, (∀ c, x ≠ .start c) → (∀ sq seq cqe result, x ≠ .dup sq seq cqe result) → s.company.loading = false →
      FrameActs (.catchup p h x) p.val s (fun u t => t = u)) ∧
    (∀ sq seq cqe result, FrameActs (.catchup p h (.dup sq seq cqe result)) p.val s (fun u t =>
      (u.role = 3 → (∀ d, d ∈ u.dup → d.sq ≠ sq ∨ d.seq ≠ seq) → u.dup.length < 2 ^ 20 →
        t = { u with dup := u.dup ++ [{ sq := sq, seq := seq, cqe := cqe, result := result, sigs := [] }] }) ∧
      (u.role ≠ 3 ∨ (∃ d, d ∈ u.dup ∧ d.sq = sq ∧ d.seq = seq) → t = u))) ∧
    (s.company.loading = true →
      (∀ d next, descOk d = true → FrameActs (.catchup p h (.table d next)) p.val s (fun _ t =>
        t.table (tableDefOf d).num = some { Table.empty (tableDefOf d) with nextRow := next })) ∧
      (s.role = 3 → s.company.deltas = [] → s.company.ready = false → FrameActs (.catchup p h .done) p.val s (fun u t =>
        t.company.loading = false ∧ t.company.ready = true ∧ t.tables = u.tables ∧
        t.Sends p.val 0x33 (Word.leBytes 8 u.company.appliedTo)))) ∧
    (∀ b : List Byte, FrameActs (.delta p h b) p.val s (fun u t =>
      (u.role ≠ 3 ∨ field b 0 8 ≤ u.company.appliedTo ∨ (∃ d, d ∈ u.company.deltas ∧ d.1 = field b 0 8) → t = u) ∧
      (u.role = 3 → u.company.appliedTo < field b 0 8 → (∀ d, d ∈ u.company.deltas → d.1 ≠ field b 0 8) → u.company.loading = true →
        t = u.setCo { u.company with deltas := u.company.deltas ++ [(field b 0 8, b.drop 8)] }) ∧
      (u.role = 3 → u.company.appliedTo + 1 = field b 0 8 → u.company.deltas = [] → u.company.loading = false →
        ∀ es, parseDelta (field b 0 8) ((b.drop 8).length + 1) [] (b.drop 8) none = some (es, []) →
          t.cue.number = field b 0 8 ∧ t.cue.committed = field b 0 8 ∧ t.company.appliedTo = field b 0 8 ∧ t.company.ready = true ∧
          t.company.deltas = []))) ∧
    (∀ cue, FrameActs (.ready p h cue) p.val s (fun u t =>
      (u.role = 1 → u.company.catchS.isSome = true → u.company.lockAt = none →
        t.company = { u.company with lockAt := some (u.cue.number + 2) } ∧ t.fld companyPage 0x010 4 4 = 1 ∧ t.cue = u.cue ∧ t.mem = u.mem ∧
        ∀ q, q ∈ u.pairLinks → t.Sends q 0x34 (Word.leBytes 8 (u.cue.number + 2))) ∧
      (u.role ≠ 1 ∨ u.company.catchS = none ∨ u.company.lockAt.isSome = true → t = u))) ∧
    (∀ cue : Word64, FrameActs (.lock p h cue) p.val s (fun u t =>
      (u.role = 3 → t = u.setCo { u.company with lockAt := some cue.toNat }) ∧ (u.role ≠ 3 → t = u)))

/-- The remote windows: a request within the grant is served and answered with status 0, any other with status 1 and nothing stored; an answer reaches the load or the
store that waits under its TAG, and a refusal is counted; a PIN frame pins and unpins a snapshot for another member's job (R466, R469, R470). -/
def Claims.RemoteWindows : Prop :=
  ∀ (p : Fin 4) (h : FrameHead) (s : State), s.Canon → s.lstate p.val = 5 → s.TakesWhole p.val h →
    let pg := wingPage p.val
    (∀ (job : Word32) (op : Byte) (cue : Word64), FrameActs (.pin p h job op cue) p.val s (fun u t =>
      (op = 1 → t = { u with strike := { u.strike with pins := u.strike.pins ++ [(.peer p.val job.toNat, cue.toNat)] } }) ∧
      (op = 2 → t = { u with strike := { u.strike with pins := u.strike.pins.filter (fun x => decide (x.1 ≠ .peer p.val job.toNat)) } }) ∧
      (op ≠ 1 → op ≠ 2 → t = u))) ∧
    (∀ (tag len : Word32) (addr : Word64), FrameActs (.readReq p h tag len addr) p.val s (fun u t => t.mem = u.mem ∧ t.regs = u.regs ∧
      (u.grants p.val addr.toNat len.toNat false = true → t.Sends p.val 0x28
        (Word.leBytes 4 tag.toNat ++ Word.leBytes 4 0 ++ u.bytesAt addr.toNat len.toNat)) ∧
      (u.grants p.val addr.toNat len.toNat false = false → t.Sends p.val 0x28 (Word.leBytes 4 tag.toNat ++ Word.leBytes 4 1)))) ∧
    (∀ (tag : Word32) (addr : Word64) (en : BitVec 256) (data : List Byte), FrameActs (.writeReq p h tag addr en data) p.val s (fun u t =>
      (u.grants p.val addr.toNat 256 true = true → t.Sends p.val 0x29 (Word.leBytes 4 tag.toNat ++ Word.leBytes 4 0) ∧
        (∀ i, i < 256 → t.byteAt (addr.toNat + i) = if en.getLsbD i = true then data.getD i 0 else u.byteAt (addr.toNat + i)) ∧
        ∀ a, a < addr.toNat ∨ addr.toNat + 256 ≤ a → t.byteAt a = u.byteAt a) ∧
      (u.grants p.val addr.toNat 256 true = false → t.Sends p.val 0x29 (Word.leBytes 4 tag.toNat ++ Word.leBytes 4 1) ∧ t.mem = u.mem))) ∧
    (∀ (tag status : Word32) (data : List Byte), FrameActs (.readRsp p h tag status data) p.val s (fun u t => t.mem = u.mem ∧
      (t.wing p.val).reqs = (u.wing p.val).reqs.filter (fun r => decide (r.1 ≠ tag.toNat)) ∧
      t.reg pg 0x054 = u.reg pg 0x054 + (if status = 0 then 0 else 1) ∧
      (∀ key a n, (u.wing p.val).reqs.find? (fun r => r.1 == tag.toNat) = some (tag.toNat, .load key a n) →
        t.coreAt key = { u.coreAt key with remote := (u.coreAt key).remote.map (fun r =>
          if r.addr = a ∧ r.size = n then { r with reply := some (if status = 0 then fit n data else []) } else r) }) ∧
      ((u.wing p.val).reqs.find? (fun r => r.1 == tag.toNat) = none → t.cores = u.cores))) ∧
    (∀ (tag status : Word32), FrameActs (.writeAck p h tag status) p.val s (fun u t => t.mem = u.mem ∧
      (t.wing p.val).reqs = (u.wing p.val).reqs.filter (fun r => decide (r.1 ≠ tag.toNat)) ∧
      t.reg pg 0x054 = u.reg pg 0x054 + (if status = 0 then 0 else 1) ∧
      (∀ key block i, (u.wing p.val).reqs.find? (fun r => r.1 == tag.toNat) = some (tag.toNat, .store key block) → key < 192 →
        (u.coreAt key).sb.findIdx? (fun e => e.sent && e.block == block) = some i →
        (t.coreAt key).sb = (u.coreAt key).sb.eraseIdx i ∧
        (status = 0 → t.reg (corePage key) 0x04C = u.reg (corePage key) 0x04C) ∧
        (status ≠ 0 → t.reg (corePage key) 0x04C = u.reg (corePage key) 0x04C + 1 ∧ t.fld (corePage key) 0x040 0 0 = 1))))

/-- A cascade search: a member that is not rank 0 searches and reports to it; rank 0 collects each member's result and MATCH report and forgets the search once it is
resolved; the resolved result reaches the job that waits under its number. A report without VALID or with even parity is none (R308, R444). -/
def Claims.CascadeSearches : Prop :=
  (∀ (p : Fin 4) (h : FrameHead) (num : BitVec 16) (issuer : Byte) (s : State), s.Canon → s.lstate p.val = 5 → s.TakesWhole p.val h →
    (∀ key mask, FrameActs (.searchKey p h num issuer key mask) p.val s (fun u t =>
      let hit := u.camSearch 2 key mask
      t.cams = u.cams ∧
      (u.rank ≠ 0 → t.mem = u.mem ∧ t.company.report = some (issuer.toNat, num.toNat, hit.win.isSome) ∧ t.company.searches = u.company.searches ∧
        ∀ x q, hit.win = some x → u.portToRank 0 = some q → t.Sends q 0x41 (searchHead num.toNat issuer.toNat ++
          (Word.leBytes 4 x.1 ++ Word.leBytes 4 hit.count ++ Word.leBytes 8 x.2.toNat))) ∧
      (u.rank = 0 → u.company.searches = [] → u.otherRanks ≠ [] → t.mem = u.mem ∧ t.company.searches =
        [{ issuer := issuer.toNat, num := num.toNat, own := searchResult hit, bits := [], results := [], lost := false }]))) ∧
    (∀ index count data x, s.company.searches = [x] → x.issuer = issuer.toNat → x.num = num.toNat → x.lost = false → x.bits = [] →
      s.otherRanks ≠ [] → (∀ y, y ∈ x.results → y.1 ≠ s.peerRank p.val) →
      FrameActs (.searchResult p h num issuer index count data) p.val s (fun _ t => t.company.searches = [{ x with
        results := x.results ++ [(s.peerRank p.val, Word.leBytes 4 index.toNat ++ Word.leBytes 4 count.toNat ++ Word.leBytes 8 data.toNat)] }])) ∧
    (∀ res : List Byte, FrameActs (.searchResolved p h num issuer res) p.val s (fun u t =>
      (issuer.toNat ≠ u.rank → t = u) ∧
      ((u.unit (camPage 0)).run = none → t = u) ∧
      (∀ r, issuer.toNat = u.rank → (u.unit (camPage 0)).run = some r → r.pages = [num.toNat] → r.fin = none →
        let a := field r.job.desc 16 8 + 32 * r.at_
        u.agentFault false a 32 = none → u.Writable a 32 → ∃ r', (t.unit (camPage 0)).run = some r' ∧ r'.at_ = r.at_ + 1 ∧ t.bytesAt a 32 = fit 32 (fit 24 res))))) ∧
  (∀ (p : Fin 4) (report : BitVec 16) (s : State), s.Canon →
    (report.getLsbD 15 = false → exec (.matchReport p report) s = .next s) ∧
    (((List.range 16).filter (fun i => report.getLsbD i)).length % 2 = 0 → exec (.matchReport p report) s = .next s) ∧
    (report.getLsbD 15 = true → report.getLsbD 14 = false → ((List.range 16).filter (fun i => report.getLsbD i)).length % 2 = 1 →
      ∀ x, s.company.searches = [x] → x.issuer = (report.extractLsb' 12 2).toNat → x.num = (report.extractLsb' 1 11).toNat →
        x.lost = false → x.own ≠ [] → x.bits = [] → s.otherRanks = [s.peerRank p.val] → Answers (.matchReport p report) s (fun t => t.company.searches = [])))

/-! ## Power, resets and the host endpoint -/

/-- Losing the supply, PERST# and a thermal trip leave the module OFF with its reset cause: memories, registers and queues are at reset, the host's memory,
keys, firmware slots and fuses are not touched. With the supply in range, PERST# high and no trip in force, the boot ROM starts the
image it verifies, or the module stays in RECOVERY; when the boot is complete the module is READY, or a controller that could not be
trained drops the curtain, class 8 (R259, R341, R473, R476, R493, R494, R516). -/
def Obligations.PowerAndBoot : Prop :=
  ∀ (s : State), s.Canon →
    let down := fun (cause : Nat) (t : State) => t.mdl.st = .off ∧ t.mdl.curtain = false ∧ t.mdl.halt = false ∧ t.mem = [] ∧ t.cores = [] ∧
      t.qpairs = [] ∧ t.tables = [] ∧ t.cue = Cue.reset ∧ t.host = s.host ∧ t.keys.slots = s.keys.slots ∧ t.keys.kt = s.keys.kt ∧
      t.keys.comps = [] ∧ t.flash.slotA = s.flash.slotA ∧ t.flash.slotB = s.flash.slotB ∧ t.flash.active = s.flash.active ∧
      t.flash.svnFuse = s.flash.svnFuse ∧ t.reg modctlPage 0x064 = BitVec.ofNat 32 cause ∧
      ∀ k, k ≠ regKey modctlPage 0x064 → Sparse.get resetWord t.regs k = resetWord k
    let boots := fun (t : State) => (∀ f, s.flash.boot = some f → t.mdl.st = .boot ∧ t.flash = f) ∧
      (s.flash.boot = none → t.mdl.st = .recovery ∧ t.flash = s.flash)
    (s.mdl.st ≠ .off → Answers .perstAssert s (fun t => down 2 t ∧ t.mdl.perst = true)) ∧
    (s.mdl.st = .off → Answers .perstAssert s (fun t => t.mdl = { s.mdl with perst := true } ∧ t.regs = s.regs)) ∧
    Answers .supplyLoss s (fun t => down (if s.mdl.tripped = true then 5 else 1) t ∧ t.mdl.supply = false) ∧
    (s.mdl.st ≠ .off → Answers .thermalTrip s (fun t => down 5 t ∧ t.mdl.tripped = true)) ∧
    (s.mdl.st = .off → exec .thermalTrip s = .next s) ∧
    (s.mdl.st = .off → s.mdl.supply = true → s.mdl.tripped = false → Answers .perstDeassert s (fun t => boots t ∧ t.mdl.perst = false)) ∧
    (s.mdl.st = .off → s.mdl.tripped = true → Answers .perstDeassert s (fun t => t.mdl.st = .off ∧ t.mem = s.mem)) ∧
    (∀ ms, s.mdl.st = .off → s.mdl.perst = false → (s.mdl.tripped = false ∨ s.mdl.supply = false ∧ 1000 ≤ ms) →
      Answers (.supplyRestored ms) s (fun t => boots t ∧ t.mdl.supply = true ∧ t.mdl.tripped = false)) ∧
    (∀ ms, s.mdl.st = .off → s.mdl.tripped = true → ms < 1000 →
      Answers (.supplyRestored ms) s (fun t => t.mdl.st = .off ∧ t.mdl.supply = true ∧ t.mdl.tripped = true)) ∧
    (s.mdl.st = .boot → ∀ r, Answers (.bootComplete r) s (fun t => (∃ (u : State) (m : Nat), m < 22 ∧ t = u.enterCurtain 8 (memcPage m) ∧ (u.memc m).unit = 5 ∧
        u.mdl = s.mdl) ∨ (t.mdl.st = .ready ∧ t.mdl.curtain = s.mdl.curtain ∧ ∀ m, m < 22 → (t.memc m).unit ≠ 5))) ∧
    (s.mdl.st ≠ .boot → ∀ r, exec (.bootComplete r) s = .next s)

/-- A sensor's register shows its reading, and a warning is counted where one begins: the junction at 95 °C, ended below 90 °C, the input outside 46 V to 58 V, a rail
more than 30 parts off, a DRAM above 85 °C. A reading beyond its curtain limit drops the curtain in the PWR page, class 5 for a temperature and 6 for a voltage;
of a module that is off nothing is read (R258, R485, R493, R498). -/
def Obligations.SensorReadings : Prop :=
  (∀ (s : State) (sensor d : BitVec 8), s.Canon → s.mdl.st ≠ .off → Answers (.sensorWarning (.junction sensor d)) s (fun t =>
    t.reg pwrPage 0x044 = BitVec.ofNat 32 (sensor.toNat * 256 + d.toNat) ∧
    t.fld pwrPage 0x048 7 0 = max (s.fld pwrPage 0x048 7 0) d.toNat ∧
    (s.mdl.tjHot = false → 95 ≤ d.toNat → t.mdl.tjHot = true ∧ t.reg pwrPage 0x058 = s.reg pwrPage 0x058 + 1 ∧ t.fld pwrPage 0x010 0 0 = 1) ∧
    (s.mdl.tjHot = false → d.toNat < 95 → t.mdl = s.mdl ∧ t.reg pwrPage 0x058 = s.reg pwrPage 0x058) ∧
    (s.mdl.tjHot = true → d.toNat < 90 → t.mdl.tjHot = false ∧ t.fld pwrPage 0x010 1 1 = 1) ∧
    (s.mdl.tjHot = true → 90 ≤ d.toNat → t.mdl = s.mdl ∧ t.reg pwrPage 0x058 = s.reg pwrPage 0x058) ∧ t.mem = s.mem)) ∧
  (∀ (s : State) (mv : BitVec 16), s.Canon → s.mdl.st ≠ .off → Answers (.sensorWarning (.vin mv)) s (fun t =>
    let bad := mv.toNat < 46000 ∨ 58000 < mv.toNat
    t.reg pwrPage 0x04C = BitVec.ofNat 32 mv.toNat ∧ (t.mdl.vinWarn = true ↔ bad) ∧
    t.reg pwrPage 0x058 = s.reg pwrPage 0x058 + (if bad ∧ s.mdl.vinWarn = false then 1 else 0) ∧ t.mem = s.mem)) ∧
  (∀ (s : State) (x : SensorReading), s.Canon → s.mdl.st ≠ .off → ∀ r p, x = .rail r p → Answers (.sensorWarning x) s (fun t =>
    (30 < p → Word.bit r.val t.mdl.railsBad = true ∧ t.reg pwrPage 0x054 = s.reg pwrPage 0x054 ||| BitVec.ofNat 32 (2 ^ r.val) ∧
      t.reg pwrPage 0x058 = s.reg pwrPage 0x058 + (if Word.bit r.val s.mdl.railsBad = true then 0 else 1)) ∧
    (p ≤ 30 → Word.bit r.val t.mdl.railsBad = false ∧ t.regs = s.regs) ∧ t.mem = s.mem)) ∧
  (∀ (s : State) (x : SensorReading), s.Canon → s.mdl.st ≠ .off → ∀ m d, x = .dram m d → Answers (.sensorWarning x) s (fun t =>
    (85 < d.toNat → t.reg (memcPage m.val) 0x060 = BitVec.ofNat 32 (256 + d.toNat) ∧
      (s.fld (memcPage m.val) 0x060 8 8 = 0 → t.fld (memcPage m.val) 0x010 3 3 = 1)) ∧
    (d.toNat ≤ 85 → t.reg (memcPage m.val) 0x060 = BitVec.ofNat 32 d.toNat) ∧ t.mem = s.mem ∧ t.mdl = s.mdl)) ∧
  (∀ (s : State) (x : SensorReading) (cls : Nat), s.Canon → curtainClass x = some cls → s.mdl.st ≠ .off →
    Answers (.sensorCurtainLimit x) s (fun t => ∃ u : State, t = u.enterCurtain cls pwrPage ∧ u.mdl.st = s.mdl.st ∧
      u.mdl.curtain = s.mdl.curtain ∧ u.mem = s.mem ∧ u.cue = s.cue)) ∧
  (∀ (s : State) (x : SensorReading), s.mdl.st = .off → exec (.sensorWarning x) s = .next s ∧ exec (.sensorCurtainLimit x) s = .next s) ∧
  (∀ r p, curtainClass (.rail r p) = (if 50 < p then some 6 else none)) ∧
  (∀ m d, curtainClass (.dram m d) = (if 95 ≤ d.toNat then some 5 else none)) ∧
  (∀ d : BitVec 8, ∀ k : BitVec 8, curtainClass (.junction k d) = (if 105 ≤ d.toNat then some 5 else none)) ∧
  (∀ mv : BitVec 16, curtainClass (.vin mv) = (if mv.toNat < 44000 ∨ 59000 < mv.toNat then some 6 else none))

/-- The safety curtain falls: the running cue is abandoned uncommitted, every job, every dispatched item and the work of every core end, MODCTL shows the page and the
class, FAULT_CUE is the abandoned cue, and its event is raised; a second fault, and one of a module that is off, booting or in recovery, changes nothing. Shown of the
stage manager's watchdog, class 9, on a module on which no admin command waits (R15, R68, R187, R287, R484, R485, R487, R491). -/
def Obligations.CurtainStopsTheModule : Prop :=
  ∀ (s : State), s.Canon →
    (s.mdl.curtain = true ∨ s.mdl.st = .off ∨ s.mdl.st = .boot ∨ s.mdl.st = .recovery → exec .watchdogExpiry s = .next s) ∧
    (s.mdl.curtain = false → s.mdl.halt = false → s.mdl.st = .ready ∨ s.mdl.st = .service → s.mdl.standbyOp = none →
      s.adminWait = none → s.adminBacklog = [] → s.camDeltas = [] → s.snapExport = none → s.evictedExport = none →
      Answers .watchdogExpiry s (fun t => t.mdl.curtain = true ∧ t.mdl.st = s.mdl.st ∧ t.mdl.faultCue = s.cue.number ∧
        t.reg modctlPage 0x044 = BitVec.ofNat 32 (modctlPage * 65536 + 9) ∧ t.fld modctlPage 0x010 1 1 = 1 ∧
        t.cue.phase = .none ∧ t.cue.sealedSet = [] ∧ t.cue.buffer = [] ∧ t.cue.number = s.cue.number ∧ t.cue.committed = s.cue.committed ∧
        t.jobs = [] ∧ (∀ c, c < 12 → (t.disp c).items = []) ∧ (∀ k, (t.coreAt k).held = none ∧ (t.coreAt k).sb = [])))

/-- MODULE_RESET with its key, and a hot reset, leave every block behind the host endpoint at reset: no queue, no attached table, no cue in progress, curtain and halt
ended, the last committed cue kept, the tables kept aside, RESETS counted with the cause; a wrong key and a module in recovery are refused. A hot reset also resets the
function and ends a containment, and does that alone to a module in recovery. FLR removes queues and pages of the function and what came through them, and cues run on (R430, R431, R475, R476, R477, R497).
What a containment outlives, that an FLR drops the admin commands that wait, and which sticky fields it keeps, is the model's reading (log entries 26, 49
and 144). -/
def Obligations.ModuleResets : Prop :=
  ∀ (key : Word32) (s : State), s.Canon →
    let fresh := fun (cause : Nat) (t : State) => t.mdl.st = .ready ∧ t.mdl.curtain = false ∧ t.mdl.halt = false ∧ t.qpairs = [] ∧ t.tables = [] ∧
      t.jobs = [] ∧ t.cue.unit = 1 ∧ t.cue.phase = .none ∧ t.cue.number = t.cue.committed ∧ t.adminWait = none ∧ t.keys = s.keys ∧ t.host = s.host ∧
      t.fld modctlPage 0x064 31 0 = cause ∧ t.reg modctlPage 0x068 = s.reg modctlPage 0x068 + 1 ∧
      ∀ p, p ∈ s.tables → Sparse.get (fun _ => none) t.detached p.1 = p.2
    let ok := key.toNat % 65536 = 0xA55E
    (s.mdl.st = .off → exec (.moduleReset key) s = .next s ∧ exec .hotReset s = .next s ∧ exec .flr s = .next s) ∧
    (s.mdl.st ≠ .off → s.reg modctlPage 0x020 = 0 →
      (¬ ok → Answers (.moduleReset key) s (fun t => t.reg modctlPage 0x020 = 0x0100 ∧ t.mdl = s.mdl ∧ t.mem = s.mem)) ∧
      (ok → s.mdl.st = .recovery → Answers (.moduleReset key) s (fun t => t.reg modctlPage 0x020 = 0x0101 ∧ t.mdl = s.mdl ∧ t.mem = s.mem))) ∧
    (s.mdl.st ≠ .off → s.mdl.st ≠ .recovery →
      (ok → Answers (.moduleReset key) s (fun t => fresh 4 t ∧ t.hep = s.hep)) ∧
      Answers .hotReset s (fun t => fresh 3 t ∧ t.hep.frozen = false ∧ t.hep.bme = false ∧ t.hep.msixEn = false ∧ t.hep.pba = [])) ∧
    (s.mdl.st = .recovery → exec .hotReset s = .next { s with hep := { s.hep.configReset with frozen := false } }) ∧
    (s.mdl.st ≠ .off → Answers .flr s (fun t => t.qpairs = [] ∧ t.jobs = [] ∧ t.cue.buffer = [] ∧ t.adminWait = none ∧ t.adminBacklog = [] ∧
      t.journal = none ∧ t.hep.bme = false ∧ t.hep.frozen = s.hep.frozen ∧ t.cue.number = s.cue.number ∧ t.cue.phase = s.cue.phase ∧
      t.cue.sealedSet = s.cue.sealedSet ∧ t.mdl = s.mdl ∧ t.keys = s.keys ∧ t.reg qengPage 0x06C = s.reg qengPage 0x06C ∧ t.reg qengPage 0x070 = s.reg qengPage 0x070 ∧
      ∀ o, o < 4096 → o ≠ 0x06C → o ≠ 0x070 → t.reg qengPage o = resetWord (regKey qengPage o)))

/-- STANDBY.REQ written 1 on a quiet module begins entry, and on another records the condition that fails; entry ends with every controller in self-refresh and the module in
STANDBY; written 0 it begins the exit, and the exit restores the state, with the cores as a reset leaves them, before what waited is
served (R267, R473, R481–R484).
That a core is then idle until a TAKE is the model's choice (log entry 25). -/
def Obligations.StandbyEntersAndExits : Prop :=
  ∀ (s : State), s.Canon →
    let m := s.mdl
    (m.st = .ready ∨ m.st = .service → m.curtain = false → m.halt = false → m.standbyOp = none →
      (s.notQuiet = none → Answers .standbyRequest s (fun t => t.mdl = { m with standbyOp := some (.entering false) } ∧
        t.fld pwrPage 0x040 0 0 = 1 ∧ t.mem = s.mem)) ∧
      (∀ n, s.notQuiet = some n → s.reg pwrPage 0x020 = 0 → Answers .standbyRequest s (fun t => t.mdl = m ∧ t.reg pwrPage 0x020 = 0x0100 ∧
        t.reg pwrPage 0x024 = BitVec.ofNat 32 n ∧ t.mem = s.mem))) ∧
    (∀ after, m.standbyOp = some (.entering after) → Answers .standbyEntryDone s (fun t => t.mdl.st = .standby ∧ t.mdl.before = m.st ∧
      t.mdl.standbyOp = (if after = true then some .exiting else none) ∧ t.fld pwrPage 0x010 3 3 = 1 ∧
      ∀ p, p ∈ t.memcs → p.2.unit = 2 → p.2.selfRefresh = true)) ∧
    ((∀ after, m.standbyOp ≠ some (.entering after)) → exec .standbyEntryDone s = .next s) ∧
    (m.st ≠ .ready ∧ m.st ≠ .service ∨ m.curtain = true ∨ m.halt = true ∨ m.standbyOp.isSome = true → exec .standbyRequest s = .next s) ∧
    (m.standbyOp = none → m.st ≠ .standby → Answers .standbyExitRequest s (fun t => t.mdl = m ∧ t.mem = s.mem)) ∧
    (m.standbyOp = none → m.st = .standby → Answers .standbyExitRequest s (fun t => t.mdl = { m with standbyOp := some .exiting } ∧
      t.fld pwrPage 0x040 0 0 = 0 ∧ t.mem = s.mem)) ∧
    (∀ after, m.standbyOp = some (.entering after) → Answers .standbyExitRequest s (fun t =>
      t.mdl = { m with standbyOp := some (.entering true) } ∧ t.mem = s.mem)) ∧
    (m.standbyOp = some .exiting → Answers .standbyExitDone s (fun t => ∃ u : State, t = u.hostReturns.mgmtDue ∧ u.mdl.st = m.before ∧
      u.mdl.standbyOp = none ∧ u.fld pwrPage 0x040 0 0 = 0 ∧ u.fld pwrPage 0x010 4 4 = 1 ∧ u.mem = s.mem ∧
      (∀ p, p ∈ u.memcs → p.2.unit = 2 → p.2.selfRefresh = false) ∧
      ∀ k, k < 192 → (u.coreAt k).held = none ∧ (u.coreAt k).sb = [])) ∧
    (m.standbyOp ≠ some .exiting → exec .standbyExitDone s = .next s)

/-- Containment: an uncorrectable error or a link-down freezes the HEP with its cause, counted once, and a link-down also resets the function; CONTAIN.RELEASE of a frozen
endpoint with its link up ends it, with every doorbell rung, and is otherwise refused; the loss of REFCLK is a link-down. A freeze beyond its limit raises its event
(R425–R428, R513).
What a containment outlives is the model's reading (log entry 26). -/
def Claims.HostContainment : Prop :=
  ∀ (s : State) (aer : Word32), s.Canon → s.mdl.st ≠ .off →
    let pg := hepPage
    let frozen := fun (cause : Nat) (t : State) => t.hep.frozen = true ∧ t.mem = s.mem ∧ t.host = s.host ∧ t.cue = s.cue ∧
      (s.hep.frozen = false → t.fld pg 0x044 1 0 = cause ∧ t.reg pg 0x050 = s.reg pg 0x050 + 1 ∧ t.fld pg 0x010 0 0 = 1) ∧
      (s.hep.frozen = true → t.fld pg 0x044 1 0 = Nat.lor (s.fld pg 0x044 1 0) cause ∧ t.reg pg 0x050 = s.reg pg 0x050)
    let dropped := fun (t : State) => t.hep.linkUp = false ∧ t.hep.bme = false ∧ t.hep.msixEn = false ∧ t.hep.pba = [] ∧ t.fld pg 0x010 3 3 = 1
    Answers (.hepFreeze false aer) s (fun t => frozen 1 t ∧ t.hep.linkUp = s.hep.linkUp ∧ t.hep.bme = s.hep.bme) ∧
    Answers (.hepFreeze true aer) s (fun t => frozen (if aer = 0 then 2 else 3) t ∧ dropped t) ∧
    Answers .refclkStop s (fun t => frozen 2 t ∧ dropped t ∧ t.irtr.refclk = false) ∧
    Answers .refclkRestore s (fun t => t.irtr.refclk = true ∧ t.hep = s.hep ∧ t.mem = s.mem) ∧
    (s.hep.frozen = false → s.reg pg 0x020 = 0 → Answers .containRelease s (fun t => t.reg pg 0x020 = 0x0101 ∧ t.hep = s.hep)) ∧
    (s.hep.frozen = true → s.hep.linkUp = false → s.reg pg 0x020 = 0 → Answers .containRelease s (fun t =>
      t.reg pg 0x020 = 0x0102 ∧ t.hep = s.hep)) ∧
    (s.hep.frozen = true → s.hep.linkUp = true → Answers .containRelease s (fun t => ∃ u : State, t = u.hostReturns.evt modctlPage 3 ∧
      u.hep = { s.hep with frozen := false } ∧ u.fld pg 0x010 1 1 = 1 ∧ u.mem = s.mem ∧
      ∀ p, p ∈ u.qpairs → p.2.rung = p.2.sqOn ∧ p.2.cqRung = p.2.cqOn)) ∧
    (∀ us, s.hep.frozen = true → s.fld pg 0x048 16 0 < us → Answers (.containTimeout us) s (fun t =>
      t.fld pg 0x010 2 2 = 1 ∧ t.hep.frozen = true ∧ t.mem = s.mem ∧
      (s.role = 1 → s.redundant = true → t.company.yielded = true))) ∧
    (∀ us, s.hep.frozen = false ∨ us ≤ s.fld pg 0x048 16 0 → exec (.containTimeout us) s = .next s)

/-- The function: the link coming up leaves a freeze in force; clearing Bus Master Enable and D3hot hold what the queue engine has, and setting it, and D0, lead to its service;
unmasking sends what is pending where the endpoint may send. A BAR0 access of a wrong size records its offset. A write through the inbound window is stored while no cue
runs, and discarded and counted while cues run; a read changes nothing (R395, R397, R398, R401, R403, R426). -/
def Claims.HostFunction : Prop :=
  ∀ (s : State), s.Canon →
    let pg := hepPage
    (∀ speed width, s.mdl.st ≠ .off → Answers (.pcieLinkUp speed width) s (fun t => t.hep = { s.hep with
      linkUp := true, everUp := true, speed := speed.toNat, width := width.toNat } ∧ t.regs = s.regs ∧ t.mem = s.mem)) ∧
    Answers (.busMasterEnableWrite false) s (fun t => t = { s with hep := { s.hep with bme := false } }) ∧
    Answers (.busMasterEnableWrite true) s (fun t => t = ({ s with hep := { s.hep with bme := true } } : State).hostReturns) ∧
    Answers .d3hotEntry s (fun t => t = { s with hep := { s.hep with d0 := false } }) ∧
    Answers .d0Return s (fun t => t = ({ s with hep := { s.hep with d0 := true } } : State).hostReturns) ∧
    (∀ v : Fin 2048, s.hep.canSend = true → s.hep.msixEn = true → s.hep.msixMask = false → s.hep.pba = [v.val] →
      Answers (.msixUnmask (some v)) s (fun t => t.hep.sent = s.hep.sent ++ [v.val] ∧ t.hep.pba = [] ∧ v.val ∈ t.hep.unmasked ∧ t.regs = s.regs)) ∧
    (s.hep.canSend = false → Answers (.msixUnmask none) s (fun t => t.hep = { s.hep with msixEn := true, msixMask := false } ∧ t.mem = s.mem)) ∧
    (∀ off w, s.hostReaches = true → s.reg pg 0x020 = 0 → Answers (.bar0BadSizeAccess off w) s (fun t =>
      t.reg pg 0x020 = 0x0104 ∧ t.reg pg 0x024 = BitVec.ofNat 32 off.toNat ∧ t.mem = s.mem)) ∧
    (∀ off bs, s.hostReaches = true → off + bs.length ≤ s.fld pg 0x060 7 0 * 2 ^ 20 →
      (s.cue.unit ≠ 2 → Answers (.inwinWrite off bs) s (fun t => t.bytesAt (s.inwinBase + off) bs.length = bs ∧ t.regs = s.regs ∧
        ∀ a, a < s.inwinBase + off ∨ s.inwinBase + off + bs.length ≤ a → t.byteAt a = s.byteAt a)) ∧
      (s.cue.unit = 2 → Answers (.inwinWrite off bs) s (fun t => t.mem = s.mem ∧ t.reg pg 0x064 = s.reg pg 0x064 + 1 ∧
        t.fld pg 0x010 4 4 = 1))) ∧
    (∀ off bs, s.hostReaches = false ∨ s.fld pg 0x060 7 0 * 2 ^ 20 < off + bs.length → exec (.inwinWrite off bs) s = .next s) ∧
    (∀ off n, exec (.inwinRead off n) s = .next s) ∧
    (∀ off n, s.hostReaches = true → off + n ≤ s.fld pg 0x060 7 0 * 2 ^ 20 → s.inwinRead off n = some (s.bytesAt (s.inwinBase + off) n)) ∧
    (∀ off n, s.fld pg 0x060 7 0 * 2 ^ 20 < off + n → s.inwinRead off n = none)
/-! ## I/O queues -/

/-- The driver places an entry of each I/O opcode in the ring of its queue and its data at DATA_ADDR, in the layout of R409, and advances SQ_PROD; nothing else in host memory
changes, and the module does not act on it. A queue number without a submission queue has no ring (R404, R409). -/
def Claims.EntriesArePlaced : Prop :=
  (∀ (opc : Nat) (e : Sqe), opc < 65536 → let b := sqeBytes opc e
    b.length = 64 ∧ field b 0 2 = opc ∧ field b 2 1 = e.flags.toNat ∧ field b 4 4 = e.seq.toNat ∧ field b 8 8 = e.orderKey.toNat ∧
      field b 16 4 = e.declLen.toNat ∧ field b 20 2 = e.pipe.toNat ∧ field b 24 8 = e.dataAddr.toNat ∧ b.drop 32 = fit 32 e.args) ∧
  (∀ (i : Fin 1024 → Sqe → Instr) (opc : Nat), (i, opc) ∈ [(Instr.txn, 0x0010), (Instr.query, 0x0020), (Instr.queryCancel, 0x0021),
      (Instr.svcSign, 0x0030), (Instr.svcVerify, 0x0031), (Instr.svcDigest, 0x0032)] →
    ∀ (q : Fin 1024) (e : Sqe) (s : State), s.Canon →
      let p := s.qp q.val
      let prod := s.hostValAt p.idxAddr 4
      let slot := p.sqAddr + 64 * (prod % 2 ^ p.sqLog)
      (p.sqOn = false → exec (i q e) s = .next s) ∧
      (p.sqOn = true → Answers (i q e) s (fun t => t = { s with host := t.host } ∧ t.hostValAt p.idxAddr 4 = (prod + 1) % 2 ^ 32 ∧
        (slot + 64 ≤ p.idxAddr ∨ p.idxAddr + 4 ≤ slot → t.hostBytesAt slot 64 = sqeBytes opc e ∧
          let a := e.dataAddr.toNat
          let n := e.data.length
          ((a + n ≤ slot ∨ slot + 64 ≤ a) → (a + n ≤ p.idxAddr ∨ p.idxAddr + 4 ≤ a) → t.hostBytesAt a n = e.data)) ∧
        ∀ a, (a < slot ∨ slot + 64 ≤ a) → (a < p.idxAddr ∨ p.idxAddr + 4 ≤ a) →
          (a < e.dataAddr.toNat ∨ e.dataAddr.toNat + e.data.length ≤ a) →
          Sparse.get blankHost t.host a = Sparse.get blankHost s.host a)))

/-- A doorbell that reaches no queue is counted; one of a queue that may fetch reads SQ_PROD, fetches the new entries in ring order as far as the admission buffer has room, and
writes SQ_CONS; one that cannot be served stays rung; an index out of range halts the module with cause 4. A completion doorbell takes CQ_CONS (R35, R396, R405, R406, R421). -/
def Claims.Doorbells : Prop :=
  ∀ (q : Fin 1024) (s : State), s.Canon →
    let p := s.qp q.val
    let prod := s.hostValAt p.idxAddr 4
    let d := ringDist prod p.sqCons
    (s.hostReaches = false → exec (.sqDoorbell q) s = .next s) ∧
    (s.hostReaches = true → p.sqOn = false → Answers (.sqDoorbell q) s (fun t => t.reg qengPage 0x078 = s.reg qengPage 0x078 + 1 ∧
      t.fld qengPage 0x010 1 1 = 1 ∧ t.qpairs = s.qpairs ∧ t.cue = s.cue ∧ t.host = s.host)) ∧
    (q.val ≠ 0 → s.hostReaches = true → p.sqOn = true →
      (s.mayFetch q.val = false → exec (.sqDoorbell q) s = .next (s.setQp q.val { p with rung := true })) ∧
      (s.mayFetch q.val = true → 2 ^ p.sqLog < d → Answers (.sqDoorbell q) s (fun t =>
        t = (s.setQp q.val { p with sqProd := prod, rung := false }).houseHalt 4 q.val prod)) ∧
      (s.mayFetch q.val = true → d ≤ 2 ^ p.sqLog → p.sqCons < 2 ^ 32 → d + s.cue.buffer.length + s.inFlight ≤ 65536 →
        Answers (.sqDoorbell q) s (fun t => ∃ es : List Entry, es.length = d ∧ t.qp q.val = { p with
            sqProd := prod, sqCons := (p.sqCons + d) % 2 ^ 32, rung := false, fetched := p.fetched ++ es } ∧
          (∀ i x, es[i]? = some x → x.sq = q.val ∧ x.idx = (p.sqCons + i) % 2 ^ 32 ∧
            x.sqe = s.hostBytesAt (p.sqAddr + 64 * ((p.sqCons + i) % 2 ^ 32 % 2 ^ p.sqLog)) 64) ∧
          (0 < d → t.hostValAt (p.idxAddr + 0x40) 4 = (p.sqCons + d) % 2 ^ 32) ∧
          t.reg qengPage 0x074 = s.reg qengPage 0x074 + BitVec.ofNat 32 d ∧ t.cue = s.cue ∧ ∀ r, r ≠ q.val → t.qp r = s.qp r))) ∧
    (∀ cons : Word32, s.journal = none → s.hostReaches = true →
      (p.cqOn = false → Answers (.cqDoorbell q cons) s (fun t => t.reg qengPage 0x078 = s.reg qengPage 0x078 + 1 ∧ t.qpairs = s.qpairs)) ∧
      (q.val ≠ 0 → p.cqOn = true → s.hostOk = true →
        (ringDist p.cqProd cons.toNat ≤ 2 ^ p.cqLog → p.held = [] → Answers (.cqDoorbell q cons) s (fun t =>
          t.qp q.val = { p with cqCons := cons.toNat, cqRung := false } ∧ t.hostValAt (p.idxAddr + 0xC0) 4 = cons.toNat ∧
          t.regs = s.regs ∧ ∀ r, r ≠ q.val → t.qp r = s.qp r)) ∧
        (2 ^ p.cqLog < ringDist p.cqProd cons.toNat → Answers (.cqDoorbell q cons) s (fun t => ∃ u : State,
          t = u.houseHalt 4 q.val cons.toNat ∧ u = { s with host := u.host, qpairs := u.qpairs })))) ∧
    (∀ cons, s.hostReaches = false → Answers (.cqDoorbell q cons) s (fun t => t = { s with host := t.host }))

/-- The next fetched entry of a queue arrives in the admission buffer; a malformed one halts the module; behind the curtain a command that is no service command ends with CURTAIN.
A halt stops all work, keeps the cue number and the last committed cue, shows the cause, the queue and the index, and leaves no entry fetched (R30, R421–R423, R488, R492). -/
def Obligations.ArrivalAndHalt : Prop :=
  ∀ (q : Fin 1024) (s : State), s.Canon →
    let p := s.qp q.val
    (p.fetched = [] → exec (.entryArrival q) s = .next s) ∧
    (∀ e rest, p.fetched = e :: rest →
      (ioFault p e.sqe = none → s.mdl.curtain = false → s.sendsArrivals = false → exec (.entryArrival q) s =
        .next { s.setQp q.val { p with fetched := rest } with cue := { s.cue with buffer := s.cue.buffer ++ [e] } }) ∧
      (ioFault p e.sqe = none → s.mdl.curtain = true → field e.sqe 0 2 < 0x30 → Answers (.entryArrival q) s (fun t => ∃ c : Cqe,
        t = ((s.setQp q.val { p with fetched := rest }).holdCqe e.sq c).flushAll ∧ c.slot = none ∧
        c.bytes = cqeBytes (field e.sqe 4 4) e.sq 0x0300 s.mdl.faultCue [])) ∧
      (∀ c, ioFault p e.sqe = some c → s.mdl.halt = false → Answers (.entryArrival q) s (fun t => t.mdl.halt = true ∧
        t.mdl.faultCue = s.cue.number ∧ t.reg qengPage 0x06C = BitVec.ofNat 32 (q.val * 65536 + c) ∧
        t.reg qengPage 0x070 = BitVec.ofNat 32 e.idx ∧ t.fld qengPage 0x010 0 0 = 1 ∧ (s.hep.frozen = false → t.fld modctlPage 0x010 2 2 = 1) ∧
        t.cue.number = s.cue.number ∧ t.cue.committed = s.cue.committed ∧ t.cue.phase = .none ∧ t.cue.sealedSet = [] ∧ t.cue.buffer = [] ∧
        t.jobs = [] ∧ t.adminWait = none ∧ (∀ r, (t.qp r).fetched = []) ∧ (∀ c, c < 12 → (t.disp c).items = []) ∧
        ∀ k, (t.coreAt k).held = none ∧ (t.coreAt k).sb = [])) ∧
      (∀ c, ioFault p e.sqe = some c → s.mdl.halt = true → exec (.entryArrival q) s = .next s))

/-! ## The admin queue -/

/-- AQ_CTL.EN written 1 on a disabled pair with a depth of 2^4 to 2^16 enables both rings of queue 0 with SQ_CONS = SQ_PROD as it stands in host memory and
CQ_PROD 0; a pair that is enabled records AQ_BUSY, and another depth PARAM_RANGE (R407, R433). -/
def Claims.AdminPairEnables : Prop :=
  ∀ (n : BitVec 5) (s : State), s.Canon →
    let on := s.fld qengPage 0x040 31 31 = 1
    let prod := s.hostValAt (s.pageAddr qengPage 0x054 0x058) 4
    (¬ on → 4 ≤ n.toNat → n.toNat ≤ 16 → Answers (.aqEnable n) s (fun t =>
      (t.qp 0).sqOn = true ∧ (t.qp 0).cqOn = true ∧ (t.qp 0).sqLog = n.toNat ∧ (t.qp 0).cqLog = n.toNat ∧ (t.qp 0).sqCons = prod ∧
      (t.qp 0).cqProd = 0 ∧ (t.qp 0).sqAddr = s.pageAddr qengPage 0x044 0x048 ∧ (t.qp 0).winBase = s.pageAddr qengPage 0x05C 0x060 ∧
      t.fld qengPage 0x040 31 31 = 1 ∧ t.hostValAt ((t.qp 0).idxAddr + 0x80) 4 = 0 ∧ (∀ q, q ≠ 0 → t.qp q = s.qp q) ∧ t.mem = s.mem)) ∧
    (s.reg qengPage 0x020 = 0 →
      (on → Answers (.aqEnable n) s (fun t => t.qpairs = s.qpairs ∧ t.reg qengPage 0x020 = 0x0101)) ∧
      (¬ on → (n.toNat < 4 ∨ 16 < n.toNat) → Answers (.aqEnable n) s (fun t => t.qpairs = s.qpairs ∧ t.reg qengPage 0x020 = 0x0100)))

/-- CREATE_CQ and CREATE_SQ make the queue that their fields describe, each once, a submission queue only beside its completion queue; DELETE_CQ removes a
completion queue that has no submission queue and holds no completion; DELETE_SQ refuses a number without a queue and a paused one, waits while cues run, and
otherwise ends the queue's entries; CREATE_JOURNAL_Q makes the journal queue, and DELETE_CQ of its number removes it (R187, R408, R416, R418). -/
def Claims.QueueCommands : Prop :=
  AdminRuns Instr.createCq 0x01 id (fun u b _ t =>
    let q := field b 32 2
    let log := field b 34 1
    let legal := 1 ≤ q ∧ q ≤ 1023 ∧ 4 ≤ log ∧ log ≤ 16 ∧ 2 ≤ field b 36 2 ∧ field b 36 2 ≤ 2047 ∧ field b 40 8 % 4096 = 0 ∧
      field b 40 8 + 32 * 2 ^ log ≤ 2 ^ 44 ∧ field b 48 8 % 256 = 0 ∧ field b 48 8 + 256 ≤ 2 ^ 44
    let used := (u.qp q).cqOn = true ∨ u.journal.map JournalQ.qid = some q
    (legal → ¬ used → Completes t b 0 u.plainCue [] (fun v => v.qp q = { QPair.none with
      cqOn := true, cqLog := log, cqAddr := field b 40 8, idxAddr := field b 48 8, vector := field b 36 2 })) ∧
    (legal → used → Completes t b 0x0208 u.plainCue [] (fun v => v = u)) ∧
    (q = 0 ∨ 1023 < q → Completes t b 0x010E u.plainCue (Word.leBytes 4 32) (fun v => v = u))) ∧
  AdminRuns Instr.createSq 0x02 id (fun u b _ t =>
    let q := field b 32 2
    let log := field b 34 1
    let win := field b 35 1
    let stride := field b 36 4
    let legal := 1 ≤ q ∧ q ≤ 1023 ∧ 4 ≤ log ∧ log ≤ 16 ∧ 12 ≤ win ∧ win ≤ 44 ∧
      (stride = 0 ∨ 64 ≤ stride ∧ stride ≤ 16384 ∧ stride % 64 = 0) ∧ field b 40 8 % 4096 = 0 ∧ field b 40 8 + 64 * 2 ^ log ≤ 2 ^ 44 ∧
      field b 48 8 % 64 = 0 ∧ field b 48 8 + stride * 2 ^ log ≤ 2 ^ 44 ∧ field b 56 8 % 2 ^ win = 0 ∧ field b 56 8 + 2 ^ win ≤ 2 ^ 44
    (legal → (u.qp q).cqOn = true → (u.qp q).sqOn = false → Completes t b 0 u.plainCue [] (fun v =>
      (v.qp q).sqOn = true ∧ (v.qp q).sqLog = log ∧ (v.qp q).winLog = win ∧ (v.qp q).resStride = stride ∧ (v.qp q).sqAddr = field b 40 8 ∧
      (v.qp q).resBase = field b 48 8 ∧ (v.qp q).winBase = field b 56 8 ∧ (v.qp q).sqCons = u.hostValAt (u.qp q).idxAddr 4)) ∧
    (legal → (u.qp q).cqOn = false → Completes t b 0x0209 u.plainCue [] (fun v => v = u)) ∧
    (legal → (u.qp q).cqOn = true → (u.qp q).sqOn = true → Completes t b 0x0208 u.plainCue [] (fun v => v = u))) ∧
  AdminRuns Instr.deleteCq 0x04 id (fun u b _ t =>
    let q := field b 32 2
    (1 ≤ q → q ≤ 1023 →
      (u.journal.map JournalQ.qid = some q → Completes t b 0 u.plainCue [] (fun v => v.journal = none ∧ v.exports = [])) ∧
      (u.journal.map JournalQ.qid ≠ some q →
        ((u.qp q).cqOn = false → Completes t b 0x0209 u.plainCue [] (fun v => v = u)) ∧
        ((u.qp q).cqOn = true → ((u.qp q).sqOn = true ∨ (u.qp q).held ≠ []) → Completes t b 0x020A u.plainCue [] (fun v => v = u)) ∧
        ((u.qp q).cqOn = true → (u.qp q).sqOn = false → (u.qp q).held = [] →
          Completes t b 0 u.plainCue [] (fun v => v.qp q = QPair.none))))) ∧
  ChangeRuns Instr.deleteSq 0x03 id (fun _ c v => ∀ q, c = .deleteSq q → (v.qp q).sqOn = false ∧ (v.qp q).fetched = [] ∧
    (∀ j, j ∈ v.jobs → j.sq ≠ q) ∧ ∀ e, e ∈ v.cue.buffer → e.sq ≠ q) ∧
  AdminRuns Instr.createJournalQ 0x05 id (fun u b _ t =>
    let q := field b 32 2
    let log := field b 34 1
    let len := field b 16 4
    let legal := len % 2 ^ 20 = 0 ∧ 2 ^ 26 ≤ len ∧ 1 ≤ q ∧ q ≤ 1023 ∧ 4 ≤ log ∧ log ≤ 16 ∧ field b 35 1 ≤ 1 ∧ 2 ≤ field b 36 2 ∧
      field b 36 2 ≤ 2047 ∧ field b 40 8 % 4096 = 0 ∧ field b 40 8 + 32 * 2 ^ log ≤ 2 ^ 44 ∧ field b 48 8 % 256 = 0 ∧ field b 48 8 + 256 ≤ 2 ^ 44
    (legal → u.journal = none → (u.qp q).cqOn = false → Completes t b 0 u.plainCue [] (fun v => v.journalCodec = field b 35 1 ∧
      ∃ j, v.journal = some j ∧ j.qid = q ∧ j.log = log ∧ j.bufAddr = field b 24 8 ∧ j.bufLen = len ∧ j.prod = 0 ∧ j.cons = 0)) ∧
    (legal → (u.journal ≠ none ∨ (u.qp q).cqOn = true) → Completes t b 0x0208 u.plainCue [] (fun v => v = u)))

/-- GET_FEATURE and SET_FEATURE read and write ANALYTIC_POOL and JOURNAL_CODEC, and an unknown feature is refused at its field; ATTEST writes its report to the host
with the identity's signature, or completes with RESULT_TOO_LARGE; FW_DOWNLOAD stores its bytes in the slot that is not active; START_CUES completes with the
first cue's number or its refusal; HOLD_CUES completes at once where no cue runs and otherwise at the hold; REHEARSE with PREPARE sets the cue number (R36,
R63, R73, R342, R347, R362, R416, R417). -/
def Obligations.PlainAdminCommands : Prop :=
  AdminRuns Instr.getFeature 0x08 id (fun u b _ t =>
    let id_ := field b 32 2
    (id_ = 0x0001 → Completes t b 0 u.plainCue (Word.leBytes 8 u.poolGib) (fun v => v = u)) ∧
    (id_ = 0x0002 → Completes t b 0 u.plainCue (Word.leBytes 8 (2 ^ 20)) (fun v => v = u)) ∧
    (id_ = 0x0010 → Completes t b 0 u.plainCue (Word.leBytes 8 u.journalCodec) (fun v => v = u)) ∧
    (id_ ≠ 0x0001 ∧ id_ ≠ 0x0002 ∧ id_ ≠ 0x0010 → Completes t b 0x010E u.plainCue (Word.leBytes 4 32) (fun v => v = u))) ∧
  AdminRuns Instr.setFeature 0x09 id (fun u b _ t => u.mdl.curtain = false → u.isFollower = false →
    let id_ := field b 32 2
    let val := field b 40 8
    (id_ = 0x0001 → 1 ≤ val → val ≤ 64 → Completes t b 0 u.plainCue [] (fun v => v = { u with poolGib := val })) ∧
    (id_ = 0x0010 → val ≤ 1 → Completes t b 0 u.plainCue [] (fun v => v = { u with journalCodec := val })) ∧
    (id_ = 0x0001 ∧ (val = 0 ∨ 64 < val) ∨ id_ = 0x0010 ∧ 1 < val →
      Completes t b 0x010E u.plainCue (Word.leBytes 4 40) (fun v => v = u)) ∧
    (id_ ≠ 0x0001 ∧ id_ ≠ 0x0010 → Completes t b 0x010E u.plainCue (Word.leBytes 4 32) (fun v => v = u))) ∧
  AdminRuns Instr.attest 0x31 id (fun u b _ t =>
    let body := u.attestBody (slice b 32 32)
    (field b 16 4 < body.length + 1464 → Completes t b 0x0109 u.plainCue [] (fun v => v = u)) ∧
    (body.length + 1464 ≤ field b 16 4 → ∀ sig, (u.idSign body lsuAll).1 = some sig →
      Completes t b 0 u.plainCue (Word.leBytes 4 (body.length + 1464)) (fun v =>
        v.hostBytesAt (field b 24 8) (body ++ sigField sig).length = body ++ sigField sig ∧ v.mem = u.mem))) ∧
  AdminRuns Instr.fwDownload 0x38 id (fun u b data t =>
    (2 ^ 26 < field b 40 8 + data.length → Completes t b 0x010E u.plainCue (Word.leBytes 4 40) (fun v => v = u)) ∧
    (field b 40 8 = 0 → data.length ≤ 2 ^ 26 → Completes t b 0 u.plainCue [] (fun v =>
      v.flash.busy = true ∧ v.flash.active = u.flash.active ∧ (v.flash.slot u.flash.active) = u.flash.slot u.flash.active ∧
      ∀ i, i < data.length → Sparse.get (fun _ => none) (v.flash.slot u.flash.inactive).bytes i = data[i]?))) ∧
  AdminRuns Instr.startCues 0x20 id (fun u b _ t => u.mdl.curtain = false → u.isFollower = false →
    (∀ r, u.startCheck = some r → Completes t b r.status u.plainCue r.info (fun v => v = u)) ∧
    (u.startCheck = none → Completes t b 0 u.nextCue [] (fun v => v.cue.starting = true ∧ v.cue.unit = u.cue.unit ∧
      v.pbook.alloc = true ∧ (u.cue.unit ≠ 2 → v.cue.par = u.cueRegs) ∧ (u.mdl.st = .ready → v.mdl.st = .service)))) ∧
  AdminRuns Instr.holdCues 0x21 id (fun u b _ t => u.mdl.curtain = false → u.isFollower = false →
    (u.cue.unit = 2 → t.cue.holdReq = true ∧ t.cue.starting = false ∧ t.adminWait.map AdminWait.change = some .hold ∧ t.mem = u.mem) ∧
    (u.cue.unit ≠ 2 → Completes t b 0 u.plainCue [] (fun v => v.cue.starting = false ∧ v.cue.holdCmd = decide (u.cue.unit = 3) ∧
      v.cue.unit = u.cue.unit))) ∧
  AdminRuns Instr.rehearsePrepare 0x22 (withOption 4 2) (fun u b _ t => u.mdl.curtain = false → u.isFollower = false →
    let refused := u.rehRefused || u.rehearse.prepared || u.tableList.any (fun x => decide (x.2.nextRow ≠ 0))
    (refused = true → Completes t b 0x0207 u.cue.committed [] (fun v => v = u)) ∧
    (refused = false → Completes t b 0 (field b 48 8) [] (fun v => v.cue.number = field b 48 8 ∧ v.cue.committed = field b 48 8 ∧
      v.rehearse.prepared = true ∧ v.rehearse.done = true ∧ v.mem = u.mem)))

/-- The commands that change pipelines, tables, keys or firmware: refused, they complete with the reason; accepted while cues run, they wait for a start instant; and where
no cue runs the change is in force at once (R36, R110, R112, R114, R115, R171, R173, R174, R335, R342, R415, R452). -/
def Obligations.ChangeCommands : Prop :=
  ChangeRuns Instr.loadPipeline 0x10 (withOption 2 0) (fun u c v => ∀ p, c = .load p → v.pipes = pipeInsert u.pipes (p.placed u.fresh)) ∧
  ChangeRuns Instr.loadPipelineReplace 0x10 (withOption 2 1) (fun u c v => ∀ p, c = .load p →
    v.pipes = pipeInsert u.pipes (p.placed u.fresh)) ∧
  ChangeRuns Instr.unloadPipeline 0x11 id (fun u c v => ∀ n, c = .unload n → v.pipes = u.pipes.filter (fun p => decide (p.id ≠ n))) ∧
  ChangeRuns Instr.attachTable 0x18 (withOption 2 0) (fun _ c v => ∀ d re, c = .attach d re →
    re = false ∧ v.table d.num = some (Table.empty d)) ∧
  ChangeRuns Instr.attachTableReattach 0x18 (withOption 2 1) (fun u c v => ∀ d re, c = .attach d re →
    re = true ∧ v.table d.num = Sparse.get (fun _ => none) u.detached d.num ∧ Sparse.get (fun _ => none) v.detached d.num = none) ∧
  ChangeRuns Instr.detachTable 0x19 id (fun _ c v => ∀ n, c = .detach n → v.table n = none) ∧
  ChangeRuns Instr.tableLoad 0x1A id (fun u c v => ∀ n x dig, c = .tableLoad n x dig → v.table n = some (x.begun u.soonCue)) ∧
  ChangeRuns Instr.keyImport 0x30 id (fun u c v => ∀ slot k kind dig, c = .keyImport slot k kind dig →
    v.keySlot slot = k ∧ v.reg keysPage 0x07C = u.reg keysPage 0x07C + 1) ∧
  ChangeRuns Instr.fwActivate 0x39 (withOption 2 0) (fun u c v => ∀ x, c = .fwActivate x →
    x = false ∧ v.flash.active = u.flash.inactive ∧ v.flash.busy = true) ∧
  ChangeRuns Instr.fwActivateCommitSvn 0x39 (withOption 2 1) (fun u c v => ∀ x, c = .fwActivate x →
    x = true ∧ v.flash.active = u.flash.active ∧ ∀ i, u.flash.run = some i → v.flash.svnFuse = max u.flash.svnFuse i.svn)

/-- Commands that take time: a FULL search array image waits until its arrays are written, a DELTA image beside the commands behind it; a SNAPSHOT_EXPORT pins the last
committed cue and completes when its image is written, or RESULT_TOO_LARGE in a buffer too short; the next part of an export block goes to the journal
queue with its entry; a rehearsal re-executes the cues of its stream in their order, and completes with the place of the first difference, or with 0 once its last cue is
reached; one that is refused, has a malformed stream or resumes without a pause or without the change says so, and one that resumes after the change goes on where
it paused (R111, R312, R313, R361, R363, R364, R416, R418). What the items of a rehearsed cue do comes with its row (Assumption 129). -/
def Obligations.LongCommands : Prop :=
  AdminRuns Instr.camLoad 0x1C id (fun u b data t => u.mdl.curtain = false → u.isFollower = false →
    let sent := u.sendsChanges
    let ident := if sent = true then some u.changeSeq else none
    let ok := !(sent && (u.redundant || u.company.lockAt.isSome))
    (∀ r, u.changeOf b data = some (.error r) → Completes t b r.status u.plainCue r.info (fun v => v = u)) ∧
    (∀ x, u.changeOf b data = some (.ok (.camFull x)) → x.full = true →
      t.adminWait = some { sqe := b, change := .camFull { x with ident := ident, ok := ok }, ident := ident, ok := ok } ∧ t.cams = u.cams) ∧
    (∀ x, u.changeOf b data = some (.ok (.camFull x)) → x.full = false → u.changeNow = false →
      t.adminWait = none ∧ t.camDeltas = [{ x with ident := ident, ok := ok }] ∧ t.cams = u.cams)) ∧
  (∀ (a : Fin 2) (s : State) (w : AdminWait) (c : CamPending), s.Canon → s.adminWait = some w → w.change = .camFull c → c.written = false →
    (handleArrays c.target).contains a.val = true → s.changeNow = false → s.adminBacklog = [] →
    Answers (.camFullWriteDone a) s (fun t => t.adminWait = some { w with change := .camFull { c with written := true } } ∧
      (t.cam a.val).mode = c.mode ∧ t.mem = s.mem)) ∧
  AdminRuns Instr.snapshotExport 0x1B id (fun u b data t => u.mdl.curtain = false →
    (∀ r, u.changeOf b data = some (.error r) → Completes t b r.status u.plainCue r.info (fun v => v = u)) ∧
    (∀ n a len, u.changeOf b data = some (.ok (.snapshot n a len)) →
      (u.changeNow = false → t.adminWait = some { sqe := b, change := .snapshot n a len, ident := none, ok := true }) ∧
      (u.changeNow = true → t.snapExport = some (b, n, a, len, u.cue.committed) ∧ (.snapshot, u.cue.committed) ∈ t.strike.pins))) ∧
  (∀ (s : State) (b : List Byte) (n a len snap : Nat) (x : Table), s.Canon → s.adminBacklog = [] → s.hostReachable = true →
    s.snapExport = some (b, n, a, len, snap) → s.table n = some x →
    let body := x.snapshotBody snap
    (len < body.length + 1600 → Answers .snapshotExportDone s (fun t => Completes t b 0x0109 snap [] (fun v =>
      v.snapExport = none ∧ ∀ p, p ∈ v.strike.pins → p.1 ≠ .snapshot))) ∧
    (body.length + 1600 ≤ len → ∀ sig, (({ s.unpin .snapshot with snapExport := none } : State).idSign
        (ascii "STXTBLI1" ++ shake256 64 body) lsuAll).1 = some sig →
      Answers .snapshotExportDone s (fun t => Completes t b 0 snap (Word.leBytes 8 (body.length + 1600)) (fun v =>
        v.snapExport = none ∧ v.hostBytesAt a body.length = body)))) ∧
  (∀ (s : State) (j : JournalQ) (b : ExportBlock) (r : List ExportBlock), s.Canon → s.journal = some j → s.exports = b :: r →
    let len := min b.bytes.length (j.bufLen / 4 / 64 * 64)
    let off := j.place len
    s.hostOk = true → ringDist j.prod j.cons < 2 ^ j.log → off + len - j.bufFree ≤ j.bufLen →
    Answers .journalExportPart s (fun t => t.mem = s.mem ∧
      (∃ j', t.journal = some j' ∧ j'.prod = (j.prod + 1) % 2 ^ 32 ∧ j'.bufHead = off + len ∧ j'.ents.length = j.ents.length + 1) ∧
      (b.bytes.length ≤ len → t.exports = r) ∧
      (len < b.bytes.length → t.exports = { b with bytes := b.bytes.drop len, part := b.part + 1 } :: r))) ∧
  (∀ runs, AdminRunsFrom (fun s => { s with rehearse := { s.rehearse with runs := s.rehearse.runs ++ [runs] } })
    (fun e => Instr.rehearse e runs) 0x22 (withOption 4 0) (fun u b data t => u.mdl.curtain = false → u.isFollower = false →
      let last := field b 40 8
      let items := rehStream (u.rehKeys data) none (data.length + 1) data
      let begun := ({ u with rehearse := { u.rehearse with runs := u.rehearse.runs.drop 1, done := true, paused := none, items := [] } } : State).setReg rehPage 0x054 0
      let ends := u.rehearse.runs.headD []
      let w := begun.rehTake last items ends
      (u.rehRefused = true → Completes t b 0x0207 u.cue.committed [] (fun v => v.tables = u.tables)) ∧
      (u.rehRefused = false →
        Completes t b 0 (w.2.wideAt rehPage 0x040) (Word.leBytes 4 w.1.result ++ List.replicate 4 0 ++ Word.leBytes 8 w.1.diff) (fun v =>
          v.reg rehPage 0x048 = BitVec.ofNat 32 w.1.result ∧ v.tables = w.2.tables ∧ v.cue = w.2.cue) ∧
        (w.1.result = 0 → last ≤ w.2.cue.number) ∧
        (∀ x rest v, items = x :: rest → x.fault = 0 → field x.bytes 14 1 = 3 → u.cue.number < last →
          begun.rehCue x (ends.headD []) = (0, v) → last ≤ v.cue.number → w.1.result = 0 ∧ w.2 = v)) ∧
      (u.rehRefused = false → data ≠ [] → rehBody data = none → u.cue.number < last →
        Completes t b 0 (u.wideAt rehPage 0x040) (Word.leBytes 4 8 ++ List.replicate 4 0 ++ Word.leBytes 8 (field data 8 6)) (fun v =>
          v.reg rehPage 0x048 = 8 ∧ v.tables = u.tables)))) ∧
  (∀ runs, AdminRunsFrom (fun s => { s with rehearse := { s.rehearse with runs := s.rehearse.runs ++ [runs] } })
    (fun e => Instr.rehearseResume e runs) 0x22 (withOption 4 1) (fun u b _ t => u.mdl.curtain = false → u.isFollower = false →
      let goesOn := ({ u with rehearse := { u.rehearse with runs := u.rehearse.runs.drop 1, paused := none, items := [] } } : State).setReg rehPage 0x054 0
      let w := goesOn.rehTake (field b 40 8) u.rehearse.items (u.rehearse.runs.headD [])
      (u.rehRefused = true ∨ u.rehearse.paused = none → Completes t b 0x0207 u.cue.committed [] (fun v => v.tables = u.tables)) ∧
      (∀ r c, u.rehRefused = false → u.rehearse.paused = some r → u.pbook.due.getLast? = some c → fit 64 c.a = slice r 16 64 →
        fit 64 c.b = slice r 80 64 →
        Completes t b 0 (w.2.wideAt rehPage 0x040) (Word.leBytes 4 w.1.result ++ List.replicate 4 0 ++ Word.leBytes 8 w.1.diff) (fun v =>
          v.reg rehPage 0x048 = BitVec.ofNat 32 w.1.result ∧ v.tables = w.2.tables ∧ v.cue = w.2.cue)) ∧
      (u.rehRefused = false → ∀ r, u.rehearse.paused = some r → u.pbook.due = [] →
        Completes t b 0 (u.wideAt rehPage 0x040) (Word.leBytes 4 7 ++ List.replicate 4 0 ++ Word.leBytes 8 (field r 8 6)) (fun v =>
          v.reg rehPage 0x048 = 7 ∧ v.rehearse.paused = some r ∧ v.tables = u.tables))))
/-! ## The cue timeline -/

/-- A start instant that is reached begins the next cue, from idle or from a hold that a START_CUES ends, and after a released cue; a held instant keeps a commanded
hold, with nothing sealed; where none is reached nothing changes: outside READY and SERVICE, before a START_CUES, before the commit or beyond the bound of the
stretch, for a held instant while a cue runs, and in FAULT. What an instant does is stated for a solo module on which nothing waits (R27, R57, R58, R60, R63). -/
def Obligations.CueInstants : Prop :=
  ∀ (i : Instant) (s : State), s.Canon →
    let begins := fun (t : State) => t.cue.unit = 2 ∧ t.cue.number = s.nextCue ∧ t.cue.committed = s.cue.committed ∧ t.cue.phase = .run ∧
      t.cue.sealedSet = [] ∧ t.cue.buffer = [] ∧ t.cue.starting = false ∧ t.cue.startedEver = true ∧ t.reg cuePage 0x060 = 0 ∧
      t.mdl = s.mdl ∧ t.host = s.host ∧ t.tables = s.tables
    (s.dispatching = true → s.Quiet →
      (s.cue.unit = 1 → s.cue.starting = true → Answers (.startInstant i) s (fun t => begins t ∧ t.beat = s.beat ∧ t.cue.base = s.beat)) ∧
      (s.cue.unit = 3 → s.cue.starting = true → Answers (.startInstant i) s (fun t => begins t ∧ t.fld cuePage 0x010 3 3 = 1 ∧
        t.beat = max s.beat (s.cue.base + s.cue.par.period))) ∧
      (s.cue.unit = 2 → s.cue.phase = .swept → s.cue.starting = false → i.stretch ≤ s.stretchMax → Answers (.startInstant i) s (fun t =>
        begins t ∧ t.beat = max s.beat (s.cue.base + s.cue.par.period + i.stretch))) ∧
      (s.cue.unit = 3 → s.cue.starting = false → s.cue.holdCmd = true → Answers (.heldInstant i) s (fun t => t.cue = { s.cue with
        base := t.beat, mute := false } ∧ t.beat = max s.beat (s.cue.base + s.cue.par.period) ∧ t.tables = s.tables ∧ t.host = s.host ∧
        t.mem = s.mem))) ∧
    (s.dispatching = false → exec (.startInstant i) s = .next s ∧ exec (.heldInstant i) s = .next s) ∧
    (s.isFollower = false → s.cue.unit = 1 → s.cue.starting = false → exec (.startInstant i) s = .next s ∧ exec (.heldInstant i) s = .next s) ∧
    (s.isFollower = false → s.cue.unit = 2 → s.cue.phase ≠ .swept ∨ s.stretchMax < i.stretch → exec (.startInstant i) s = .next s) ∧
    (s.isFollower = false → s.cue.unit = 2 → exec (.heldInstant i) s = .next s) ∧
    (s.isFollower = false → s.cue.unit = 5 → exec (.startInstant i) s = .next s ∧ exec (.heldInstant i) s = .next s)

/-- The commit point ends the running phase; the sweep waits for it and for the foreground, then commits the cue: its number becomes the last committed one, its digests and
flags are published, its admitted entries enter the duplicate window and its completions wait for release. At the bound of its stretch a cue that is not swept is OVERRUN, class 4;
a lead without its understudy's digests goes on alone (R57, R59–R61, R65, R66, R74, R75, R454, R459). -/
def Obligations.CommitAndBound : Prop :=
  ∀ s : State, s.Canon →
    (s.cue.unit = 2 → s.cue.phase = .run → Answers .commitPoint s (fun t => t.cue = { s.cue with phase := .due } ∧ t.mem = s.mem ∧
      t.regs = s.regs ∧ ∀ c, c < 12 → (t.cluster c).cic.edge.getLsbD 7 = true)) ∧
    (s.cue.unit ≠ 2 ∨ s.cue.phase ≠ .run → exec .commitPoint s = .next s) ∧
    (∀ beats, s.cue.phase = .due → s.fgPending = 0 → s.role = 0 → s.compares = false → s.company.catchS = none →
      Answers (.commitSweep beats) s (fun t =>
        let n := s.cue.number
        let ds := s.doneAll n s.cue.sealedSet
        t.cue.phase = .swept ∧ t.cue.committed = n ∧ t.cue.number = n ∧ t.cue.unit = s.cue.unit ∧ t.cue.sealedSet = s.cue.sealedSet ∧
        t.wideAt commitPage 0x040 = n % 2 ^ 64 ∧ t.fld commitPage 0x010 0 0 = 1 ∧ t.cue.release = releaseList ds ∧ t.dup = dupAdd s.dup ds ∧
        t.cue.digests.inp = shake256 64 (s.cue.sealedSet.flatMap inputBytes) ∧ t.cue.digests.out = shake256 64 (ds.flatMap outputBytes) ∧
        t.cue.digests.delta = shake256 64 (deltaBytes n t.cue.flags t.cue.delta) ∧
        t.cue.flags = (s.sweepRows s.cue.sealedSet).flags ∧ t.host = s.host)) ∧
    (∀ beats, s.cue.phase ≠ .due ∨ s.fgPending ≠ 0 → exec (.commitSweep beats) s = .next s) ∧
    (s.cue.unit = 2 → s.cue.phase = .run ∨ s.cue.phase = .due → Answers .stretchBound s (fun t => ∃ u : State,
      t = u.enterCurtain 4 cuePage ∧ u.cue = { s.cue with unit := 5 } ∧ u.mdl = s.mdl ∧ u.fld cuePage 0x010 1 1 = 1 ∧
      (s.reg cuePage 0x020 = 0 → u.reg cuePage 0x020 = 0x0102))) ∧
    (s.cue.unit ≠ 2 ∨ s.cue.phase = .none ∨ s.cue.phase = .swept ∧ s.role ≠ 1 → exec .stretchBound s = .next s) ∧
    (s.cue.unit = 2 → s.cue.phase = .swept → s.role = 1 → s.compares = true → s.cue.peerOk = false → Answers .stretchBound s (fun t =>
      t.cue = { s.cue with peerOk := true } ∧ t.redundant = false ∧ t.company.peerBehind = true ∧ t.fld companyPage 0x010 1 1 = 1))

/-- DONE without an item, or in operator mode with a status above 0x00FF, takes ITEM_STATE (cause 10); it waits for older stores and for the item's unit jobs; then the core is free
of the item and of any reservation, at EBASE + 0x800 in firmware mode after operator mode, else at the next instruction in the mode it was in; and the entry of a foreground item of
the running cue ends with what its nodes come to, or with the exhausted budget or the operator fault that its status names. Act seals that wait are signed ahead of the signatures
among its nodes (R23, R55, R122, R196, R213, R217, R226, R286). -/
def Obligations.DoneEndsTheItem : Prop :=
  ∀ (w : CoreRef) (f : FmtS) (plan : List NodePlan) (s : State), s.Canon → s.CoreReady w → f.rd = 0 → f.sys = 0 →
    let x := s.core w
    let status := (x.gr f.ra.toNat).toNat % 65536
    let bad := x.mode = .operator ∧ 0xFF < status
    (x.held = none → x.mode ≠ .handler → Raises (.done w f plan) w s 10) ∧
    (x.held ≠ none → bad → Raises (.done w f plan) w s 10) ∧
    (x.held ≠ none → ¬ bad → (x.sb ≠ [] ∨ s.jobsOf (coreKey w) = true) → exec (.done w f plan) s = .next s) ∧
    (∀ h, x.held = some h → ¬ bad → x.sb = [] → s.jobsOf (coreKey w) = false → Answers (.done w f plan) s (fun t =>
      let fin := fun (u : State) (y : Sealed) =>
        u.itemEnd h.item.sealPos y.entry { status := status, info := s.excInfo (coreKey w) x h status, plan := plan }
      t.core w = { x with held := none, resv := none, mode := if x.mode = .operator then .firmware else x.mode,
                          pc := if x.mode = .operator then BitVec.ofNat 64 (s.ebase w.c.val + 0x800) else x.pc + 4 } ∧
      t.host = s.host ∧ t.tables = s.tables ∧
      (∀ y, h.task = none → h.fg = true → s.cue.unit = 2 → s.cue.sealedSet[h.item.sealPos]? = some y →
        ((fin s y).out.sigs = [] → t.mem = s.mem ∧ t.cue = { s.cue with
          sealedSet := s.cue.sealedSet.set h.item.sealPos { y with fin := some (fin s y) } }) ∧
        ((fin s y).out.sigs ≠ [] → ∃ u : State, u.tables = s.tables ∧ u.pipes = s.pipes ∧ u.keys = s.keys ∧ u.cue = s.cue ∧ u.mem = t.mem ∧
          t.cue = { s.cue with sealedSet := s.cue.sealedSet.set h.item.sealPos { y with fin := some (fin u y) } })) ∧
      ((h.task ≠ none ∨ h.fg = false ∨ s.cue.unit ≠ 2 ∨ s.cue.sealedSet[h.item.sealPos]? = none) → t.cue = s.cue ∧ t.mem = s.mem) ∧
      (h.task = none → h.fg = true → t.fld (dispPage w.c.val) 0x060 9 0 = s.fld (dispPage w.c.val) 0x060 9 0 - 1)))

/-! ## Analytic jobs, the strike sweep and the prompt book -/

/-- The first waiting job starts when the pool, a running slot and its tables allow it, and fails where its workspace can never fit or a check of its scratch tables fails; a
running job ends with the status of the node that ended it, or, once its nodes have ended, OK or RESULT_TOO_LARGE, OK always without an EMIT; a job with SCRATCH_TABLE whose
rows fit leaves them there, numbered from 0; a module that runs no job starts and ends none (R81, R186, R187, R191, R527). -/
def Claims.AnalyticJobs : Prop :=
  ∀ s : State, s.Canon →
    (∀ plan, (s.jobsRun = false ∨ ∀ j, j ∈ s.jobs → j.state ≠ .waiting) → exec (.analyticJobStart plan) s = .next s) ∧
    (∀ plan j0, s.jobsRun = true → s.jobs.find? (fun x => x.state == .waiting) = some j0 →
      let j := { j0 with plan := plan, cols := planCols j0.pipe plan }
      let pool := s.cue.par.pool * 2 ^ 30
      let clash := ∃ x n, x ∈ s.jobs ∧ x.state = .running ∧ n ∈ x.writes ∧ n ∈ j.writes
      let fails := fun (st : Nat) => Answers (.analyticJobStart plan) s (fun t => ∃ j', t.job j.id = some j' ∧ j'.state = .ended ∧
        j'.status = st ∧ j'.failNode = 0xFFFFFFFF ∧ j'.rows = 0 ∧ j'.blocks = 0 ∧ j'.endCue = s.cueNow ∧ t.mem = s.mem ∧ t.host = s.host ∧
        t.tables = s.tables ∧ t.cue = s.cue)
      (pool < j.pipe.workspace → fails 0x0202) ∧
      (j.pipe.workspace ≤ pool → (64 ≤ (s.jobs.filter Job.granted).length ∨ pool < s.poolUsed + j.pipe.workspace) →
        exec (.analyticJobStart plan) s = .next s) ∧
      (s.poolUsed + j.pipe.workspace ≤ pool → (s.jobs.filter Job.granted).length < 64 →
        (s.scratchBad j j.cols = true → fails 0x020B) ∧
        (s.scratchBad j j.cols = false → clash → fails 0x0204) ∧
        (s.scratchBad j j.cols = false → ¬ clash → exec (.analyticJobStart plan) s =
          .next (s.setJob { j with state := .running, granted := true })))) ∧
    (∀ id fault, (s.jobsRun = false ∨ ∀ j, s.job id = some j → j.state ≠ .running) → exec (.analyticJobEnd id fault) s = .next s) ∧
    (∀ id fault j, s.jobsRun = true → s.job id = some j → j.state = .running → s.hostReachable = true →
      let run := s.jobNodes j fault
      let rows := emitRows j.pipe run.outs
      Answers (.analyticJobEnd id fault) s (fun t => ∃ j', t.job id = some j' ∧ j'.state = .ended ∧ j'.endCue = s.cueNow ∧ j'.pipe = j.pipe ∧
        (∀ st k, run.stop = some (st, k) → j'.status = st ∧ j'.failNode = k) ∧
        (run.stop = none → j'.status = 0 ∧ j'.failNode = 0xFFFFFFFF ∨ j'.status = 0x0109) ∧
        (run.stop = none → j.pipe.emits = false → j'.status = 0) ∧
        (∀ n x, run.stop = none → j.plan.outs = [] → j.scratch = some n → s.table n = some x → x.desc.scratch = true →
          rows.length ≤ x.desc.maxSlots → j'.status = 0 ∧ j'.rows = rows.length ∧ j'.blocks = 0 ∧
            ∃ y, t.table n = some y ∧ y.nextRow = rows.length ∧ y.slots.length = rows.length) ∧
        t.mem = s.mem ∧ t.cue = s.cue ∧ t.strike = s.strike))

/-- FILTER keeps rows of its input in their order; SORT gives the rows of its input, each once, in ascending normalized key; JOIN gives the same rows whichever method it
chooses; AGGREGATE gives one row for each group key; a template never gives more than its OUT_MAX bytes (R119, R146–R149, R162). -/
def Claims.OperatorStreams : Prop :=
  (∀ v e x, (filterRows v e x).rows.Sublist x.rows ∧ (filterRows v e x).cols = x.cols) ∧
  (∀ keys x, (sortRows keys x).rows.Perm x.rows ∧
    (sortRows keys x).rows.Pairwise (fun a b => bytesLe (normKey x.cols keys a) (normKey x.cols keys b) = true)) ∧
  (∀ half left kind lk rk x y, joinStreams half left kind lk rk x y = joinRows kind lk rk x y) ∧
  (∀ cols group rows, (groupKeys cols group rows).Nodup ∧
    ∀ k, k ∈ groupKeys cols group rows ↔ ∃ r, r ∈ rows ∧ normKey cols (group.map (fun i => (i, false))) r = k) ∧
  (∀ t vec vals, (templateRun t vec vals).1.length ≤ field t 16 4)

/-- A strike pass that is due starts from S_old; when it ends every version of an ordinary table that was dead for it is gone and no other is, and the pass is counted; the
soft reset restores the thresholds and the interval and clears the counters (R102, R105, R108). -/
def Claims.StrikePasses : Prop :=
  (∀ (x : Table) (sOld cue slot : Nat) (held : Bool), Rising x.slots →
    (x.strike sOld cue held).1.version slot = (match x.version slot with
      | some v => (match v.fin with
        | some e => if e ≤ sOld then none else some v
        | none => some v)
      | none => none)) ∧
  (∀ s : State, s.Canon →
    (s.passDue = true → Answers .strikePassStart s (fun t => t.strike = { s.strike with running := true, lastS := s.sOld, since := 0 } ∧
      t.fld strikePage 0x00C 8 8 = 1 ∧ t.tables = s.tables ∧ t.mem = s.mem)) ∧
    (s.passDue = false → exec .strikePassStart s = .next s) ∧
    (∀ beats, s.strike.running = false → exec (.strikePassDone beats) s = .next s) ∧
    (∀ beats, s.strike.running = true → Answers (.strikePassDone beats) s (fun t => t.strike = { s.strike with running := false } ∧
      t.reg strikePage 0x064 = s.reg strikePage 0x064 + 1 ∧ t.reg strikePage 0x068 = beats ∧ t.fld strikePage 0x010 3 3 = 1 ∧
      (∀ n x, s.table n = some x → t.table n = some (if x.desc.scratch = true then x
        else (x.strike s.strike.lastS s.cue.number (s.scanning n)).1)) ∧ t.mem = s.mem)) ∧
    Answers .strikeSoftReset s (fun t => t = { s with regs := t.regs } ∧ t.reg strikePage 0x040 = 0x5A5046 ∧ t.reg strikePage 0x044 = 0x10 ∧
      t.reg strikePage 0x05C = 0 ∧ t.reg strikePage 0x060 = 0 ∧ t.reg strikePage 0x064 = 0))

/-- The oldest unsigned act is sealed by a usable unit: the seal stands in its slot of the seal area, SEALED is raised, and the unit counts it; a signature that fails its
self-check is not used, and the unit faults. The verification after a reset ends with the chain continuing, or with CHAIN_BAD and the record at fault (R328, R354, R359). -/
def Obligations.PromptBook : Prop :=
  ∀ s : State, s.Canon →
    (∀ u : Fin 8, (s.lsuUsable u.val = false ∨ s.pbook.alloc = false ∨ s.pbook.nextSeal = none) → exec (.actSealSigned u) s = .next s) ∧
    (∀ (u : Fin 8) (a : Act), s.lsuUsable u.val = true → s.pbook.alloc = true → s.pbook.nextSeal = some a →
      let sig := Config.freeSig s.fresh
      let head := s.sealHead a
      let at_ := s.pbook.sealAddr a.num
      (falconVerify Config.identityPub head sig = true → Answers (.actSealSigned u) s (fun t =>
        t.bytesAt at_ 2048 = fit 2048 (fit 128 (head ++ Word.leBytes 2 sig.length) ++ fit 1462 sig) ∧
        (∀ b, b < at_ ∨ at_ + 2048 ≤ b → t.byteAt b = s.byteAt b) ∧ t.pbook.sealedAct = a.num ∧ t.pbook.next = s.pbook.next ∧
        t.reg (lsuPage u.val) 0x058 = s.reg (lsuPage u.val) 0x058 + 1 ∧ t.fld pbPage 0x010 0 0 = 1 ∧
        t.exports.length = s.exports.length + (if s.journal.isSome = true then 1 else 0))) ∧
      (falconVerify Config.identityPub head sig = false → Answers (.actSealSigned u) s (fun t => t.pbook = s.pbook ∧ t.mem = s.mem ∧
        t.lsu.faulted = u.val :: s.lsu.faulted ∧ t.fld (lsuPage u.val) 0x010 3 3 = 1 ∧ t.exports = s.exports))) ∧
    (s.pbook.verify ≠ 1 → exec .pbookVerifyDone s = .next s) ∧
    (s.pbook.verify = 1 → ∀ n, s.chainFault = some n → Answers .pbookVerifyDone s (fun t => t.pbook = { s.pbook with verify := 3 } ∧
      t.fld pbPage 0x010 3 3 = 1 ∧ t.mem = s.mem ∧ (s.reg pbPage 0x020 = 0 → t.reg pbPage 0x020 = 0x0102 ∧
        t.reg pbPage 0x024 = BitVec.ofNat 32 (n % 2 ^ 32) ∧ t.reg pbPage 0x028 = BitVec.ofNat 32 (n / 2 ^ 32)))) ∧
    (s.pbook.verify = 1 → s.chainFault = none → Answers .pbookVerifyDone s (fun t => t.pbook.verify = 2 ∧ t.pbook.next = s.pbook.next ∧
      t.wideAt pbPage 0x074 = s.cue.committed % 2 ^ 64 ∧ t.fld pbPage 0x010 3 3 = 1 ∧ t.mem = s.mem))

/-! ## The management path -/

/-- Firmware update: each message is answered with success in its stage and moves on, and with INVALID_STATE in any other; the image goes to the slot that is not active; a flash
write that ends raises its event, or FLASH_ERROR with its offset (R342, R343). The codes are those of the message layouts that log entry 28 presumes. -/
def Obligations.FirmwareUpdate : Prop :=
  ∀ s : State, s.Canon →
    let step := fun (i : Instr) (code : Byte) (at_ : UpdState) (P : State → Prop) =>
      (s.mdl.st = .off → exec i s = .next s) ∧
      (s.mdl.st ≠ .off → s.mgmt.upd = at_ → Answers i s (fun t => P t ∧ t.mgmt.replies = s.mgmt.replies ++ [[code, 0x00]] ∧
        t.reg mgmtPage 0x04C = s.reg mgmtPage 0x04C + 1 ∧ t.mdl = s.mdl ∧ t.mem = s.mem)) ∧
      (s.mdl.st ≠ .off → s.mgmt.upd ≠ at_ → Answers i s (fun t => t.mgmt = { s.mgmt with replies := s.mgmt.replies ++ [[code, 0x84]] } ∧
        t.reg mgmtPage 0x04C = s.reg mgmtPage 0x04C + 1 ∧ t.reg mgmtPage 0x050 = s.reg mgmtPage 0x050 + 1 ∧ t.flash = s.flash ∧ t.mem = s.mem))
    step .requestUpdate 0x10 .idle (fun t => t.mgmt.upd = .learn ∧ t.flash = s.flash) ∧
    step .passComponentTable 0x13 .learn (fun t => t.mgmt.upd = .ready ∧ t.flash = s.flash) ∧
    (∀ size, step (.updateComponent size) 0x14 .ready (fun t => t.mgmt.upd = .download ∧ t.mgmt.compLen = size ∧ t.mgmt.received = 0)) ∧
    (∀ off data, step (.requestFirmwareData off data) 0x15 .download (fun t => t.mgmt.upd = .download ∧
      t.mgmt.received = max s.mgmt.received (off + data.length) ∧ t.flash.active = s.flash.active ∧
      t.flash.slot s.flash.active = s.flash.slot s.flash.active ∧
      t.flash.slot s.flash.inactive = (s.flash.slot s.flash.inactive).write off data)) ∧
    step .transferComplete 0x16 .download (fun t => t.mgmt.upd = .verify ∧ t.flash = s.flash) ∧
    step .verifyComplete 0x17 .verify (fun t => (∀ x, s.fwCheck = .ok x → t.mgmt.upd = .apply) ∧
      (∀ e, s.fwCheck = .error e → t.mgmt.upd = .idle) ∧ t.flash = s.flash) ∧
    step .applyComplete 0x18 .apply (fun t => t.mgmt.upd = .ready ∧ t.flash = s.flash) ∧
    step .activateFirmware 0x1A .ready (fun t => t.mgmt.upd = .idle ∧ (∀ x, s.fwCheck = .ok x → t.flash.active = s.flash.inactive) ∧
      (∀ e, s.fwCheck = .error e → t.flash = s.flash)) ∧
    (∀ r, s.flash.busy = false → exec (.flashWriteDone r) s = .next s) ∧
    (s.flash.busy = true → Answers (.flashWriteDone none) s (fun t => t.flash = { s.flash with busy := false } ∧
      t.fld flashPage 0x010 0 0 = 1 ∧ t.mem = s.mem)) ∧
    (∀ off : Word32, s.flash.busy = true → s.reg flashPage 0x020 = 0 → Answers (.flashWriteDone (some off)) s (fun t =>
      t.flash = { s.flash with busy := false } ∧ t.reg flashPage 0x020 = 0x0100 ∧ t.reg flashPage 0x024 = off ∧ t.mem = s.mem))

/-- SPDM: GET_VERSION begins a connection with versions 1.2 and 1.3; the requests that follow it are answered in their order and otherwise with UnexpectedRequest, and an
unsupported one with its code; every exchange that is answered joins the transcript. In RECOVERY each is answered with ERROR_NOT_READY, and a module that is off answers none
(R344–R346, R479). The layouts are those that log entry 28 presumes. -/
def Obligations.SpdmResponder : Prop :=
  ∀ (req : List Byte) (s : State), s.Canon →
    let v := BitVec.ofNat 8 (s.mgmt.version.getD 0)
    let err := fun (code data : Byte) => [BitVec.ofNat 8 (s.mgmt.version.getD 0x10), 0x7F, code, data]
    let heard := fun (t : State) => t.reg mgmtPage 0x04C = s.reg mgmtPage 0x04C + 1 ∧ t.mdl = s.mdl ∧ t.mem = s.mem
    let tells := fun (t : State) (resp : List Byte) => heard t ∧ t.mgmt.replies = s.mgmt.replies ++ [resp]
    let keeps := fun (t : State) (resp : List Byte) => tells t resp ∧ t.mgmt.transcript = s.mgmt.transcript ++ req ++ resp
    (s.mdl.st ≠ .off → s.mdl.st ≠ .recovery →
      Answers (.getVersion req) s (fun t => let resp := [0x10#8, 0x04#8, 0, 0, 0, 0x02#8, 0, 0x12#8, 0, 0x13#8]
        tells t resp ∧ t.mgmt.transcript = req ++ resp ∧ t.mgmt.version = some 0x10 ∧ t.mgmt.algos = false) ∧
      (s.mgmt.version = none → Answers (.getCapabilities req) s (fun t => tells t (err 0x04 0) ∧ t.mgmt.version = none) ∧
        ∀ o, Answers (.negotiateAlgorithms req o) s (fun t => tells t (err 0x04 0) ∧ t.mgmt.algos = s.mgmt.algos)) ∧
      (s.mgmt.version ≠ none → Answers (.getCapabilities req) s (fun t => ∃ resp, keeps t resp ∧ t.mgmt.version = some (req.headD 0).toNat ∧
        resp.take 5 = [req.headD 0, 0x61, 0, 0, 0] ∧ resp.length = 20 ∧ field resp 8 4 = 0x30014)) ∧
      (s.mgmt.version ≠ none → Answers (.negotiateAlgorithms req true) s (fun t => ∃ resp, keeps t resp ∧ t.mgmt.algos = true ∧
        resp.take 4 = [v, 0x63, 0, 0] ∧ resp.length = 40)) ∧
      (s.mgmt.version ≠ none → Answers (.negotiateAlgorithms req false) s (fun t => ∃ c, tells t (err c 0) ∧ t.mgmt.algos = s.mgmt.algos)) ∧
      (s.mgmt.algos = false → Answers (.getMeasurements req) s (fun t => tells t (err 0x04 0)) ∧
        Answers (.challenge req) s (fun t => tells t (err 0x04 0))) ∧
      (s.mgmt.algos = true → field req 3 1 = 0 → field req 2 1 % 2 = 0 → Answers (.getMeasurements req) s (fun t => ∃ resp, keeps t resp ∧
        resp.take 8 = [v, 0x60, BitVec.ofNat 8 s.measures.length, 0, 0, 0, 0, 0] ∧ resp.length = 42)) ∧
      (s.mgmt.algos = true → Answers (.challenge req) s (fun t => ∃ resp, tells t resp ∧
        (resp.take 2 = [v, 0x03] ∧ t.mgmt.transcript = s.mgmt.transcript ++ req ++ resp ∨ resp.drop 1 = [0x7F, resp.getD 2 0, 0]))) ∧
      Answers (.spdmUnsupportedRequest req) s (fun t => tells t (err 0x07 (req.getD 1 0)) ∧
        t.reg mgmtPage 0x050 = s.reg mgmtPage 0x050 + 1)) ∧
    (∀ i, i ∈ [Instr.getVersion req, .getCapabilities req, .getMeasurements req, .challenge req, .spdmUnsupportedRequest req] →
      (s.mdl.st = .off → exec i s = .next s) ∧ (s.mdl.st = .recovery → Answers i s (fun t => tells t [0x04]))) ∧
    (∀ msg, (s.mdl.st = .off → ∀ c, exec (.mctpControlMessage c msg) s = .next s) ∧
      (s.mdl.st ≠ .off → Answers (.mctpControlMessage true msg) s (fun t => ∃ resp, tells t resp ∧
        t.reg mgmtPage 0x050 = s.reg mgmtPage 0x050)) ∧
      (s.mdl.st = .recovery → Answers (.mctpControlMessage false msg) s (fun t => tells t [0x04])) ∧
      (s.mdl.st ≠ .off → s.mdl.st ≠ .recovery → Answers (.mctpControlMessage false msg) s (fun t => (∃ resp, tells t resp) ∧
        t.reg mgmtPage 0x050 = s.reg mgmtPage 0x050 + 1)))

/-- Key components of one EPOCH and count are kept until all of them are there; then KT is their XOR, none of them stays, and KT_SET is raised; one of another form is counted. A
state request waits in order while cues run and in standby, and is applied at once otherwise; the 65th is answered with ERROR_NOT_READY. A sensor that differs from its
unit, or whose page has a request that waits, is recorded (R333, R495, R496). -/
def Obligations.KeysAndStateRequests : Prop :=
  ∀ s : State, s.Canon → s.mdl.st ≠ .off → s.mdl.st ≠ .recovery →
    (∀ (idx count : Byte) (epoch : Word32) (val : List Byte),
      let fits := (count = 2 ∨ count = 3) ∧ val.length = 32
      let c : KtComp := { idx := idx.toNat, count := count.toNat, epoch := epoch.toNat, val := val }
      let same := s.keys.comps.filter (fun x => x.epoch == epoch.toNat && x.count == count.toNat && decide (x.idx ≠ idx.toNat)) ++ [c]
      let rest := s.keys.comps.filter (fun x => decide (x.epoch ≠ epoch.toNat))
      (¬ fits → Answers (.keyComponent idx count epoch val) s (fun t => t.keys = s.keys ∧
        t.reg mgmtPage 0x050 = s.reg mgmtPage 0x050 + 1)) ∧
      (fits → same.length < count.toNat → Answers (.keyComponent idx count epoch val) s (fun t =>
        t.keys = { s.keys with comps := rest ++ same } ∧ t.reg mgmtPage 0x04C = s.reg mgmtPage 0x04C + 1)) ∧
      (fits → count.toNat ≤ same.length → Answers (.keyComponent idx count epoch val) s (fun t => t.keys = { s.keys with
        kt := some (epoch.toNat, same.foldl (fun a x => xorBytes a x.val) (List.replicate 32 0)), comps := rest } ∧
        t.fld keysPage 0x010 2 2 = 1))) ∧
    (∀ (page : Fin 8192) (run : Bool),
      let r : MgmtReq := { page := page.val, state := if run = true then 2 else 0 }
      (64 ≤ s.mgmt.reqs.length → Answers (.setStateEffecter page run) s (fun t =>
        t.mgmt = { s.mgmt with replies := s.mgmt.replies ++ [[0x04]] } ∧
        t.reg mgmtPage 0x048 = BitVec.ofNat 32 (page.val * 65536 + 2 * 16 + r.state))) ∧
      (s.mgmt.reqs.length < 64 → s.mgmtWaits = true → Answers (.setStateEffecter page run) s (fun t =>
        t.mgmt = { s.mgmt with replies := s.mgmt.replies ++ [[0x00]], reqs := s.mgmt.reqs ++ [r] } ∧ t.mem = s.mem)) ∧
      (s.mgmt.reqs.length < 64 → s.mgmtWaits = false → Answers (.setStateEffecter page run) s (fun t => t =
        ({ s.addReg mgmtPage 0x04C 1 with mgmt := { s.mgmt with
          replies := s.mgmt.replies ++ [[0x00]], reqs := s.mgmt.reqs ++ [r] } } : State).mgmtDue))) ∧
    (∀ (page : Fin 8192) (seen : BitVec 4),
      (blkAt page.val = none ∨ s.unitState page.val = seen.toNat ∧ (∀ r, r ∈ s.mgmt.reqs → r.page ≠ page.val) →
        exec (.stateSkew page seen) s = .next s) ∧
      (blkAt page.val ≠ none → (s.unitState page.val ≠ seen.toNat ∨ ∃ r, r ∈ s.mgmt.reqs ∧ r.page = page.val) →
        Answers (.stateSkew page seen) s (fun t => t.reg modctlPage 0x060 = s.reg modctlPage 0x060 + 1 ∧ t.fld modctlPage 0x010 4 4 = 1 ∧
          t.reg modctlPage 0x05C = BitVec.ofNat 32 (page.val * 65536 + seen.toNat * 16 + s.unitState page.val) ∧ t.mem = s.mem)))

/-! ## Register pages -/

/-- The soft resets that only clear counters clear exactly those that their page's rule names; that of the CUE page also restores its parameters and keeps the stretch of the last cue, and is refused
while cues run (R72, R500). -/
def Claims.CounterSoftResets : Prop :=
  ClearsCounters .modctlSoftReset modctlPage [0x060, 0x068] ∧ ClearsCounters .pwrSoftReset pwrPage [0x048, 0x054, 0x058] ∧
  ClearsCounters .hepSoftReset hepPage [0x050, 0x064] ∧ (∀ c : Fin 12, ClearsCounters (.dispSoftReset c) (dispPage c.val) [0x074]) ∧
  ClearsCounters .commitSoftReset commitPage [0x05C, 0x060, 0x40C] ∧ ClearsCounters .keysSoftReset keysPage [0x07C, 0x080] ∧
  ClearsCounters .pbookSoftReset pbPage [0x070] ∧ ClearsCounters .qengSoftReset qengPage [0x074, 0x078] ∧
  ClearsCounters .mgmtSoftReset mgmtPage [0x04C, 0x050, 0x054] ∧ ClearsCounters .companySoftReset companyPage [0x058, 0x05C, 0x060] ∧
  (∀ s : State, s.Canon →
    (s.cue.unit ≠ 2 → Answers .cueSoftReset s (fun t => t = { s with regs := t.regs } ∧ t.reg cuePage 0x068 = s.reg cuePage 0x068 &&& 0xFF ∧
      t.reg cuePage 0x06C = 0 ∧
      ∀ o, o ∈ [0x040, 0x044, 0x048, 0x04C, 0x050, 0x054, 0x400] → t.reg cuePage o = resetWord (regKey cuePage o))) ∧
    (s.cue.unit = 2 → s.reg cuePage 0x020 = 0 → Answers .cueSoftReset s (fun t => t = { s with regs := t.regs } ∧
      t.reg cuePage 0x020 = 0x0101 ∧ ∀ o, o ∈ [0x040, 0x044, 0x048, 0x04C, 0x050, 0x054, 0x068, 0x06C, 0x400] →
        t.reg cuePage o = s.reg cuePage o)))

/-- The registers that every page has: EXPERT_KEY opens and closes the expert offsets and refuses any other value with BAD_KEY; ERR_CLEAR clears the latched error; EVT_FORCE sets and
EVT_RAW clears events; EVT_EN takes its value; a store to an expert offset of a closed page is refused with EXPERT_LOCKED; a store that reaches no populated page
changes nothing (R500–R505). -/
def Claims.CommonRegisters : Prop :=
  ∀ (wr : Writer) (page : Fin 8192) (s : State), s.Canon →
    let pg := page.val
    let same := fun (t : State) (offs : List Nat) => t = { s with regs := t.regs } ∧
      ∀ k, (∀ o, o ∈ offs → k ≠ regKey pg o ∧ k ≠ regKey (errPage pg) o) → Sparse.get resetWord t.regs k = Sparse.get resetWord s.regs k
    let errs := [0x020, 0x024, 0x028, 0x02C]
    (s.pageReached (Writer.agent wr) pg = false ∨ ¬ PopulatedPage pg → exec (.errClear wr page) s = .next s ∧
      ∀ val, exec (.expertKeyWrite wr page val) s = .next s ∧ exec (.evtForceWrite wr page val) s = .next s ∧
        exec (.evtRawClear wr page val) s = .next s ∧ ∀ word, exec (.registerWrite wr page word val) s = .next s) ∧
    (s.pageReached (Writer.agent wr) pg = true → PopulatedPage pg →
      Answers (.expertKeyWrite wr page 0xE4E7) s (fun t => t.fld pg 0x034 0 0 = 1 ∧ same t [0x034]) ∧
      Answers (.expertKeyWrite wr page 0) s (fun t => t.fld pg 0x034 0 0 = 0 ∧ same t [0x034]) ∧
      (∀ val : BitVec 32, val ≠ 0 → val ≠ 0xE4E7 → Answers (.expertKeyWrite wr page val) s (fun t => same t errs ∧
        (s.reg (errPage pg) 0x020 = 0 → t.reg (errPage pg) 0x020 = 0x0002 ∧ t.reg (errPage pg) 0x024 = val))) ∧
      Answers (.errClear wr page) s (fun t => same t errs ∧ ∀ o, o ∈ errs → t.reg pg o = 0) ∧
      (∀ (val : BitVec 32) (b : Blk) (i : Nat), blkAt pg = some (b, i) →
        Answers (.evtForceWrite wr page val) s (fun t => t.reg pg 0x010 = s.reg pg 0x010 ||| (val &&& BitVec.ofNat 32 (evtMask b)) ∧
          t.mem = s.mem ∧ t.cue = s.cue ∧ t.qpairs = s.qpairs)) ∧
      (∀ val : BitVec 32, Answers (.evtRawClear wr page val) s (fun t => t.reg pg 0x010 = s.reg pg 0x010 &&& ~~~val ∧ same t [0x010])) ∧
      (∀ val : BitVec 32, Answers (.registerWrite wr page 5 val) s (fun t => t.reg pg 0x014 = val ∧ t.mem = s.mem ∧ t.cue = s.cue)) ∧
      (∀ (word : Fin 1024) (val : BitVec 32), 256 ≤ word.val → s.fld pg 0x034 0 0 = 0 → Answers (.registerWrite wr page word val) s (fun t =>
        same t errs ∧ (s.reg (errPage pg) 0x020 = 0 → t.reg (errPage pg) 0x020 = 0x0001 ∧
          t.reg (errPage pg) 0x024 = BitVec.ofNat 32 (4 * word.val)))))

/-! ## The module as a whole -/

/-- A step takes the command at the front of the queue and runs it on the state with the rest of the queue; on an empty queue the module idles, which is the model's choice (log entry
1). The opcode table gives no row any bits, so no word spells a command. -/
def Obligations.StepTakesTheFrontCommand : Prop :=
  ∀ s : State,
    (∀ c rest, s.pending = c :: rest → step s = exec c { s with pending := rest }) ∧
    (s.pending = [] → step s = .next s) ∧
    (∀ nbits w, decodeTableWord nbits w = none ∧ s.withFetchWord nbits w = s)

/-- The state after reset: the module is OFF with every register at its Reset column, no command waits, no queue, table, pipeline, key or job exists, every port is DOWN, the
module is SOLO, the first cue number is 0, and the canonical form holds (R28, R436, R449, R473, R476).
Which instant the model calls reset, and what registers show whose reset the spec leaves undefined, are the model's choices (log entries 4 and 29). -/
def Obligations.ResetStateIsClean : Prop :=
  let s := State.reset
  s.Canon ∧ s.pending = [] ∧ s.mdl.st = .off ∧ s.mdl.curtain = false ∧ s.mdl.halt = false ∧ s.mem = [] ∧ s.host = [] ∧
    (∀ page off, s.reg page off = resetWord (regKey page off)) ∧ (∀ page off, s.wideAt page off = wideReset (regKey page off)) ∧
    (∀ w, s.core w = Core.reset) ∧ (∀ q, (s.qp q).sqOn = false ∧ (s.qp q).cqOn = false) ∧ (∀ t, s.table t = none) ∧ s.pipes = [] ∧
    s.jobs = [] ∧ s.keys.slots = [] ∧ s.keys.kt = none ∧ s.cue.number = 0 ∧ s.cue.committed = 0 ∧ s.cue.unit = 1 ∧ s.cue.phase = .none ∧
    (∀ p, p < 4 → s.lstate p = 0) ∧ s.role = 0 ∧ s.companyMode = 0 ∧ s.redundant = false ∧ s.hep.linkUp = false ∧ s.hep.frozen = false

/-- The canonical form is an invariant: from every state that has it, whatever command waits in front, the next state has it too. -/
def Obligations.StepKeepsTheCanonicalForm : Prop :=
  ∀ s t : State, s.Canon → step s = .next t → t.Canon

/-- No command stops the model, and none touches the queue of waiting commands or the build's constants: what a command does is its effect on everything else. -/
def Obligations.CommandsKeepQueueAndBuild : Prop :=
  ∀ (c : Instr) (s : State), ∃ t, exec c s = .next t ∧ t.pending = s.pending ∧ t.build = s.build

/-- Fuses only rise: no command lowers the fused SVN or clears the revocation bit of a firmware root (R339, R342). -/
def Obligations.FusesOnlyRise : Prop :=
  ∀ (c : Instr) (s t : State), exec c s = .next t →
    s.flash.svnFuse ≤ t.flash.svnFuse ∧ ∀ i, i < 4 → Word.bit i s.flash.revoked = true → Word.bit i t.flash.revoked = true

/-! ## Statements of several parts -/

/-- Integer arithmetic wraps modulo 2^64 and sets no flag, division has the results R204 gives for its corners and raises nothing, and CRC32C is that of R204; with the bit counts and the byte swap of R203. -/
def Obligations.IntegerArithmeticResults : Prop :=
  Claims.ScalarIntegerResults ∧ Claims.ScalarMultiplyDivideResults ∧ Claims.ScalarBitAndCrcResults

/-- Immediate forms, constants, branches and jumps (R203). -/
def Obligations.ImmediateAndBranchResults : Prop :=
  Claims.ScalarImmediateResults ∧ Claims.BranchAndJumpResults

/-- Scalar loads and stores (R203, R220). -/
def Obligations.ScalarMemoryResults : Prop :=
  Claims.ScalarLoadResults ∧ Claims.ScalarStoreResults

/-- Misaligned accesses, and vector accesses outside memory class (R205, R210, R218). -/
def Obligations.AccessExceptions : Prop :=
  Claims.MisalignedAccessRaisesAlign ∧ Claims.GatherOutsideMemoryRaisesClass

/-- What becomes of a buffered store: accepted by the fabric, or lost on its way to a wing window or the host (R220, R223, R233). -/
def Obligations.BufferedStoresLeave : Prop :=
  Claims.StoreAcceptedWritesMemory ∧ Claims.RemoteStoreLostIsRecorded

/-- System registers, TAKE and barriers, and the privilege they need (R196, R200, R212, R213, R217, R225). -/
def Obligations.SystemInstructionResults : Prop :=
  Claims.SystemRegisterResults ∧ Claims.TakeAndBarrierResults ∧ Claims.OperatorModeIsRefusedPrivilege

/-- TRAP and RET, encodings whose unused fields are not 0, and the OPS budget (R202, R214, R215). -/
def Obligations.TrapsAndBudgets : Prop :=
  Claims.TrapAndReturnResults ∧ Claims.UnusedFieldsRaiseIllegal ∧ Claims.OpsBudgetStopsTheItem

/-- The element-wise vector instructions and the compares (R207). -/
def Obligations.VectorElementAndCompareResults : Prop :=
  Claims.VectorElementResults ∧ Claims.VectorCompareResults

/-- Mask instructions, moves, compress and expand (R207). -/
def Obligations.MaskAndMoveResults : Prop :=
  Claims.MaskResults ∧ Claims.VectorMoveResults ∧ Claims.CompressAndExpandResults

/-- Vector loads and stores (R207, R210, R220). -/
def Obligations.VectorMemoryResults : Prop :=
  Claims.VectorLoadResults ∧ Claims.VectorStoreResults

/-- Items from POST to delivery at a TAKE, and the order in which they go (R275, R276, R282, R283). -/
def Obligations.ItemsArePostedAndDelivered : Prop :=
  Claims.PostedRecordsJoinTheItems ∧ Claims.DeliveryRetiresTake ∧ Claims.DispatchOrderIsThatOfTheSpec

/-- Task flags, the control of tasks, and delays (R277, R280, R281). -/
def Obligations.TasksAndSignals : Prop :=
  Claims.SignalsSetTaskFlags ∧ Claims.TaskControlMovesTasks ∧ Claims.DelaysSetFlagsAtExpiry

/-- Interrupt sources, their acceptance, and the filtered sideband inputs (R288, R289, R291, R294). -/
def Obligations.InterruptsAndSideband : Prop :=
  Claims.InterruptSourcesBecomePending ∧ Claims.InterruptAcceptanceEntersTheHandler ∧ Claims.SidebandInputsPassTheirFilter

/-- The mode of a cluster, the enable of its L2, and an uncorrectable error in it (R232, R244, R246). -/
def Obligations.ClusterAndL2Faults : Prop :=
  Claims.ClusterModeWrites ∧ Claims.L2DisableAndEnable ∧ Claims.UncorrectableL2Error

/-- Green room, page maintenance, locks, preload and the replacement register of a cluster L2 (R240, R241, R243, R247, R248). -/
def Obligations.L2Pages : Prop :=
  Claims.GreenRoomConversion ∧ Claims.PageMaintenanceOfALine ∧ Claims.LockAndPreload ∧ Claims.ReplacementRegister

/-- A controller's enable and self-refresh, its errors and its upkeep (R255–R258, R265, R267). -/
def Obligations.MemoryControllers : Prop :=
  Claims.ControllerEnableAndSelfRefresh ∧ Claims.ControllerErrors ∧ Claims.ControllerUpkeep

/-- Jobs of the units with descriptors: submitted, started in order, reporting their work, and ended (R132–R134, R138). -/
def Obligations.UnitJobs : Prop :=
  Claims.SubmitCopiesTheDescriptor ∧ Claims.UnitJobsStartInOrder ∧ Claims.LaneJobsReportTheirWork ∧ Claims.UnitJobsEnd

/-- A search finds the lowest match, and the commands of the search arrays (R300–R305). -/
def Obligations.AssociativeSearch : Prop :=
  Claims.SearchFindsTheLowestMatch ∧ Claims.SearchCommands

/-- The digest units and the Larkspur units (R319–R325, R327–R330). -/
def Obligations.DigestAndSignatureUnits : Prop :=
  Claims.DigestCommands ∧ Claims.DigestResultsAndResets ∧ Claims.LarkspurCommands

/-- DMA channels and their descriptors, and the compression engines (R366–R379, R380–R391). -/
def Obligations.DmaAndCompression : Prop :=
  Claims.DmaChannelControl ∧ Claims.DmaDescriptorsRun ∧ Claims.CompressionCommands

/-- The link-level frames of a wing port, and HELLO, AUTH and BYE (R436, R437, R440, R441, R445–R447). -/
def Obligations.WingFrames : Prop :=
  Claims.LinkFrames ∧ Claims.HelloAuthBye

/-- The frames of lockstep, and what the digests of a cue decide (R451, R453–R457, R462, R468). -/
def Obligations.Lockstep : Prop :=
  Claims.LockstepFrames ∧ Claims.DigestsDecide

/-- Changes forwarded to an understudy, and catch-up (R452, R462, R463). -/
def Obligations.ChangesAndCatchup : Prop :=
  Claims.ChangesForwarded ∧ Claims.CatchupFrames

/-- The remote windows and the searches of a cascade (R308, R444, R466, R469, R470). -/
def Obligations.CascadeAndWindows : Prop :=
  Claims.RemoteWindows ∧ Claims.CascadeSearches

/-- Containment of the host endpoint and its release, and the function as the host configures it (R395–R403, R425–R428). -/
def Obligations.HostEndpoint : Prop :=
  Claims.HostContainment ∧ Claims.HostFunction

/-- Entries as the driver places them, and the doorbells (R404–R406, R409). -/
def Obligations.HostQueues : Prop :=
  Claims.EntriesArePlaced ∧ Claims.Doorbells

/-- The admin pair, and the commands that make and remove queues (R407, R408, R416, R418, R433). -/
def Obligations.AdminPairAndQueues : Prop :=
  Claims.AdminPairEnables ∧ Claims.QueueCommands

/-- Analytic jobs, the streams of their operators, and the passes of the strike sweep (R81, R102, R105, R119, R146–R149, R162, R186, R187, R191, R527). -/
def Obligations.JobsAndStrikePasses : Prop :=
  Claims.AnalyticJobs ∧ Claims.OperatorStreams ∧ Claims.StrikePasses

/-- The soft resets that clear counters, and the registers that every page has (R500–R505). -/
def Obligations.RegisterPages : Prop :=
  Claims.CounterSoftResets ∧ Claims.CommonRegisters
end

