-- ==== Sys2Proof/Laws/Sparse.lean ====
section
/-!
SUPPORT. Sparse tables: a read after a write gives the value written, a write leaves every other key alone, and every
operation keeps the canonical form.
-/
namespace Sys2Proof.Sparse

variable {α : Type} [DecidableEq α] {d : Nat → α}

/-- A key below the bound of a canonical tail is unlisted. -/
theorem get_of_wfFrom_lt {t : List (Nat × α)} {b k : Nat} (h : wfFrom d b t = true) (hk : k < b) :
    get d t k = d k := by
  induction t generalizing b with
  | nil => rfl
  | cons p r ih =>
    obtain ⟨k', v⟩ := p
    simp only [wfFrom, Bool.and_eq_true, decide_eq_true_eq] at h
    have hne : k ≠ k' := by omega
    simp only [get, hne, if_false]
    exact ih h.2 (by omega)

/-- Reading the key just written gives the value written. -/
theorem get_set_same {t : List (Nat × α)} {b k : Nat} (h : wfFrom d b t = true) (v : α) :
    get d (set d t k v) k = v := by
  induction t generalizing b with
  | nil => by_cases hv : v = d k <;> simp [set, get, hv]
  | cons p r ih =>
    obtain ⟨k', v'⟩ := p
    simp only [wfFrom, Bool.and_eq_true, decide_eq_true_eq] at h
    by_cases hlt : k < k'
    · by_cases hv : v = d k
      · simp only [set, hlt, hv, if_true]
        have hne : k ≠ k' := by omega
        simp only [get, hne, if_false]
        exact get_of_wfFrom_lt h.2 (by omega)
      · simp [set, hlt, hv, get]
    · by_cases he : k = k'
      · subst he
        by_cases hv : v = d k
        · simp only [set, hv, if_true, Nat.lt_irrefl, if_false]
          exact get_of_wfFrom_lt h.2 (by omega)
        · simp [set, hv, get]
      · simp only [set, hlt, he, if_false, get]
        exact ih h.2

/-- Reading any other key gives what it gave before. -/
theorem get_set_other {t : List (Nat × α)} {b k j : Nat} (h : wfFrom d b t = true) (v : α) (hj : j ≠ k) :
    get d (set d t k v) j = get d t j := by
  induction t generalizing b with
  | nil => by_cases hv : v = d k <;> simp [set, get, hv, hj]
  | cons p r ih =>
    obtain ⟨k', v'⟩ := p
    simp only [wfFrom, Bool.and_eq_true, decide_eq_true_eq] at h
    by_cases hlt : k < k'
    · by_cases hv : v = d k
      · simp [set, hlt, hv]
      · simp [set, hlt, hv, get, hj]
    · by_cases he : k = k'
      · subst he
        by_cases hv : v = d k
        · simp [set, hv, get, hj]
        · simp [set, hv, get, hj]
      · simp only [set, hlt, he, if_false, get]
        rw [ih h.2]

/-- A write keeps a canonical tail canonical above any bound it respects. -/
theorem wfFrom_set {t : List (Nat × α)} {b k : Nat} (h : wfFrom d b t = true) (hb : b ≤ k) (v : α) :
    wfFrom d b (set d t k v) = true := by
  induction t generalizing b with
  | nil =>
    by_cases hv : v = d k
    · simp [set, hv, wfFrom]
    · simp [set, hv, wfFrom, hb]
  | cons p r ih =>
    obtain ⟨k', v'⟩ := p
    simp only [wfFrom, Bool.and_eq_true, decide_eq_true_eq] at h
    by_cases hlt : k < k'
    · by_cases hv : v = d k
      · simp [set, hlt, hv, wfFrom, h]
      · simp only [set, hlt, hv, if_true, if_false, wfFrom, Bool.and_eq_true, decide_eq_true_eq]
        exact ⟨⟨hb, hv⟩, ⟨by omega, h.1.2⟩, h.2⟩
    · by_cases he : k = k'
      · subst he
        by_cases hv : v = d k
        · simp only [set, hv, if_true, Nat.lt_irrefl, if_false]
          have := h.2
          clear ih
          revert this
          cases r with
          | nil => simp [wfFrom]
          | cons q r' =>
            obtain ⟨k2, v2⟩ := q
            simp only [wfFrom, Bool.and_eq_true, decide_eq_true_eq]
            intro h'
            exact ⟨⟨by omega, h'.1.2⟩, h'.2⟩
        · simp [set, hv, wfFrom, h]
      · simp only [set, hlt, he, if_false, wfFrom, Bool.and_eq_true, decide_eq_true_eq]
        exact ⟨h.1, ih h.2 (by omega)⟩

/-- Every write keeps the canonical form. -/
theorem wf_set {t : List (Nat × α)} {k : Nat} (h : wf d t = true) (v : α) : wf d (set d t k v) = true :=
  wfFrom_set h (Nat.zero_le k) v

/-- A run of writes keeps the canonical form. -/
theorem wf_setRun {t : List (Nat × α)} {k : Nat} (h : wf d t = true) (vs : List α) :
    wf d (setRun d t k vs) = true := by
  induction vs generalizing t k with
  | nil => simpa [setRun] using h
  | cons v r ih => exact ih (wf_set h v)

/-- A run of writes leaves every key outside it alone. -/
theorem get_setRun_other {t : List (Nat × α)} {k j : Nat} (h : wf d t = true) (vs : List α)
    (hj : j < k ∨ k + vs.length ≤ j) : get d (setRun d t k vs) j = get d t j := by
  induction vs generalizing t k with
  | nil => rfl
  | cons v r ih =>
    simp only [List.length_cons] at hj
    simp only [setRun]
    rw [ih (wf_set h v) (by omega), get_set_other h v (by omega)]

/-- Clearing a range keeps a canonical tail canonical. -/
theorem wfFrom_clear {t : List (Nat × α)} {b lo hi : Nat} (h : wfFrom d b t = true) :
    wfFrom d b (clear t lo hi) = true := by
  induction t generalizing b with
  | nil => simp [clear, wfFrom]
  | cons p r ih =>
    obtain ⟨k, v⟩ := p
    simp only [wfFrom, Bool.and_eq_true, decide_eq_true_eq] at h
    have hmono : ∀ {b b' : Nat} {t : List (Nat × α)}, b' ≤ b → wfFrom d b t = true → wfFrom d b' t = true := by
      intro b b' t hb ht
      cases t with
      | nil => rfl
      | cons q r' =>
        obtain ⟨k2, v2⟩ := q
        simp only [wfFrom, Bool.and_eq_true, decide_eq_true_eq] at ht ⊢
        exact ⟨⟨by omega, ht.1.2⟩, ht.2⟩
    have ih' := ih h.2
    unfold clear at ih' ⊢
    by_cases hin : lo ≤ k ∧ k < hi
    · simp only [List.filter, hin, decide_true, Bool.and_true, Bool.not_true]
      exact hmono (by omega) ih'
    · have : (!(decide (lo ≤ k) && decide (k < hi))) = true := by
        simp only [Bool.not_eq_true', Bool.and_eq_false_iff, decide_eq_false_iff_not]
        omega
      simp only [List.filter, this, wfFrom, Bool.and_eq_true, decide_eq_true_eq]
      exact ⟨h.1, ih'⟩

/-- Clearing a range keeps the canonical form. -/
theorem wf_clear {t : List (Nat × α)} {lo hi : Nat} (h : wf d t = true) : wf d (clear t lo hi) = true :=
  wfFrom_clear h

end Sys2Proof.Sparse
end

