-- ==== Sys2Proof/Laws/State.lean ====
section
/-!
SUPPORT. What each named update of the state leaves alone: one lemma per field and update, so that no proof unfolds a record update.
-/
namespace Sys2Proof.Machine
open Sys2Proof

/-! ## setReg -/

@[simp] theorem State.setReg_pending (s : State) (page off : Nat) (v : Word32) : (s.setReg page off v).pending = s.pending := rfl
@[simp] theorem State.setReg_fresh (s : State) (page off : Nat) (v : Word32) : (s.setReg page off v).fresh = s.fresh := rfl
@[simp] theorem State.setReg_stamp (s : State) (page off : Nat) (v : Word32) : (s.setReg page off v).stamp = s.stamp := rfl
@[simp] theorem State.setReg_beat (s : State) (page off : Nat) (v : Word32) : (s.setReg page off v).beat = s.beat := rfl
@[simp] theorem State.setReg_build (s : State) (page off : Nat) (v : Word32) : (s.setReg page off v).build = s.build := rfl
@[simp] theorem State.setReg_mdl (s : State) (page off : Nat) (v : Word32) : (s.setReg page off v).mdl = s.mdl := rfl
@[simp] theorem State.setReg_wide (s : State) (page off : Nat) (v : Word32) : (s.setReg page off v).wide = s.wide := rfl
@[simp] theorem State.setReg_mem (s : State) (page off : Nat) (v : Word32) : (s.setReg page off v).mem = s.mem := rfl
@[simp] theorem State.setReg_host (s : State) (page off : Nat) (v : Word32) : (s.setReg page off v).host = s.host := rfl
@[simp] theorem State.setReg_cores (s : State) (page off : Nat) (v : Word32) : (s.setReg page off v).cores = s.cores := rfl
@[simp] theorem State.setReg_clusters (s : State) (page off : Nat) (v : Word32) : (s.setReg page off v).clusters = s.clusters := rfl
@[simp] theorem State.setReg_irtr (s : State) (page off : Nat) (v : Word32) : (s.setReg page off v).irtr = s.irtr := rfl
@[simp] theorem State.setReg_memcs (s : State) (page off : Nat) (v : Word32) : (s.setReg page off v).memcs = s.memcs := rfl
@[simp] theorem State.setReg_hep (s : State) (page off : Nat) (v : Word32) : (s.setReg page off v).hep = s.hep := rfl
@[simp] theorem State.setReg_tables (s : State) (page off : Nat) (v : Word32) : (s.setReg page off v).tables = s.tables := rfl
@[simp] theorem State.setReg_detached (s : State) (page off : Nat) (v : Word32) : (s.setReg page off v).detached = s.detached := rfl
@[simp] theorem State.setReg_strike (s : State) (page off : Nat) (v : Word32) : (s.setReg page off v).strike = s.strike := rfl
@[simp] theorem State.setReg_pipes (s : State) (page off : Nat) (v : Word32) : (s.setReg page off v).pipes = s.pipes := rfl
@[simp] theorem State.setReg_jobs (s : State) (page off : Nat) (v : Word32) : (s.setReg page off v).jobs = s.jobs := rfl
@[simp] theorem State.setReg_jobSeq (s : State) (page off : Nat) (v : Word32) : (s.setReg page off v).jobSeq = s.jobSeq := rfl
@[simp] theorem State.setReg_qpairs (s : State) (page off : Nat) (v : Word32) : (s.setReg page off v).qpairs = s.qpairs := rfl
@[simp] theorem State.setReg_journal (s : State) (page off : Nat) (v : Word32) : (s.setReg page off v).journal = s.journal := rfl
@[simp] theorem State.setReg_exports (s : State) (page off : Nat) (v : Word32) : (s.setReg page off v).exports = s.exports := rfl
@[simp] theorem State.setReg_journalCodec (s : State) (page off : Nat) (v : Word32) : (s.setReg page off v).journalCodec = s.journalCodec := rfl
@[simp] theorem State.setReg_poolGib (s : State) (page off : Nat) (v : Word32) : (s.setReg page off v).poolGib = s.poolGib := rfl
@[simp] theorem State.setReg_adminBacklog (s : State) (page off : Nat) (v : Word32) : (s.setReg page off v).adminBacklog = s.adminBacklog := rfl
@[simp] theorem State.setReg_cue (s : State) (page off : Nat) (v : Word32) : (s.setReg page off v).cue = s.cue := rfl
@[simp] theorem State.setReg_dup (s : State) (page off : Nat) (v : Word32) : (s.setReg page off v).dup = s.dup := rfl
@[simp] theorem State.setReg_keys (s : State) (page off : Nat) (v : Word32) : (s.setReg page off v).keys = s.keys := rfl
@[simp] theorem State.setReg_flash (s : State) (page off : Nat) (v : Word32) : (s.setReg page off v).flash = s.flash := rfl
@[simp] theorem State.setReg_pbook (s : State) (page off : Nat) (v : Word32) : (s.setReg page off v).pbook = s.pbook := rfl
@[simp] theorem State.setReg_rehearse (s : State) (page off : Nat) (v : Word32) : (s.setReg page off v).rehearse = s.rehearse := rfl
@[simp] theorem State.setReg_mgmt (s : State) (page off : Nat) (v : Word32) : (s.setReg page off v).mgmt = s.mgmt := rfl
@[simp] theorem State.setReg_cams (s : State) (page off : Nat) (v : Word32) : (s.setReg page off v).cams = s.cams := rfl
@[simp] theorem State.setReg_units (s : State) (page off : Nat) (v : Word32) : (s.setReg page off v).units = s.units := rfl
@[simp] theorem State.setReg_digs (s : State) (page off : Nat) (v : Word32) : (s.setReg page off v).digs = s.digs := rfl
@[simp] theorem State.setReg_hashes (s : State) (page off : Nat) (v : Word32) : (s.setReg page off v).hashes = s.hashes := rfl
@[simp] theorem State.setReg_lsu (s : State) (page off : Nat) (v : Word32) : (s.setReg page off v).lsu = s.lsu := rfl
@[simp] theorem State.setReg_dmas (s : State) (page off : Nat) (v : Word32) : (s.setReg page off v).dmas = s.dmas := rfl
@[simp] theorem State.setReg_camDeltas (s : State) (page off : Nat) (v : Word32) : (s.setReg page off v).camDeltas = s.camDeltas := rfl
@[simp] theorem State.setReg_adminWait (s : State) (page off : Nat) (v : Word32) : (s.setReg page off v).adminWait = s.adminWait := rfl
@[simp] theorem State.setReg_snapExport (s : State) (page off : Nat) (v : Word32) : (s.setReg page off v).snapExport = s.snapExport := rfl
@[simp] theorem State.setReg_evictedExport (s : State) (page off : Nat) (v : Word32) : (s.setReg page off v).evictedExport = s.evictedExport := rfl
@[simp] theorem State.setReg_dupKept (s : State) (page off : Nat) (v : Word32) : (s.setReg page off v).dupKept = s.dupKept := rfl
@[simp] theorem State.setReg_changeSeq (s : State) (page off : Nat) (v : Word32) : (s.setReg page off v).changeSeq = s.changeSeq := rfl
@[simp] theorem State.setReg_wings (s : State) (page off : Nat) (v : Word32) : (s.setReg page off v).wings = s.wings := rfl
@[simp] theorem State.setReg_company (s : State) (page off : Nat) (v : Word32) : (s.setReg page off v).company = s.company := rfl

/-! ## setFld -/

@[simp] theorem State.setFld_pending (s : State) (page off hi lo v : Nat) : (s.setFld page off hi lo v).pending = s.pending := rfl
@[simp] theorem State.setFld_fresh (s : State) (page off hi lo v : Nat) : (s.setFld page off hi lo v).fresh = s.fresh := rfl
@[simp] theorem State.setFld_stamp (s : State) (page off hi lo v : Nat) : (s.setFld page off hi lo v).stamp = s.stamp := rfl
@[simp] theorem State.setFld_beat (s : State) (page off hi lo v : Nat) : (s.setFld page off hi lo v).beat = s.beat := rfl
@[simp] theorem State.setFld_build (s : State) (page off hi lo v : Nat) : (s.setFld page off hi lo v).build = s.build := rfl
@[simp] theorem State.setFld_mdl (s : State) (page off hi lo v : Nat) : (s.setFld page off hi lo v).mdl = s.mdl := rfl
@[simp] theorem State.setFld_wide (s : State) (page off hi lo v : Nat) : (s.setFld page off hi lo v).wide = s.wide := rfl
@[simp] theorem State.setFld_mem (s : State) (page off hi lo v : Nat) : (s.setFld page off hi lo v).mem = s.mem := rfl
@[simp] theorem State.setFld_host (s : State) (page off hi lo v : Nat) : (s.setFld page off hi lo v).host = s.host := rfl
@[simp] theorem State.setFld_cores (s : State) (page off hi lo v : Nat) : (s.setFld page off hi lo v).cores = s.cores := rfl
@[simp] theorem State.setFld_clusters (s : State) (page off hi lo v : Nat) : (s.setFld page off hi lo v).clusters = s.clusters := rfl
@[simp] theorem State.setFld_irtr (s : State) (page off hi lo v : Nat) : (s.setFld page off hi lo v).irtr = s.irtr := rfl
@[simp] theorem State.setFld_memcs (s : State) (page off hi lo v : Nat) : (s.setFld page off hi lo v).memcs = s.memcs := rfl
@[simp] theorem State.setFld_hep (s : State) (page off hi lo v : Nat) : (s.setFld page off hi lo v).hep = s.hep := rfl
@[simp] theorem State.setFld_tables (s : State) (page off hi lo v : Nat) : (s.setFld page off hi lo v).tables = s.tables := rfl
@[simp] theorem State.setFld_detached (s : State) (page off hi lo v : Nat) : (s.setFld page off hi lo v).detached = s.detached := rfl
@[simp] theorem State.setFld_strike (s : State) (page off hi lo v : Nat) : (s.setFld page off hi lo v).strike = s.strike := rfl
@[simp] theorem State.setFld_pipes (s : State) (page off hi lo v : Nat) : (s.setFld page off hi lo v).pipes = s.pipes := rfl
@[simp] theorem State.setFld_jobs (s : State) (page off hi lo v : Nat) : (s.setFld page off hi lo v).jobs = s.jobs := rfl
@[simp] theorem State.setFld_jobSeq (s : State) (page off hi lo v : Nat) : (s.setFld page off hi lo v).jobSeq = s.jobSeq := rfl
@[simp] theorem State.setFld_qpairs (s : State) (page off hi lo v : Nat) : (s.setFld page off hi lo v).qpairs = s.qpairs := rfl
@[simp] theorem State.setFld_journal (s : State) (page off hi lo v : Nat) : (s.setFld page off hi lo v).journal = s.journal := rfl
@[simp] theorem State.setFld_exports (s : State) (page off hi lo v : Nat) : (s.setFld page off hi lo v).exports = s.exports := rfl
@[simp] theorem State.setFld_journalCodec (s : State) (page off hi lo v : Nat) : (s.setFld page off hi lo v).journalCodec = s.journalCodec := rfl
@[simp] theorem State.setFld_poolGib (s : State) (page off hi lo v : Nat) : (s.setFld page off hi lo v).poolGib = s.poolGib := rfl
@[simp] theorem State.setFld_adminBacklog (s : State) (page off hi lo v : Nat) : (s.setFld page off hi lo v).adminBacklog = s.adminBacklog := rfl
@[simp] theorem State.setFld_cue (s : State) (page off hi lo v : Nat) : (s.setFld page off hi lo v).cue = s.cue := rfl
@[simp] theorem State.setFld_dup (s : State) (page off hi lo v : Nat) : (s.setFld page off hi lo v).dup = s.dup := rfl
@[simp] theorem State.setFld_keys (s : State) (page off hi lo v : Nat) : (s.setFld page off hi lo v).keys = s.keys := rfl
@[simp] theorem State.setFld_flash (s : State) (page off hi lo v : Nat) : (s.setFld page off hi lo v).flash = s.flash := rfl
@[simp] theorem State.setFld_pbook (s : State) (page off hi lo v : Nat) : (s.setFld page off hi lo v).pbook = s.pbook := rfl
@[simp] theorem State.setFld_rehearse (s : State) (page off hi lo v : Nat) : (s.setFld page off hi lo v).rehearse = s.rehearse := rfl
@[simp] theorem State.setFld_mgmt (s : State) (page off hi lo v : Nat) : (s.setFld page off hi lo v).mgmt = s.mgmt := rfl
@[simp] theorem State.setFld_cams (s : State) (page off hi lo v : Nat) : (s.setFld page off hi lo v).cams = s.cams := rfl
@[simp] theorem State.setFld_units (s : State) (page off hi lo v : Nat) : (s.setFld page off hi lo v).units = s.units := rfl
@[simp] theorem State.setFld_digs (s : State) (page off hi lo v : Nat) : (s.setFld page off hi lo v).digs = s.digs := rfl
@[simp] theorem State.setFld_hashes (s : State) (page off hi lo v : Nat) : (s.setFld page off hi lo v).hashes = s.hashes := rfl
@[simp] theorem State.setFld_lsu (s : State) (page off hi lo v : Nat) : (s.setFld page off hi lo v).lsu = s.lsu := rfl
@[simp] theorem State.setFld_dmas (s : State) (page off hi lo v : Nat) : (s.setFld page off hi lo v).dmas = s.dmas := rfl
@[simp] theorem State.setFld_camDeltas (s : State) (page off hi lo v : Nat) : (s.setFld page off hi lo v).camDeltas = s.camDeltas := rfl
@[simp] theorem State.setFld_adminWait (s : State) (page off hi lo v : Nat) : (s.setFld page off hi lo v).adminWait = s.adminWait := rfl
@[simp] theorem State.setFld_snapExport (s : State) (page off hi lo v : Nat) : (s.setFld page off hi lo v).snapExport = s.snapExport := rfl
@[simp] theorem State.setFld_evictedExport (s : State) (page off hi lo v : Nat) : (s.setFld page off hi lo v).evictedExport = s.evictedExport := rfl
@[simp] theorem State.setFld_dupKept (s : State) (page off hi lo v : Nat) : (s.setFld page off hi lo v).dupKept = s.dupKept := rfl
@[simp] theorem State.setFld_changeSeq (s : State) (page off hi lo v : Nat) : (s.setFld page off hi lo v).changeSeq = s.changeSeq := rfl
@[simp] theorem State.setFld_wings (s : State) (page off hi lo v : Nat) : (s.setFld page off hi lo v).wings = s.wings := rfl
@[simp] theorem State.setFld_company (s : State) (page off hi lo v : Nat) : (s.setFld page off hi lo v).company = s.company := rfl

/-! ## addReg -/

@[simp] theorem State.addReg_pending (s : State) (page off n : Nat) : (s.addReg page off n).pending = s.pending := rfl
@[simp] theorem State.addReg_fresh (s : State) (page off n : Nat) : (s.addReg page off n).fresh = s.fresh := rfl
@[simp] theorem State.addReg_stamp (s : State) (page off n : Nat) : (s.addReg page off n).stamp = s.stamp := rfl
@[simp] theorem State.addReg_beat (s : State) (page off n : Nat) : (s.addReg page off n).beat = s.beat := rfl
@[simp] theorem State.addReg_build (s : State) (page off n : Nat) : (s.addReg page off n).build = s.build := rfl
@[simp] theorem State.addReg_mdl (s : State) (page off n : Nat) : (s.addReg page off n).mdl = s.mdl := rfl
@[simp] theorem State.addReg_wide (s : State) (page off n : Nat) : (s.addReg page off n).wide = s.wide := rfl
@[simp] theorem State.addReg_mem (s : State) (page off n : Nat) : (s.addReg page off n).mem = s.mem := rfl
@[simp] theorem State.addReg_host (s : State) (page off n : Nat) : (s.addReg page off n).host = s.host := rfl
@[simp] theorem State.addReg_cores (s : State) (page off n : Nat) : (s.addReg page off n).cores = s.cores := rfl
@[simp] theorem State.addReg_clusters (s : State) (page off n : Nat) : (s.addReg page off n).clusters = s.clusters := rfl
@[simp] theorem State.addReg_irtr (s : State) (page off n : Nat) : (s.addReg page off n).irtr = s.irtr := rfl
@[simp] theorem State.addReg_memcs (s : State) (page off n : Nat) : (s.addReg page off n).memcs = s.memcs := rfl
@[simp] theorem State.addReg_hep (s : State) (page off n : Nat) : (s.addReg page off n).hep = s.hep := rfl
@[simp] theorem State.addReg_tables (s : State) (page off n : Nat) : (s.addReg page off n).tables = s.tables := rfl
@[simp] theorem State.addReg_detached (s : State) (page off n : Nat) : (s.addReg page off n).detached = s.detached := rfl
@[simp] theorem State.addReg_strike (s : State) (page off n : Nat) : (s.addReg page off n).strike = s.strike := rfl
@[simp] theorem State.addReg_pipes (s : State) (page off n : Nat) : (s.addReg page off n).pipes = s.pipes := rfl
@[simp] theorem State.addReg_jobs (s : State) (page off n : Nat) : (s.addReg page off n).jobs = s.jobs := rfl
@[simp] theorem State.addReg_jobSeq (s : State) (page off n : Nat) : (s.addReg page off n).jobSeq = s.jobSeq := rfl
@[simp] theorem State.addReg_qpairs (s : State) (page off n : Nat) : (s.addReg page off n).qpairs = s.qpairs := rfl
@[simp] theorem State.addReg_journal (s : State) (page off n : Nat) : (s.addReg page off n).journal = s.journal := rfl
@[simp] theorem State.addReg_exports (s : State) (page off n : Nat) : (s.addReg page off n).exports = s.exports := rfl
@[simp] theorem State.addReg_journalCodec (s : State) (page off n : Nat) : (s.addReg page off n).journalCodec = s.journalCodec := rfl
@[simp] theorem State.addReg_poolGib (s : State) (page off n : Nat) : (s.addReg page off n).poolGib = s.poolGib := rfl
@[simp] theorem State.addReg_adminBacklog (s : State) (page off n : Nat) : (s.addReg page off n).adminBacklog = s.adminBacklog := rfl
@[simp] theorem State.addReg_cue (s : State) (page off n : Nat) : (s.addReg page off n).cue = s.cue := rfl
@[simp] theorem State.addReg_dup (s : State) (page off n : Nat) : (s.addReg page off n).dup = s.dup := rfl
@[simp] theorem State.addReg_keys (s : State) (page off n : Nat) : (s.addReg page off n).keys = s.keys := rfl
@[simp] theorem State.addReg_flash (s : State) (page off n : Nat) : (s.addReg page off n).flash = s.flash := rfl
@[simp] theorem State.addReg_pbook (s : State) (page off n : Nat) : (s.addReg page off n).pbook = s.pbook := rfl
@[simp] theorem State.addReg_rehearse (s : State) (page off n : Nat) : (s.addReg page off n).rehearse = s.rehearse := rfl
@[simp] theorem State.addReg_mgmt (s : State) (page off n : Nat) : (s.addReg page off n).mgmt = s.mgmt := rfl
@[simp] theorem State.addReg_cams (s : State) (page off n : Nat) : (s.addReg page off n).cams = s.cams := rfl
@[simp] theorem State.addReg_units (s : State) (page off n : Nat) : (s.addReg page off n).units = s.units := rfl
@[simp] theorem State.addReg_digs (s : State) (page off n : Nat) : (s.addReg page off n).digs = s.digs := rfl
@[simp] theorem State.addReg_hashes (s : State) (page off n : Nat) : (s.addReg page off n).hashes = s.hashes := rfl
@[simp] theorem State.addReg_lsu (s : State) (page off n : Nat) : (s.addReg page off n).lsu = s.lsu := rfl
@[simp] theorem State.addReg_dmas (s : State) (page off n : Nat) : (s.addReg page off n).dmas = s.dmas := rfl
@[simp] theorem State.addReg_camDeltas (s : State) (page off n : Nat) : (s.addReg page off n).camDeltas = s.camDeltas := rfl
@[simp] theorem State.addReg_adminWait (s : State) (page off n : Nat) : (s.addReg page off n).adminWait = s.adminWait := rfl
@[simp] theorem State.addReg_snapExport (s : State) (page off n : Nat) : (s.addReg page off n).snapExport = s.snapExport := rfl
@[simp] theorem State.addReg_evictedExport (s : State) (page off n : Nat) : (s.addReg page off n).evictedExport = s.evictedExport := rfl
@[simp] theorem State.addReg_dupKept (s : State) (page off n : Nat) : (s.addReg page off n).dupKept = s.dupKept := rfl
@[simp] theorem State.addReg_changeSeq (s : State) (page off n : Nat) : (s.addReg page off n).changeSeq = s.changeSeq := rfl
@[simp] theorem State.addReg_wings (s : State) (page off n : Nat) : (s.addReg page off n).wings = s.wings := rfl
@[simp] theorem State.addReg_company (s : State) (page off n : Nat) : (s.addReg page off n).company = s.company := rfl

/-! ## setPageAddr -/

@[simp] theorem State.setPageAddr_pending (s : State) (page lo hi a : Nat) : (s.setPageAddr page lo hi a).pending = s.pending := rfl
@[simp] theorem State.setPageAddr_fresh (s : State) (page lo hi a : Nat) : (s.setPageAddr page lo hi a).fresh = s.fresh := rfl
@[simp] theorem State.setPageAddr_stamp (s : State) (page lo hi a : Nat) : (s.setPageAddr page lo hi a).stamp = s.stamp := rfl
@[simp] theorem State.setPageAddr_beat (s : State) (page lo hi a : Nat) : (s.setPageAddr page lo hi a).beat = s.beat := rfl
@[simp] theorem State.setPageAddr_build (s : State) (page lo hi a : Nat) : (s.setPageAddr page lo hi a).build = s.build := rfl
@[simp] theorem State.setPageAddr_mdl (s : State) (page lo hi a : Nat) : (s.setPageAddr page lo hi a).mdl = s.mdl := rfl
@[simp] theorem State.setPageAddr_wide (s : State) (page lo hi a : Nat) : (s.setPageAddr page lo hi a).wide = s.wide := rfl
@[simp] theorem State.setPageAddr_mem (s : State) (page lo hi a : Nat) : (s.setPageAddr page lo hi a).mem = s.mem := rfl
@[simp] theorem State.setPageAddr_host (s : State) (page lo hi a : Nat) : (s.setPageAddr page lo hi a).host = s.host := rfl
@[simp] theorem State.setPageAddr_cores (s : State) (page lo hi a : Nat) : (s.setPageAddr page lo hi a).cores = s.cores := rfl
@[simp] theorem State.setPageAddr_clusters (s : State) (page lo hi a : Nat) : (s.setPageAddr page lo hi a).clusters = s.clusters := rfl
@[simp] theorem State.setPageAddr_irtr (s : State) (page lo hi a : Nat) : (s.setPageAddr page lo hi a).irtr = s.irtr := rfl
@[simp] theorem State.setPageAddr_memcs (s : State) (page lo hi a : Nat) : (s.setPageAddr page lo hi a).memcs = s.memcs := rfl
@[simp] theorem State.setPageAddr_hep (s : State) (page lo hi a : Nat) : (s.setPageAddr page lo hi a).hep = s.hep := rfl
@[simp] theorem State.setPageAddr_tables (s : State) (page lo hi a : Nat) : (s.setPageAddr page lo hi a).tables = s.tables := rfl
@[simp] theorem State.setPageAddr_detached (s : State) (page lo hi a : Nat) : (s.setPageAddr page lo hi a).detached = s.detached := rfl
@[simp] theorem State.setPageAddr_strike (s : State) (page lo hi a : Nat) : (s.setPageAddr page lo hi a).strike = s.strike := rfl
@[simp] theorem State.setPageAddr_pipes (s : State) (page lo hi a : Nat) : (s.setPageAddr page lo hi a).pipes = s.pipes := rfl
@[simp] theorem State.setPageAddr_jobs (s : State) (page lo hi a : Nat) : (s.setPageAddr page lo hi a).jobs = s.jobs := rfl
@[simp] theorem State.setPageAddr_jobSeq (s : State) (page lo hi a : Nat) : (s.setPageAddr page lo hi a).jobSeq = s.jobSeq := rfl
@[simp] theorem State.setPageAddr_qpairs (s : State) (page lo hi a : Nat) : (s.setPageAddr page lo hi a).qpairs = s.qpairs := rfl
@[simp] theorem State.setPageAddr_journal (s : State) (page lo hi a : Nat) : (s.setPageAddr page lo hi a).journal = s.journal := rfl
@[simp] theorem State.setPageAddr_exports (s : State) (page lo hi a : Nat) : (s.setPageAddr page lo hi a).exports = s.exports := rfl
@[simp] theorem State.setPageAddr_journalCodec (s : State) (page lo hi a : Nat) : (s.setPageAddr page lo hi a).journalCodec = s.journalCodec := rfl
@[simp] theorem State.setPageAddr_poolGib (s : State) (page lo hi a : Nat) : (s.setPageAddr page lo hi a).poolGib = s.poolGib := rfl
@[simp] theorem State.setPageAddr_adminBacklog (s : State) (page lo hi a : Nat) : (s.setPageAddr page lo hi a).adminBacklog = s.adminBacklog := rfl
@[simp] theorem State.setPageAddr_cue (s : State) (page lo hi a : Nat) : (s.setPageAddr page lo hi a).cue = s.cue := rfl
@[simp] theorem State.setPageAddr_dup (s : State) (page lo hi a : Nat) : (s.setPageAddr page lo hi a).dup = s.dup := rfl
@[simp] theorem State.setPageAddr_keys (s : State) (page lo hi a : Nat) : (s.setPageAddr page lo hi a).keys = s.keys := rfl
@[simp] theorem State.setPageAddr_flash (s : State) (page lo hi a : Nat) : (s.setPageAddr page lo hi a).flash = s.flash := rfl
@[simp] theorem State.setPageAddr_pbook (s : State) (page lo hi a : Nat) : (s.setPageAddr page lo hi a).pbook = s.pbook := rfl
@[simp] theorem State.setPageAddr_rehearse (s : State) (page lo hi a : Nat) : (s.setPageAddr page lo hi a).rehearse = s.rehearse := rfl
@[simp] theorem State.setPageAddr_mgmt (s : State) (page lo hi a : Nat) : (s.setPageAddr page lo hi a).mgmt = s.mgmt := rfl
@[simp] theorem State.setPageAddr_cams (s : State) (page lo hi a : Nat) : (s.setPageAddr page lo hi a).cams = s.cams := rfl
@[simp] theorem State.setPageAddr_units (s : State) (page lo hi a : Nat) : (s.setPageAddr page lo hi a).units = s.units := rfl
@[simp] theorem State.setPageAddr_digs (s : State) (page lo hi a : Nat) : (s.setPageAddr page lo hi a).digs = s.digs := rfl
@[simp] theorem State.setPageAddr_hashes (s : State) (page lo hi a : Nat) : (s.setPageAddr page lo hi a).hashes = s.hashes := rfl
@[simp] theorem State.setPageAddr_lsu (s : State) (page lo hi a : Nat) : (s.setPageAddr page lo hi a).lsu = s.lsu := rfl
@[simp] theorem State.setPageAddr_dmas (s : State) (page lo hi a : Nat) : (s.setPageAddr page lo hi a).dmas = s.dmas := rfl
@[simp] theorem State.setPageAddr_camDeltas (s : State) (page lo hi a : Nat) : (s.setPageAddr page lo hi a).camDeltas = s.camDeltas := rfl
@[simp] theorem State.setPageAddr_adminWait (s : State) (page lo hi a : Nat) : (s.setPageAddr page lo hi a).adminWait = s.adminWait := rfl
@[simp] theorem State.setPageAddr_snapExport (s : State) (page lo hi a : Nat) : (s.setPageAddr page lo hi a).snapExport = s.snapExport := rfl
@[simp] theorem State.setPageAddr_evictedExport (s : State) (page lo hi a : Nat) : (s.setPageAddr page lo hi a).evictedExport = s.evictedExport := rfl
@[simp] theorem State.setPageAddr_dupKept (s : State) (page lo hi a : Nat) : (s.setPageAddr page lo hi a).dupKept = s.dupKept := rfl
@[simp] theorem State.setPageAddr_changeSeq (s : State) (page lo hi a : Nat) : (s.setPageAddr page lo hi a).changeSeq = s.changeSeq := rfl
@[simp] theorem State.setPageAddr_wings (s : State) (page lo hi a : Nat) : (s.setPageAddr page lo hi a).wings = s.wings := rfl
@[simp] theorem State.setPageAddr_company (s : State) (page lo hi a : Nat) : (s.setPageAddr page lo hi a).company = s.company := rfl

/-! ## setWide -/

@[simp] theorem State.setWide_pending (s : State) (page off v : Nat) : (s.setWide page off v).pending = s.pending := rfl
@[simp] theorem State.setWide_fresh (s : State) (page off v : Nat) : (s.setWide page off v).fresh = s.fresh := rfl
@[simp] theorem State.setWide_stamp (s : State) (page off v : Nat) : (s.setWide page off v).stamp = s.stamp := rfl
@[simp] theorem State.setWide_beat (s : State) (page off v : Nat) : (s.setWide page off v).beat = s.beat := rfl
@[simp] theorem State.setWide_build (s : State) (page off v : Nat) : (s.setWide page off v).build = s.build := rfl
@[simp] theorem State.setWide_mdl (s : State) (page off v : Nat) : (s.setWide page off v).mdl = s.mdl := rfl
@[simp] theorem State.setWide_regs (s : State) (page off v : Nat) : (s.setWide page off v).regs = s.regs := rfl
@[simp] theorem State.setWide_mem (s : State) (page off v : Nat) : (s.setWide page off v).mem = s.mem := rfl
@[simp] theorem State.setWide_host (s : State) (page off v : Nat) : (s.setWide page off v).host = s.host := rfl
@[simp] theorem State.setWide_cores (s : State) (page off v : Nat) : (s.setWide page off v).cores = s.cores := rfl
@[simp] theorem State.setWide_clusters (s : State) (page off v : Nat) : (s.setWide page off v).clusters = s.clusters := rfl
@[simp] theorem State.setWide_irtr (s : State) (page off v : Nat) : (s.setWide page off v).irtr = s.irtr := rfl
@[simp] theorem State.setWide_memcs (s : State) (page off v : Nat) : (s.setWide page off v).memcs = s.memcs := rfl
@[simp] theorem State.setWide_hep (s : State) (page off v : Nat) : (s.setWide page off v).hep = s.hep := rfl
@[simp] theorem State.setWide_tables (s : State) (page off v : Nat) : (s.setWide page off v).tables = s.tables := rfl
@[simp] theorem State.setWide_detached (s : State) (page off v : Nat) : (s.setWide page off v).detached = s.detached := rfl
@[simp] theorem State.setWide_strike (s : State) (page off v : Nat) : (s.setWide page off v).strike = s.strike := rfl
@[simp] theorem State.setWide_pipes (s : State) (page off v : Nat) : (s.setWide page off v).pipes = s.pipes := rfl
@[simp] theorem State.setWide_jobs (s : State) (page off v : Nat) : (s.setWide page off v).jobs = s.jobs := rfl
@[simp] theorem State.setWide_jobSeq (s : State) (page off v : Nat) : (s.setWide page off v).jobSeq = s.jobSeq := rfl
@[simp] theorem State.setWide_qpairs (s : State) (page off v : Nat) : (s.setWide page off v).qpairs = s.qpairs := rfl
@[simp] theorem State.setWide_journal (s : State) (page off v : Nat) : (s.setWide page off v).journal = s.journal := rfl
@[simp] theorem State.setWide_exports (s : State) (page off v : Nat) : (s.setWide page off v).exports = s.exports := rfl
@[simp] theorem State.setWide_journalCodec (s : State) (page off v : Nat) : (s.setWide page off v).journalCodec = s.journalCodec := rfl
@[simp] theorem State.setWide_poolGib (s : State) (page off v : Nat) : (s.setWide page off v).poolGib = s.poolGib := rfl
@[simp] theorem State.setWide_adminBacklog (s : State) (page off v : Nat) : (s.setWide page off v).adminBacklog = s.adminBacklog := rfl
@[simp] theorem State.setWide_cue (s : State) (page off v : Nat) : (s.setWide page off v).cue = s.cue := rfl
@[simp] theorem State.setWide_dup (s : State) (page off v : Nat) : (s.setWide page off v).dup = s.dup := rfl
@[simp] theorem State.setWide_keys (s : State) (page off v : Nat) : (s.setWide page off v).keys = s.keys := rfl
@[simp] theorem State.setWide_flash (s : State) (page off v : Nat) : (s.setWide page off v).flash = s.flash := rfl
@[simp] theorem State.setWide_pbook (s : State) (page off v : Nat) : (s.setWide page off v).pbook = s.pbook := rfl
@[simp] theorem State.setWide_rehearse (s : State) (page off v : Nat) : (s.setWide page off v).rehearse = s.rehearse := rfl
@[simp] theorem State.setWide_mgmt (s : State) (page off v : Nat) : (s.setWide page off v).mgmt = s.mgmt := rfl
@[simp] theorem State.setWide_cams (s : State) (page off v : Nat) : (s.setWide page off v).cams = s.cams := rfl
@[simp] theorem State.setWide_units (s : State) (page off v : Nat) : (s.setWide page off v).units = s.units := rfl
@[simp] theorem State.setWide_digs (s : State) (page off v : Nat) : (s.setWide page off v).digs = s.digs := rfl
@[simp] theorem State.setWide_hashes (s : State) (page off v : Nat) : (s.setWide page off v).hashes = s.hashes := rfl
@[simp] theorem State.setWide_lsu (s : State) (page off v : Nat) : (s.setWide page off v).lsu = s.lsu := rfl
@[simp] theorem State.setWide_dmas (s : State) (page off v : Nat) : (s.setWide page off v).dmas = s.dmas := rfl
@[simp] theorem State.setWide_camDeltas (s : State) (page off v : Nat) : (s.setWide page off v).camDeltas = s.camDeltas := rfl
@[simp] theorem State.setWide_adminWait (s : State) (page off v : Nat) : (s.setWide page off v).adminWait = s.adminWait := rfl
@[simp] theorem State.setWide_snapExport (s : State) (page off v : Nat) : (s.setWide page off v).snapExport = s.snapExport := rfl
@[simp] theorem State.setWide_evictedExport (s : State) (page off v : Nat) : (s.setWide page off v).evictedExport = s.evictedExport := rfl
@[simp] theorem State.setWide_dupKept (s : State) (page off v : Nat) : (s.setWide page off v).dupKept = s.dupKept := rfl
@[simp] theorem State.setWide_changeSeq (s : State) (page off v : Nat) : (s.setWide page off v).changeSeq = s.changeSeq := rfl
@[simp] theorem State.setWide_wings (s : State) (page off v : Nat) : (s.setWide page off v).wings = s.wings := rfl
@[simp] theorem State.setWide_company (s : State) (page off v : Nat) : (s.setWide page off v).company = s.company := rfl

/-! ## addWide -/

@[simp] theorem State.addWide_pending (s : State) (page off n : Nat) : (s.addWide page off n).pending = s.pending := rfl
@[simp] theorem State.addWide_fresh (s : State) (page off n : Nat) : (s.addWide page off n).fresh = s.fresh := rfl
@[simp] theorem State.addWide_stamp (s : State) (page off n : Nat) : (s.addWide page off n).stamp = s.stamp := rfl
@[simp] theorem State.addWide_beat (s : State) (page off n : Nat) : (s.addWide page off n).beat = s.beat := rfl
@[simp] theorem State.addWide_build (s : State) (page off n : Nat) : (s.addWide page off n).build = s.build := rfl
@[simp] theorem State.addWide_mdl (s : State) (page off n : Nat) : (s.addWide page off n).mdl = s.mdl := rfl
@[simp] theorem State.addWide_regs (s : State) (page off n : Nat) : (s.addWide page off n).regs = s.regs := rfl
@[simp] theorem State.addWide_mem (s : State) (page off n : Nat) : (s.addWide page off n).mem = s.mem := rfl
@[simp] theorem State.addWide_host (s : State) (page off n : Nat) : (s.addWide page off n).host = s.host := rfl
@[simp] theorem State.addWide_cores (s : State) (page off n : Nat) : (s.addWide page off n).cores = s.cores := rfl
@[simp] theorem State.addWide_clusters (s : State) (page off n : Nat) : (s.addWide page off n).clusters = s.clusters := rfl
@[simp] theorem State.addWide_irtr (s : State) (page off n : Nat) : (s.addWide page off n).irtr = s.irtr := rfl
@[simp] theorem State.addWide_memcs (s : State) (page off n : Nat) : (s.addWide page off n).memcs = s.memcs := rfl
@[simp] theorem State.addWide_hep (s : State) (page off n : Nat) : (s.addWide page off n).hep = s.hep := rfl
@[simp] theorem State.addWide_tables (s : State) (page off n : Nat) : (s.addWide page off n).tables = s.tables := rfl
@[simp] theorem State.addWide_detached (s : State) (page off n : Nat) : (s.addWide page off n).detached = s.detached := rfl
@[simp] theorem State.addWide_strike (s : State) (page off n : Nat) : (s.addWide page off n).strike = s.strike := rfl
@[simp] theorem State.addWide_pipes (s : State) (page off n : Nat) : (s.addWide page off n).pipes = s.pipes := rfl
@[simp] theorem State.addWide_jobs (s : State) (page off n : Nat) : (s.addWide page off n).jobs = s.jobs := rfl
@[simp] theorem State.addWide_jobSeq (s : State) (page off n : Nat) : (s.addWide page off n).jobSeq = s.jobSeq := rfl
@[simp] theorem State.addWide_qpairs (s : State) (page off n : Nat) : (s.addWide page off n).qpairs = s.qpairs := rfl
@[simp] theorem State.addWide_journal (s : State) (page off n : Nat) : (s.addWide page off n).journal = s.journal := rfl
@[simp] theorem State.addWide_exports (s : State) (page off n : Nat) : (s.addWide page off n).exports = s.exports := rfl
@[simp] theorem State.addWide_journalCodec (s : State) (page off n : Nat) : (s.addWide page off n).journalCodec = s.journalCodec := rfl
@[simp] theorem State.addWide_poolGib (s : State) (page off n : Nat) : (s.addWide page off n).poolGib = s.poolGib := rfl
@[simp] theorem State.addWide_adminBacklog (s : State) (page off n : Nat) : (s.addWide page off n).adminBacklog = s.adminBacklog := rfl
@[simp] theorem State.addWide_cue (s : State) (page off n : Nat) : (s.addWide page off n).cue = s.cue := rfl
@[simp] theorem State.addWide_dup (s : State) (page off n : Nat) : (s.addWide page off n).dup = s.dup := rfl
@[simp] theorem State.addWide_keys (s : State) (page off n : Nat) : (s.addWide page off n).keys = s.keys := rfl
@[simp] theorem State.addWide_flash (s : State) (page off n : Nat) : (s.addWide page off n).flash = s.flash := rfl
@[simp] theorem State.addWide_pbook (s : State) (page off n : Nat) : (s.addWide page off n).pbook = s.pbook := rfl
@[simp] theorem State.addWide_rehearse (s : State) (page off n : Nat) : (s.addWide page off n).rehearse = s.rehearse := rfl
@[simp] theorem State.addWide_mgmt (s : State) (page off n : Nat) : (s.addWide page off n).mgmt = s.mgmt := rfl
@[simp] theorem State.addWide_cams (s : State) (page off n : Nat) : (s.addWide page off n).cams = s.cams := rfl
@[simp] theorem State.addWide_units (s : State) (page off n : Nat) : (s.addWide page off n).units = s.units := rfl
@[simp] theorem State.addWide_digs (s : State) (page off n : Nat) : (s.addWide page off n).digs = s.digs := rfl
@[simp] theorem State.addWide_hashes (s : State) (page off n : Nat) : (s.addWide page off n).hashes = s.hashes := rfl
@[simp] theorem State.addWide_lsu (s : State) (page off n : Nat) : (s.addWide page off n).lsu = s.lsu := rfl
@[simp] theorem State.addWide_dmas (s : State) (page off n : Nat) : (s.addWide page off n).dmas = s.dmas := rfl
@[simp] theorem State.addWide_camDeltas (s : State) (page off n : Nat) : (s.addWide page off n).camDeltas = s.camDeltas := rfl
@[simp] theorem State.addWide_adminWait (s : State) (page off n : Nat) : (s.addWide page off n).adminWait = s.adminWait := rfl
@[simp] theorem State.addWide_snapExport (s : State) (page off n : Nat) : (s.addWide page off n).snapExport = s.snapExport := rfl
@[simp] theorem State.addWide_evictedExport (s : State) (page off n : Nat) : (s.addWide page off n).evictedExport = s.evictedExport := rfl
@[simp] theorem State.addWide_dupKept (s : State) (page off n : Nat) : (s.addWide page off n).dupKept = s.dupKept := rfl
@[simp] theorem State.addWide_changeSeq (s : State) (page off n : Nat) : (s.addWide page off n).changeSeq = s.changeSeq := rfl
@[simp] theorem State.addWide_wings (s : State) (page off n : Nat) : (s.addWide page off n).wings = s.wings := rfl
@[simp] theorem State.addWide_company (s : State) (page off n : Nat) : (s.addWide page off n).company = s.company := rfl

/-! ## setCluster -/

@[simp] theorem State.setCluster_pending (s : State) (c : Nat) (x : Cluster) : (s.setCluster c x).pending = s.pending := rfl
@[simp] theorem State.setCluster_fresh (s : State) (c : Nat) (x : Cluster) : (s.setCluster c x).fresh = s.fresh := rfl
@[simp] theorem State.setCluster_stamp (s : State) (c : Nat) (x : Cluster) : (s.setCluster c x).stamp = s.stamp := rfl
@[simp] theorem State.setCluster_beat (s : State) (c : Nat) (x : Cluster) : (s.setCluster c x).beat = s.beat := rfl
@[simp] theorem State.setCluster_build (s : State) (c : Nat) (x : Cluster) : (s.setCluster c x).build = s.build := rfl
@[simp] theorem State.setCluster_mdl (s : State) (c : Nat) (x : Cluster) : (s.setCluster c x).mdl = s.mdl := rfl
@[simp] theorem State.setCluster_regs (s : State) (c : Nat) (x : Cluster) : (s.setCluster c x).regs = s.regs := rfl
@[simp] theorem State.setCluster_wide (s : State) (c : Nat) (x : Cluster) : (s.setCluster c x).wide = s.wide := rfl
@[simp] theorem State.setCluster_mem (s : State) (c : Nat) (x : Cluster) : (s.setCluster c x).mem = s.mem := rfl
@[simp] theorem State.setCluster_host (s : State) (c : Nat) (x : Cluster) : (s.setCluster c x).host = s.host := rfl
@[simp] theorem State.setCluster_cores (s : State) (c : Nat) (x : Cluster) : (s.setCluster c x).cores = s.cores := rfl
@[simp] theorem State.setCluster_irtr (s : State) (c : Nat) (x : Cluster) : (s.setCluster c x).irtr = s.irtr := rfl
@[simp] theorem State.setCluster_memcs (s : State) (c : Nat) (x : Cluster) : (s.setCluster c x).memcs = s.memcs := rfl
@[simp] theorem State.setCluster_hep (s : State) (c : Nat) (x : Cluster) : (s.setCluster c x).hep = s.hep := rfl
@[simp] theorem State.setCluster_tables (s : State) (c : Nat) (x : Cluster) : (s.setCluster c x).tables = s.tables := rfl
@[simp] theorem State.setCluster_detached (s : State) (c : Nat) (x : Cluster) : (s.setCluster c x).detached = s.detached := rfl
@[simp] theorem State.setCluster_strike (s : State) (c : Nat) (x : Cluster) : (s.setCluster c x).strike = s.strike := rfl
@[simp] theorem State.setCluster_pipes (s : State) (c : Nat) (x : Cluster) : (s.setCluster c x).pipes = s.pipes := rfl
@[simp] theorem State.setCluster_jobs (s : State) (c : Nat) (x : Cluster) : (s.setCluster c x).jobs = s.jobs := rfl
@[simp] theorem State.setCluster_jobSeq (s : State) (c : Nat) (x : Cluster) : (s.setCluster c x).jobSeq = s.jobSeq := rfl
@[simp] theorem State.setCluster_qpairs (s : State) (c : Nat) (x : Cluster) : (s.setCluster c x).qpairs = s.qpairs := rfl
@[simp] theorem State.setCluster_journal (s : State) (c : Nat) (x : Cluster) : (s.setCluster c x).journal = s.journal := rfl
@[simp] theorem State.setCluster_exports (s : State) (c : Nat) (x : Cluster) : (s.setCluster c x).exports = s.exports := rfl
@[simp] theorem State.setCluster_journalCodec (s : State) (c : Nat) (x : Cluster) : (s.setCluster c x).journalCodec = s.journalCodec := rfl
@[simp] theorem State.setCluster_poolGib (s : State) (c : Nat) (x : Cluster) : (s.setCluster c x).poolGib = s.poolGib := rfl
@[simp] theorem State.setCluster_adminBacklog (s : State) (c : Nat) (x : Cluster) : (s.setCluster c x).adminBacklog = s.adminBacklog := rfl
@[simp] theorem State.setCluster_cue (s : State) (c : Nat) (x : Cluster) : (s.setCluster c x).cue = s.cue := rfl
@[simp] theorem State.setCluster_dup (s : State) (c : Nat) (x : Cluster) : (s.setCluster c x).dup = s.dup := rfl
@[simp] theorem State.setCluster_keys (s : State) (c : Nat) (x : Cluster) : (s.setCluster c x).keys = s.keys := rfl
@[simp] theorem State.setCluster_flash (s : State) (c : Nat) (x : Cluster) : (s.setCluster c x).flash = s.flash := rfl
@[simp] theorem State.setCluster_pbook (s : State) (c : Nat) (x : Cluster) : (s.setCluster c x).pbook = s.pbook := rfl
@[simp] theorem State.setCluster_rehearse (s : State) (c : Nat) (x : Cluster) : (s.setCluster c x).rehearse = s.rehearse := rfl
@[simp] theorem State.setCluster_mgmt (s : State) (c : Nat) (x : Cluster) : (s.setCluster c x).mgmt = s.mgmt := rfl
@[simp] theorem State.setCluster_cams (s : State) (c : Nat) (x : Cluster) : (s.setCluster c x).cams = s.cams := rfl
@[simp] theorem State.setCluster_units (s : State) (c : Nat) (x : Cluster) : (s.setCluster c x).units = s.units := rfl
@[simp] theorem State.setCluster_digs (s : State) (c : Nat) (x : Cluster) : (s.setCluster c x).digs = s.digs := rfl
@[simp] theorem State.setCluster_hashes (s : State) (c : Nat) (x : Cluster) : (s.setCluster c x).hashes = s.hashes := rfl
@[simp] theorem State.setCluster_lsu (s : State) (c : Nat) (x : Cluster) : (s.setCluster c x).lsu = s.lsu := rfl
@[simp] theorem State.setCluster_dmas (s : State) (c : Nat) (x : Cluster) : (s.setCluster c x).dmas = s.dmas := rfl
@[simp] theorem State.setCluster_camDeltas (s : State) (c : Nat) (x : Cluster) : (s.setCluster c x).camDeltas = s.camDeltas := rfl
@[simp] theorem State.setCluster_adminWait (s : State) (c : Nat) (x : Cluster) : (s.setCluster c x).adminWait = s.adminWait := rfl
@[simp] theorem State.setCluster_snapExport (s : State) (c : Nat) (x : Cluster) : (s.setCluster c x).snapExport = s.snapExport := rfl
@[simp] theorem State.setCluster_evictedExport (s : State) (c : Nat) (x : Cluster) : (s.setCluster c x).evictedExport = s.evictedExport := rfl
@[simp] theorem State.setCluster_dupKept (s : State) (c : Nat) (x : Cluster) : (s.setCluster c x).dupKept = s.dupKept := rfl
@[simp] theorem State.setCluster_changeSeq (s : State) (c : Nat) (x : Cluster) : (s.setCluster c x).changeSeq = s.changeSeq := rfl
@[simp] theorem State.setCluster_wings (s : State) (c : Nat) (x : Cluster) : (s.setCluster c x).wings = s.wings := rfl
@[simp] theorem State.setCluster_company (s : State) (c : Nat) (x : Cluster) : (s.setCluster c x).company = s.company := rfl

/-! ## setDisp -/

@[simp] theorem State.setDisp_pending (s : State) (c : Nat) (x : Disp) : (s.setDisp c x).pending = s.pending := rfl
@[simp] theorem State.setDisp_fresh (s : State) (c : Nat) (x : Disp) : (s.setDisp c x).fresh = s.fresh := rfl
@[simp] theorem State.setDisp_stamp (s : State) (c : Nat) (x : Disp) : (s.setDisp c x).stamp = s.stamp := rfl
@[simp] theorem State.setDisp_beat (s : State) (c : Nat) (x : Disp) : (s.setDisp c x).beat = s.beat := rfl
@[simp] theorem State.setDisp_build (s : State) (c : Nat) (x : Disp) : (s.setDisp c x).build = s.build := rfl
@[simp] theorem State.setDisp_mdl (s : State) (c : Nat) (x : Disp) : (s.setDisp c x).mdl = s.mdl := rfl
@[simp] theorem State.setDisp_regs (s : State) (c : Nat) (x : Disp) : (s.setDisp c x).regs = s.regs := rfl
@[simp] theorem State.setDisp_wide (s : State) (c : Nat) (x : Disp) : (s.setDisp c x).wide = s.wide := rfl
@[simp] theorem State.setDisp_mem (s : State) (c : Nat) (x : Disp) : (s.setDisp c x).mem = s.mem := rfl
@[simp] theorem State.setDisp_host (s : State) (c : Nat) (x : Disp) : (s.setDisp c x).host = s.host := rfl
@[simp] theorem State.setDisp_cores (s : State) (c : Nat) (x : Disp) : (s.setDisp c x).cores = s.cores := rfl
@[simp] theorem State.setDisp_irtr (s : State) (c : Nat) (x : Disp) : (s.setDisp c x).irtr = s.irtr := rfl
@[simp] theorem State.setDisp_memcs (s : State) (c : Nat) (x : Disp) : (s.setDisp c x).memcs = s.memcs := rfl
@[simp] theorem State.setDisp_hep (s : State) (c : Nat) (x : Disp) : (s.setDisp c x).hep = s.hep := rfl
@[simp] theorem State.setDisp_tables (s : State) (c : Nat) (x : Disp) : (s.setDisp c x).tables = s.tables := rfl
@[simp] theorem State.setDisp_detached (s : State) (c : Nat) (x : Disp) : (s.setDisp c x).detached = s.detached := rfl
@[simp] theorem State.setDisp_strike (s : State) (c : Nat) (x : Disp) : (s.setDisp c x).strike = s.strike := rfl
@[simp] theorem State.setDisp_pipes (s : State) (c : Nat) (x : Disp) : (s.setDisp c x).pipes = s.pipes := rfl
@[simp] theorem State.setDisp_jobs (s : State) (c : Nat) (x : Disp) : (s.setDisp c x).jobs = s.jobs := rfl
@[simp] theorem State.setDisp_jobSeq (s : State) (c : Nat) (x : Disp) : (s.setDisp c x).jobSeq = s.jobSeq := rfl
@[simp] theorem State.setDisp_qpairs (s : State) (c : Nat) (x : Disp) : (s.setDisp c x).qpairs = s.qpairs := rfl
@[simp] theorem State.setDisp_journal (s : State) (c : Nat) (x : Disp) : (s.setDisp c x).journal = s.journal := rfl
@[simp] theorem State.setDisp_exports (s : State) (c : Nat) (x : Disp) : (s.setDisp c x).exports = s.exports := rfl
@[simp] theorem State.setDisp_journalCodec (s : State) (c : Nat) (x : Disp) : (s.setDisp c x).journalCodec = s.journalCodec := rfl
@[simp] theorem State.setDisp_poolGib (s : State) (c : Nat) (x : Disp) : (s.setDisp c x).poolGib = s.poolGib := rfl
@[simp] theorem State.setDisp_adminBacklog (s : State) (c : Nat) (x : Disp) : (s.setDisp c x).adminBacklog = s.adminBacklog := rfl
@[simp] theorem State.setDisp_cue (s : State) (c : Nat) (x : Disp) : (s.setDisp c x).cue = s.cue := rfl
@[simp] theorem State.setDisp_dup (s : State) (c : Nat) (x : Disp) : (s.setDisp c x).dup = s.dup := rfl
@[simp] theorem State.setDisp_keys (s : State) (c : Nat) (x : Disp) : (s.setDisp c x).keys = s.keys := rfl
@[simp] theorem State.setDisp_flash (s : State) (c : Nat) (x : Disp) : (s.setDisp c x).flash = s.flash := rfl
@[simp] theorem State.setDisp_pbook (s : State) (c : Nat) (x : Disp) : (s.setDisp c x).pbook = s.pbook := rfl
@[simp] theorem State.setDisp_rehearse (s : State) (c : Nat) (x : Disp) : (s.setDisp c x).rehearse = s.rehearse := rfl
@[simp] theorem State.setDisp_mgmt (s : State) (c : Nat) (x : Disp) : (s.setDisp c x).mgmt = s.mgmt := rfl
@[simp] theorem State.setDisp_cams (s : State) (c : Nat) (x : Disp) : (s.setDisp c x).cams = s.cams := rfl
@[simp] theorem State.setDisp_units (s : State) (c : Nat) (x : Disp) : (s.setDisp c x).units = s.units := rfl
@[simp] theorem State.setDisp_digs (s : State) (c : Nat) (x : Disp) : (s.setDisp c x).digs = s.digs := rfl
@[simp] theorem State.setDisp_hashes (s : State) (c : Nat) (x : Disp) : (s.setDisp c x).hashes = s.hashes := rfl
@[simp] theorem State.setDisp_lsu (s : State) (c : Nat) (x : Disp) : (s.setDisp c x).lsu = s.lsu := rfl
@[simp] theorem State.setDisp_dmas (s : State) (c : Nat) (x : Disp) : (s.setDisp c x).dmas = s.dmas := rfl
@[simp] theorem State.setDisp_camDeltas (s : State) (c : Nat) (x : Disp) : (s.setDisp c x).camDeltas = s.camDeltas := rfl
@[simp] theorem State.setDisp_adminWait (s : State) (c : Nat) (x : Disp) : (s.setDisp c x).adminWait = s.adminWait := rfl
@[simp] theorem State.setDisp_snapExport (s : State) (c : Nat) (x : Disp) : (s.setDisp c x).snapExport = s.snapExport := rfl
@[simp] theorem State.setDisp_evictedExport (s : State) (c : Nat) (x : Disp) : (s.setDisp c x).evictedExport = s.evictedExport := rfl
@[simp] theorem State.setDisp_dupKept (s : State) (c : Nat) (x : Disp) : (s.setDisp c x).dupKept = s.dupKept := rfl
@[simp] theorem State.setDisp_changeSeq (s : State) (c : Nat) (x : Disp) : (s.setDisp c x).changeSeq = s.changeSeq := rfl
@[simp] theorem State.setDisp_wings (s : State) (c : Nat) (x : Disp) : (s.setDisp c x).wings = s.wings := rfl
@[simp] theorem State.setDisp_company (s : State) (c : Nat) (x : Disp) : (s.setDisp c x).company = s.company := rfl

/-! ## setCic -/

@[simp] theorem State.setCic_pending (s : State) (c : Nat) (x : Cic) : (s.setCic c x).pending = s.pending := rfl
@[simp] theorem State.setCic_fresh (s : State) (c : Nat) (x : Cic) : (s.setCic c x).fresh = s.fresh := rfl
@[simp] theorem State.setCic_stamp (s : State) (c : Nat) (x : Cic) : (s.setCic c x).stamp = s.stamp := rfl
@[simp] theorem State.setCic_beat (s : State) (c : Nat) (x : Cic) : (s.setCic c x).beat = s.beat := rfl
@[simp] theorem State.setCic_build (s : State) (c : Nat) (x : Cic) : (s.setCic c x).build = s.build := rfl
@[simp] theorem State.setCic_mdl (s : State) (c : Nat) (x : Cic) : (s.setCic c x).mdl = s.mdl := rfl
@[simp] theorem State.setCic_regs (s : State) (c : Nat) (x : Cic) : (s.setCic c x).regs = s.regs := rfl
@[simp] theorem State.setCic_wide (s : State) (c : Nat) (x : Cic) : (s.setCic c x).wide = s.wide := rfl
@[simp] theorem State.setCic_mem (s : State) (c : Nat) (x : Cic) : (s.setCic c x).mem = s.mem := rfl
@[simp] theorem State.setCic_host (s : State) (c : Nat) (x : Cic) : (s.setCic c x).host = s.host := rfl
@[simp] theorem State.setCic_cores (s : State) (c : Nat) (x : Cic) : (s.setCic c x).cores = s.cores := rfl
@[simp] theorem State.setCic_irtr (s : State) (c : Nat) (x : Cic) : (s.setCic c x).irtr = s.irtr := rfl
@[simp] theorem State.setCic_memcs (s : State) (c : Nat) (x : Cic) : (s.setCic c x).memcs = s.memcs := rfl
@[simp] theorem State.setCic_hep (s : State) (c : Nat) (x : Cic) : (s.setCic c x).hep = s.hep := rfl
@[simp] theorem State.setCic_tables (s : State) (c : Nat) (x : Cic) : (s.setCic c x).tables = s.tables := rfl
@[simp] theorem State.setCic_detached (s : State) (c : Nat) (x : Cic) : (s.setCic c x).detached = s.detached := rfl
@[simp] theorem State.setCic_strike (s : State) (c : Nat) (x : Cic) : (s.setCic c x).strike = s.strike := rfl
@[simp] theorem State.setCic_pipes (s : State) (c : Nat) (x : Cic) : (s.setCic c x).pipes = s.pipes := rfl
@[simp] theorem State.setCic_jobs (s : State) (c : Nat) (x : Cic) : (s.setCic c x).jobs = s.jobs := rfl
@[simp] theorem State.setCic_jobSeq (s : State) (c : Nat) (x : Cic) : (s.setCic c x).jobSeq = s.jobSeq := rfl
@[simp] theorem State.setCic_qpairs (s : State) (c : Nat) (x : Cic) : (s.setCic c x).qpairs = s.qpairs := rfl
@[simp] theorem State.setCic_journal (s : State) (c : Nat) (x : Cic) : (s.setCic c x).journal = s.journal := rfl
@[simp] theorem State.setCic_exports (s : State) (c : Nat) (x : Cic) : (s.setCic c x).exports = s.exports := rfl
@[simp] theorem State.setCic_journalCodec (s : State) (c : Nat) (x : Cic) : (s.setCic c x).journalCodec = s.journalCodec := rfl
@[simp] theorem State.setCic_poolGib (s : State) (c : Nat) (x : Cic) : (s.setCic c x).poolGib = s.poolGib := rfl
@[simp] theorem State.setCic_adminBacklog (s : State) (c : Nat) (x : Cic) : (s.setCic c x).adminBacklog = s.adminBacklog := rfl
@[simp] theorem State.setCic_cue (s : State) (c : Nat) (x : Cic) : (s.setCic c x).cue = s.cue := rfl
@[simp] theorem State.setCic_dup (s : State) (c : Nat) (x : Cic) : (s.setCic c x).dup = s.dup := rfl
@[simp] theorem State.setCic_keys (s : State) (c : Nat) (x : Cic) : (s.setCic c x).keys = s.keys := rfl
@[simp] theorem State.setCic_flash (s : State) (c : Nat) (x : Cic) : (s.setCic c x).flash = s.flash := rfl
@[simp] theorem State.setCic_pbook (s : State) (c : Nat) (x : Cic) : (s.setCic c x).pbook = s.pbook := rfl
@[simp] theorem State.setCic_rehearse (s : State) (c : Nat) (x : Cic) : (s.setCic c x).rehearse = s.rehearse := rfl
@[simp] theorem State.setCic_mgmt (s : State) (c : Nat) (x : Cic) : (s.setCic c x).mgmt = s.mgmt := rfl
@[simp] theorem State.setCic_cams (s : State) (c : Nat) (x : Cic) : (s.setCic c x).cams = s.cams := rfl
@[simp] theorem State.setCic_units (s : State) (c : Nat) (x : Cic) : (s.setCic c x).units = s.units := rfl
@[simp] theorem State.setCic_digs (s : State) (c : Nat) (x : Cic) : (s.setCic c x).digs = s.digs := rfl
@[simp] theorem State.setCic_hashes (s : State) (c : Nat) (x : Cic) : (s.setCic c x).hashes = s.hashes := rfl
@[simp] theorem State.setCic_lsu (s : State) (c : Nat) (x : Cic) : (s.setCic c x).lsu = s.lsu := rfl
@[simp] theorem State.setCic_dmas (s : State) (c : Nat) (x : Cic) : (s.setCic c x).dmas = s.dmas := rfl
@[simp] theorem State.setCic_camDeltas (s : State) (c : Nat) (x : Cic) : (s.setCic c x).camDeltas = s.camDeltas := rfl
@[simp] theorem State.setCic_adminWait (s : State) (c : Nat) (x : Cic) : (s.setCic c x).adminWait = s.adminWait := rfl
@[simp] theorem State.setCic_snapExport (s : State) (c : Nat) (x : Cic) : (s.setCic c x).snapExport = s.snapExport := rfl
@[simp] theorem State.setCic_evictedExport (s : State) (c : Nat) (x : Cic) : (s.setCic c x).evictedExport = s.evictedExport := rfl
@[simp] theorem State.setCic_dupKept (s : State) (c : Nat) (x : Cic) : (s.setCic c x).dupKept = s.dupKept := rfl
@[simp] theorem State.setCic_changeSeq (s : State) (c : Nat) (x : Cic) : (s.setCic c x).changeSeq = s.changeSeq := rfl
@[simp] theorem State.setCic_wings (s : State) (c : Nat) (x : Cic) : (s.setCic c x).wings = s.wings := rfl
@[simp] theorem State.setCic_company (s : State) (c : Nat) (x : Cic) : (s.setCic c x).company = s.company := rfl

/-! ## setCoreAt -/

@[simp] theorem State.setCoreAt_pending (s : State) (k : Nat) (x : Core) : (s.setCoreAt k x).pending = s.pending := rfl
@[simp] theorem State.setCoreAt_fresh (s : State) (k : Nat) (x : Core) : (s.setCoreAt k x).fresh = s.fresh := rfl
@[simp] theorem State.setCoreAt_stamp (s : State) (k : Nat) (x : Core) : (s.setCoreAt k x).stamp = s.stamp := rfl
@[simp] theorem State.setCoreAt_beat (s : State) (k : Nat) (x : Core) : (s.setCoreAt k x).beat = s.beat := rfl
@[simp] theorem State.setCoreAt_build (s : State) (k : Nat) (x : Core) : (s.setCoreAt k x).build = s.build := rfl
@[simp] theorem State.setCoreAt_mdl (s : State) (k : Nat) (x : Core) : (s.setCoreAt k x).mdl = s.mdl := rfl
@[simp] theorem State.setCoreAt_regs (s : State) (k : Nat) (x : Core) : (s.setCoreAt k x).regs = s.regs := rfl
@[simp] theorem State.setCoreAt_wide (s : State) (k : Nat) (x : Core) : (s.setCoreAt k x).wide = s.wide := rfl
@[simp] theorem State.setCoreAt_mem (s : State) (k : Nat) (x : Core) : (s.setCoreAt k x).mem = s.mem := rfl
@[simp] theorem State.setCoreAt_host (s : State) (k : Nat) (x : Core) : (s.setCoreAt k x).host = s.host := rfl
@[simp] theorem State.setCoreAt_clusters (s : State) (k : Nat) (x : Core) : (s.setCoreAt k x).clusters = s.clusters := rfl
@[simp] theorem State.setCoreAt_irtr (s : State) (k : Nat) (x : Core) : (s.setCoreAt k x).irtr = s.irtr := rfl
@[simp] theorem State.setCoreAt_memcs (s : State) (k : Nat) (x : Core) : (s.setCoreAt k x).memcs = s.memcs := rfl
@[simp] theorem State.setCoreAt_hep (s : State) (k : Nat) (x : Core) : (s.setCoreAt k x).hep = s.hep := rfl
@[simp] theorem State.setCoreAt_tables (s : State) (k : Nat) (x : Core) : (s.setCoreAt k x).tables = s.tables := rfl
@[simp] theorem State.setCoreAt_detached (s : State) (k : Nat) (x : Core) : (s.setCoreAt k x).detached = s.detached := rfl
@[simp] theorem State.setCoreAt_strike (s : State) (k : Nat) (x : Core) : (s.setCoreAt k x).strike = s.strike := rfl
@[simp] theorem State.setCoreAt_pipes (s : State) (k : Nat) (x : Core) : (s.setCoreAt k x).pipes = s.pipes := rfl
@[simp] theorem State.setCoreAt_jobs (s : State) (k : Nat) (x : Core) : (s.setCoreAt k x).jobs = s.jobs := rfl
@[simp] theorem State.setCoreAt_jobSeq (s : State) (k : Nat) (x : Core) : (s.setCoreAt k x).jobSeq = s.jobSeq := rfl
@[simp] theorem State.setCoreAt_qpairs (s : State) (k : Nat) (x : Core) : (s.setCoreAt k x).qpairs = s.qpairs := rfl
@[simp] theorem State.setCoreAt_journal (s : State) (k : Nat) (x : Core) : (s.setCoreAt k x).journal = s.journal := rfl
@[simp] theorem State.setCoreAt_exports (s : State) (k : Nat) (x : Core) : (s.setCoreAt k x).exports = s.exports := rfl
@[simp] theorem State.setCoreAt_journalCodec (s : State) (k : Nat) (x : Core) : (s.setCoreAt k x).journalCodec = s.journalCodec := rfl
@[simp] theorem State.setCoreAt_poolGib (s : State) (k : Nat) (x : Core) : (s.setCoreAt k x).poolGib = s.poolGib := rfl
@[simp] theorem State.setCoreAt_adminBacklog (s : State) (k : Nat) (x : Core) : (s.setCoreAt k x).adminBacklog = s.adminBacklog := rfl
@[simp] theorem State.setCoreAt_cue (s : State) (k : Nat) (x : Core) : (s.setCoreAt k x).cue = s.cue := rfl
@[simp] theorem State.setCoreAt_dup (s : State) (k : Nat) (x : Core) : (s.setCoreAt k x).dup = s.dup := rfl
@[simp] theorem State.setCoreAt_keys (s : State) (k : Nat) (x : Core) : (s.setCoreAt k x).keys = s.keys := rfl
@[simp] theorem State.setCoreAt_flash (s : State) (k : Nat) (x : Core) : (s.setCoreAt k x).flash = s.flash := rfl
@[simp] theorem State.setCoreAt_pbook (s : State) (k : Nat) (x : Core) : (s.setCoreAt k x).pbook = s.pbook := rfl
@[simp] theorem State.setCoreAt_rehearse (s : State) (k : Nat) (x : Core) : (s.setCoreAt k x).rehearse = s.rehearse := rfl
@[simp] theorem State.setCoreAt_mgmt (s : State) (k : Nat) (x : Core) : (s.setCoreAt k x).mgmt = s.mgmt := rfl
@[simp] theorem State.setCoreAt_cams (s : State) (k : Nat) (x : Core) : (s.setCoreAt k x).cams = s.cams := rfl
@[simp] theorem State.setCoreAt_units (s : State) (k : Nat) (x : Core) : (s.setCoreAt k x).units = s.units := rfl
@[simp] theorem State.setCoreAt_digs (s : State) (k : Nat) (x : Core) : (s.setCoreAt k x).digs = s.digs := rfl
@[simp] theorem State.setCoreAt_hashes (s : State) (k : Nat) (x : Core) : (s.setCoreAt k x).hashes = s.hashes := rfl
@[simp] theorem State.setCoreAt_lsu (s : State) (k : Nat) (x : Core) : (s.setCoreAt k x).lsu = s.lsu := rfl
@[simp] theorem State.setCoreAt_dmas (s : State) (k : Nat) (x : Core) : (s.setCoreAt k x).dmas = s.dmas := rfl
@[simp] theorem State.setCoreAt_camDeltas (s : State) (k : Nat) (x : Core) : (s.setCoreAt k x).camDeltas = s.camDeltas := rfl
@[simp] theorem State.setCoreAt_adminWait (s : State) (k : Nat) (x : Core) : (s.setCoreAt k x).adminWait = s.adminWait := rfl
@[simp] theorem State.setCoreAt_snapExport (s : State) (k : Nat) (x : Core) : (s.setCoreAt k x).snapExport = s.snapExport := rfl
@[simp] theorem State.setCoreAt_evictedExport (s : State) (k : Nat) (x : Core) : (s.setCoreAt k x).evictedExport = s.evictedExport := rfl
@[simp] theorem State.setCoreAt_dupKept (s : State) (k : Nat) (x : Core) : (s.setCoreAt k x).dupKept = s.dupKept := rfl
@[simp] theorem State.setCoreAt_changeSeq (s : State) (k : Nat) (x : Core) : (s.setCoreAt k x).changeSeq = s.changeSeq := rfl
@[simp] theorem State.setCoreAt_wings (s : State) (k : Nat) (x : Core) : (s.setCoreAt k x).wings = s.wings := rfl
@[simp] theorem State.setCoreAt_company (s : State) (k : Nat) (x : Core) : (s.setCoreAt k x).company = s.company := rfl

/-! ## setCore -/

@[simp] theorem State.setCore_pending (s : State) (w : CoreRef) (x : Core) : (s.setCore w x).pending = s.pending := rfl
@[simp] theorem State.setCore_fresh (s : State) (w : CoreRef) (x : Core) : (s.setCore w x).fresh = s.fresh := rfl
@[simp] theorem State.setCore_stamp (s : State) (w : CoreRef) (x : Core) : (s.setCore w x).stamp = s.stamp := rfl
@[simp] theorem State.setCore_beat (s : State) (w : CoreRef) (x : Core) : (s.setCore w x).beat = s.beat := rfl
@[simp] theorem State.setCore_build (s : State) (w : CoreRef) (x : Core) : (s.setCore w x).build = s.build := rfl
@[simp] theorem State.setCore_mdl (s : State) (w : CoreRef) (x : Core) : (s.setCore w x).mdl = s.mdl := rfl
@[simp] theorem State.setCore_regs (s : State) (w : CoreRef) (x : Core) : (s.setCore w x).regs = s.regs := rfl
@[simp] theorem State.setCore_wide (s : State) (w : CoreRef) (x : Core) : (s.setCore w x).wide = s.wide := rfl
@[simp] theorem State.setCore_mem (s : State) (w : CoreRef) (x : Core) : (s.setCore w x).mem = s.mem := rfl
@[simp] theorem State.setCore_host (s : State) (w : CoreRef) (x : Core) : (s.setCore w x).host = s.host := rfl
@[simp] theorem State.setCore_clusters (s : State) (w : CoreRef) (x : Core) : (s.setCore w x).clusters = s.clusters := rfl
@[simp] theorem State.setCore_irtr (s : State) (w : CoreRef) (x : Core) : (s.setCore w x).irtr = s.irtr := rfl
@[simp] theorem State.setCore_memcs (s : State) (w : CoreRef) (x : Core) : (s.setCore w x).memcs = s.memcs := rfl
@[simp] theorem State.setCore_hep (s : State) (w : CoreRef) (x : Core) : (s.setCore w x).hep = s.hep := rfl
@[simp] theorem State.setCore_tables (s : State) (w : CoreRef) (x : Core) : (s.setCore w x).tables = s.tables := rfl
@[simp] theorem State.setCore_detached (s : State) (w : CoreRef) (x : Core) : (s.setCore w x).detached = s.detached := rfl
@[simp] theorem State.setCore_strike (s : State) (w : CoreRef) (x : Core) : (s.setCore w x).strike = s.strike := rfl
@[simp] theorem State.setCore_pipes (s : State) (w : CoreRef) (x : Core) : (s.setCore w x).pipes = s.pipes := rfl
@[simp] theorem State.setCore_jobs (s : State) (w : CoreRef) (x : Core) : (s.setCore w x).jobs = s.jobs := rfl
@[simp] theorem State.setCore_jobSeq (s : State) (w : CoreRef) (x : Core) : (s.setCore w x).jobSeq = s.jobSeq := rfl
@[simp] theorem State.setCore_qpairs (s : State) (w : CoreRef) (x : Core) : (s.setCore w x).qpairs = s.qpairs := rfl
@[simp] theorem State.setCore_journal (s : State) (w : CoreRef) (x : Core) : (s.setCore w x).journal = s.journal := rfl
@[simp] theorem State.setCore_exports (s : State) (w : CoreRef) (x : Core) : (s.setCore w x).exports = s.exports := rfl
@[simp] theorem State.setCore_journalCodec (s : State) (w : CoreRef) (x : Core) : (s.setCore w x).journalCodec = s.journalCodec := rfl
@[simp] theorem State.setCore_poolGib (s : State) (w : CoreRef) (x : Core) : (s.setCore w x).poolGib = s.poolGib := rfl
@[simp] theorem State.setCore_adminBacklog (s : State) (w : CoreRef) (x : Core) : (s.setCore w x).adminBacklog = s.adminBacklog := rfl
@[simp] theorem State.setCore_cue (s : State) (w : CoreRef) (x : Core) : (s.setCore w x).cue = s.cue := rfl
@[simp] theorem State.setCore_dup (s : State) (w : CoreRef) (x : Core) : (s.setCore w x).dup = s.dup := rfl
@[simp] theorem State.setCore_keys (s : State) (w : CoreRef) (x : Core) : (s.setCore w x).keys = s.keys := rfl
@[simp] theorem State.setCore_flash (s : State) (w : CoreRef) (x : Core) : (s.setCore w x).flash = s.flash := rfl
@[simp] theorem State.setCore_pbook (s : State) (w : CoreRef) (x : Core) : (s.setCore w x).pbook = s.pbook := rfl
@[simp] theorem State.setCore_rehearse (s : State) (w : CoreRef) (x : Core) : (s.setCore w x).rehearse = s.rehearse := rfl
@[simp] theorem State.setCore_mgmt (s : State) (w : CoreRef) (x : Core) : (s.setCore w x).mgmt = s.mgmt := rfl
@[simp] theorem State.setCore_cams (s : State) (w : CoreRef) (x : Core) : (s.setCore w x).cams = s.cams := rfl
@[simp] theorem State.setCore_units (s : State) (w : CoreRef) (x : Core) : (s.setCore w x).units = s.units := rfl
@[simp] theorem State.setCore_digs (s : State) (w : CoreRef) (x : Core) : (s.setCore w x).digs = s.digs := rfl
@[simp] theorem State.setCore_hashes (s : State) (w : CoreRef) (x : Core) : (s.setCore w x).hashes = s.hashes := rfl
@[simp] theorem State.setCore_lsu (s : State) (w : CoreRef) (x : Core) : (s.setCore w x).lsu = s.lsu := rfl
@[simp] theorem State.setCore_dmas (s : State) (w : CoreRef) (x : Core) : (s.setCore w x).dmas = s.dmas := rfl
@[simp] theorem State.setCore_camDeltas (s : State) (w : CoreRef) (x : Core) : (s.setCore w x).camDeltas = s.camDeltas := rfl
@[simp] theorem State.setCore_adminWait (s : State) (w : CoreRef) (x : Core) : (s.setCore w x).adminWait = s.adminWait := rfl
@[simp] theorem State.setCore_snapExport (s : State) (w : CoreRef) (x : Core) : (s.setCore w x).snapExport = s.snapExport := rfl
@[simp] theorem State.setCore_evictedExport (s : State) (w : CoreRef) (x : Core) : (s.setCore w x).evictedExport = s.evictedExport := rfl
@[simp] theorem State.setCore_dupKept (s : State) (w : CoreRef) (x : Core) : (s.setCore w x).dupKept = s.dupKept := rfl
@[simp] theorem State.setCore_changeSeq (s : State) (w : CoreRef) (x : Core) : (s.setCore w x).changeSeq = s.changeSeq := rfl
@[simp] theorem State.setCore_wings (s : State) (w : CoreRef) (x : Core) : (s.setCore w x).wings = s.wings := rfl
@[simp] theorem State.setCore_company (s : State) (w : CoreRef) (x : Core) : (s.setCore w x).company = s.company := rfl

/-! ## setMemc -/

@[simp] theorem State.setMemc_pending (s : State) (m : Nat) (x : Memc) : (s.setMemc m x).pending = s.pending := rfl
@[simp] theorem State.setMemc_fresh (s : State) (m : Nat) (x : Memc) : (s.setMemc m x).fresh = s.fresh := rfl
@[simp] theorem State.setMemc_stamp (s : State) (m : Nat) (x : Memc) : (s.setMemc m x).stamp = s.stamp := rfl
@[simp] theorem State.setMemc_beat (s : State) (m : Nat) (x : Memc) : (s.setMemc m x).beat = s.beat := rfl
@[simp] theorem State.setMemc_build (s : State) (m : Nat) (x : Memc) : (s.setMemc m x).build = s.build := rfl
@[simp] theorem State.setMemc_mdl (s : State) (m : Nat) (x : Memc) : (s.setMemc m x).mdl = s.mdl := rfl
@[simp] theorem State.setMemc_regs (s : State) (m : Nat) (x : Memc) : (s.setMemc m x).regs = s.regs := rfl
@[simp] theorem State.setMemc_wide (s : State) (m : Nat) (x : Memc) : (s.setMemc m x).wide = s.wide := rfl
@[simp] theorem State.setMemc_mem (s : State) (m : Nat) (x : Memc) : (s.setMemc m x).mem = s.mem := rfl
@[simp] theorem State.setMemc_host (s : State) (m : Nat) (x : Memc) : (s.setMemc m x).host = s.host := rfl
@[simp] theorem State.setMemc_cores (s : State) (m : Nat) (x : Memc) : (s.setMemc m x).cores = s.cores := rfl
@[simp] theorem State.setMemc_clusters (s : State) (m : Nat) (x : Memc) : (s.setMemc m x).clusters = s.clusters := rfl
@[simp] theorem State.setMemc_irtr (s : State) (m : Nat) (x : Memc) : (s.setMemc m x).irtr = s.irtr := rfl
@[simp] theorem State.setMemc_hep (s : State) (m : Nat) (x : Memc) : (s.setMemc m x).hep = s.hep := rfl
@[simp] theorem State.setMemc_tables (s : State) (m : Nat) (x : Memc) : (s.setMemc m x).tables = s.tables := rfl
@[simp] theorem State.setMemc_detached (s : State) (m : Nat) (x : Memc) : (s.setMemc m x).detached = s.detached := rfl
@[simp] theorem State.setMemc_strike (s : State) (m : Nat) (x : Memc) : (s.setMemc m x).strike = s.strike := rfl
@[simp] theorem State.setMemc_pipes (s : State) (m : Nat) (x : Memc) : (s.setMemc m x).pipes = s.pipes := rfl
@[simp] theorem State.setMemc_jobs (s : State) (m : Nat) (x : Memc) : (s.setMemc m x).jobs = s.jobs := rfl
@[simp] theorem State.setMemc_jobSeq (s : State) (m : Nat) (x : Memc) : (s.setMemc m x).jobSeq = s.jobSeq := rfl
@[simp] theorem State.setMemc_qpairs (s : State) (m : Nat) (x : Memc) : (s.setMemc m x).qpairs = s.qpairs := rfl
@[simp] theorem State.setMemc_journal (s : State) (m : Nat) (x : Memc) : (s.setMemc m x).journal = s.journal := rfl
@[simp] theorem State.setMemc_exports (s : State) (m : Nat) (x : Memc) : (s.setMemc m x).exports = s.exports := rfl
@[simp] theorem State.setMemc_journalCodec (s : State) (m : Nat) (x : Memc) : (s.setMemc m x).journalCodec = s.journalCodec := rfl
@[simp] theorem State.setMemc_poolGib (s : State) (m : Nat) (x : Memc) : (s.setMemc m x).poolGib = s.poolGib := rfl
@[simp] theorem State.setMemc_adminBacklog (s : State) (m : Nat) (x : Memc) : (s.setMemc m x).adminBacklog = s.adminBacklog := rfl
@[simp] theorem State.setMemc_cue (s : State) (m : Nat) (x : Memc) : (s.setMemc m x).cue = s.cue := rfl
@[simp] theorem State.setMemc_dup (s : State) (m : Nat) (x : Memc) : (s.setMemc m x).dup = s.dup := rfl
@[simp] theorem State.setMemc_keys (s : State) (m : Nat) (x : Memc) : (s.setMemc m x).keys = s.keys := rfl
@[simp] theorem State.setMemc_flash (s : State) (m : Nat) (x : Memc) : (s.setMemc m x).flash = s.flash := rfl
@[simp] theorem State.setMemc_pbook (s : State) (m : Nat) (x : Memc) : (s.setMemc m x).pbook = s.pbook := rfl
@[simp] theorem State.setMemc_rehearse (s : State) (m : Nat) (x : Memc) : (s.setMemc m x).rehearse = s.rehearse := rfl
@[simp] theorem State.setMemc_mgmt (s : State) (m : Nat) (x : Memc) : (s.setMemc m x).mgmt = s.mgmt := rfl
@[simp] theorem State.setMemc_cams (s : State) (m : Nat) (x : Memc) : (s.setMemc m x).cams = s.cams := rfl
@[simp] theorem State.setMemc_units (s : State) (m : Nat) (x : Memc) : (s.setMemc m x).units = s.units := rfl
@[simp] theorem State.setMemc_digs (s : State) (m : Nat) (x : Memc) : (s.setMemc m x).digs = s.digs := rfl
@[simp] theorem State.setMemc_hashes (s : State) (m : Nat) (x : Memc) : (s.setMemc m x).hashes = s.hashes := rfl
@[simp] theorem State.setMemc_lsu (s : State) (m : Nat) (x : Memc) : (s.setMemc m x).lsu = s.lsu := rfl
@[simp] theorem State.setMemc_dmas (s : State) (m : Nat) (x : Memc) : (s.setMemc m x).dmas = s.dmas := rfl
@[simp] theorem State.setMemc_camDeltas (s : State) (m : Nat) (x : Memc) : (s.setMemc m x).camDeltas = s.camDeltas := rfl
@[simp] theorem State.setMemc_adminWait (s : State) (m : Nat) (x : Memc) : (s.setMemc m x).adminWait = s.adminWait := rfl
@[simp] theorem State.setMemc_snapExport (s : State) (m : Nat) (x : Memc) : (s.setMemc m x).snapExport = s.snapExport := rfl
@[simp] theorem State.setMemc_evictedExport (s : State) (m : Nat) (x : Memc) : (s.setMemc m x).evictedExport = s.evictedExport := rfl
@[simp] theorem State.setMemc_dupKept (s : State) (m : Nat) (x : Memc) : (s.setMemc m x).dupKept = s.dupKept := rfl
@[simp] theorem State.setMemc_changeSeq (s : State) (m : Nat) (x : Memc) : (s.setMemc m x).changeSeq = s.changeSeq := rfl
@[simp] theorem State.setMemc_wings (s : State) (m : Nat) (x : Memc) : (s.setMemc m x).wings = s.wings := rfl
@[simp] theorem State.setMemc_company (s : State) (m : Nat) (x : Memc) : (s.setMemc m x).company = s.company := rfl

/-! ## setUnit -/

@[simp] theorem State.setUnit_pending (s : State) (page : Nat) (x : UnitQ) : (s.setUnit page x).pending = s.pending := rfl
@[simp] theorem State.setUnit_fresh (s : State) (page : Nat) (x : UnitQ) : (s.setUnit page x).fresh = s.fresh := rfl
@[simp] theorem State.setUnit_stamp (s : State) (page : Nat) (x : UnitQ) : (s.setUnit page x).stamp = s.stamp := rfl
@[simp] theorem State.setUnit_beat (s : State) (page : Nat) (x : UnitQ) : (s.setUnit page x).beat = s.beat := rfl
@[simp] theorem State.setUnit_build (s : State) (page : Nat) (x : UnitQ) : (s.setUnit page x).build = s.build := rfl
@[simp] theorem State.setUnit_mdl (s : State) (page : Nat) (x : UnitQ) : (s.setUnit page x).mdl = s.mdl := rfl
@[simp] theorem State.setUnit_regs (s : State) (page : Nat) (x : UnitQ) : (s.setUnit page x).regs = s.regs := rfl
@[simp] theorem State.setUnit_wide (s : State) (page : Nat) (x : UnitQ) : (s.setUnit page x).wide = s.wide := rfl
@[simp] theorem State.setUnit_mem (s : State) (page : Nat) (x : UnitQ) : (s.setUnit page x).mem = s.mem := rfl
@[simp] theorem State.setUnit_host (s : State) (page : Nat) (x : UnitQ) : (s.setUnit page x).host = s.host := rfl
@[simp] theorem State.setUnit_cores (s : State) (page : Nat) (x : UnitQ) : (s.setUnit page x).cores = s.cores := rfl
@[simp] theorem State.setUnit_clusters (s : State) (page : Nat) (x : UnitQ) : (s.setUnit page x).clusters = s.clusters := rfl
@[simp] theorem State.setUnit_irtr (s : State) (page : Nat) (x : UnitQ) : (s.setUnit page x).irtr = s.irtr := rfl
@[simp] theorem State.setUnit_memcs (s : State) (page : Nat) (x : UnitQ) : (s.setUnit page x).memcs = s.memcs := rfl
@[simp] theorem State.setUnit_hep (s : State) (page : Nat) (x : UnitQ) : (s.setUnit page x).hep = s.hep := rfl
@[simp] theorem State.setUnit_tables (s : State) (page : Nat) (x : UnitQ) : (s.setUnit page x).tables = s.tables := rfl
@[simp] theorem State.setUnit_detached (s : State) (page : Nat) (x : UnitQ) : (s.setUnit page x).detached = s.detached := rfl
@[simp] theorem State.setUnit_strike (s : State) (page : Nat) (x : UnitQ) : (s.setUnit page x).strike = s.strike := rfl
@[simp] theorem State.setUnit_pipes (s : State) (page : Nat) (x : UnitQ) : (s.setUnit page x).pipes = s.pipes := rfl
@[simp] theorem State.setUnit_jobs (s : State) (page : Nat) (x : UnitQ) : (s.setUnit page x).jobs = s.jobs := rfl
@[simp] theorem State.setUnit_jobSeq (s : State) (page : Nat) (x : UnitQ) : (s.setUnit page x).jobSeq = s.jobSeq := rfl
@[simp] theorem State.setUnit_qpairs (s : State) (page : Nat) (x : UnitQ) : (s.setUnit page x).qpairs = s.qpairs := rfl
@[simp] theorem State.setUnit_journal (s : State) (page : Nat) (x : UnitQ) : (s.setUnit page x).journal = s.journal := rfl
@[simp] theorem State.setUnit_exports (s : State) (page : Nat) (x : UnitQ) : (s.setUnit page x).exports = s.exports := rfl
@[simp] theorem State.setUnit_journalCodec (s : State) (page : Nat) (x : UnitQ) : (s.setUnit page x).journalCodec = s.journalCodec := rfl
@[simp] theorem State.setUnit_poolGib (s : State) (page : Nat) (x : UnitQ) : (s.setUnit page x).poolGib = s.poolGib := rfl
@[simp] theorem State.setUnit_adminBacklog (s : State) (page : Nat) (x : UnitQ) : (s.setUnit page x).adminBacklog = s.adminBacklog := rfl
@[simp] theorem State.setUnit_cue (s : State) (page : Nat) (x : UnitQ) : (s.setUnit page x).cue = s.cue := rfl
@[simp] theorem State.setUnit_dup (s : State) (page : Nat) (x : UnitQ) : (s.setUnit page x).dup = s.dup := rfl
@[simp] theorem State.setUnit_keys (s : State) (page : Nat) (x : UnitQ) : (s.setUnit page x).keys = s.keys := rfl
@[simp] theorem State.setUnit_flash (s : State) (page : Nat) (x : UnitQ) : (s.setUnit page x).flash = s.flash := rfl
@[simp] theorem State.setUnit_pbook (s : State) (page : Nat) (x : UnitQ) : (s.setUnit page x).pbook = s.pbook := rfl
@[simp] theorem State.setUnit_rehearse (s : State) (page : Nat) (x : UnitQ) : (s.setUnit page x).rehearse = s.rehearse := rfl
@[simp] theorem State.setUnit_mgmt (s : State) (page : Nat) (x : UnitQ) : (s.setUnit page x).mgmt = s.mgmt := rfl
@[simp] theorem State.setUnit_cams (s : State) (page : Nat) (x : UnitQ) : (s.setUnit page x).cams = s.cams := rfl
@[simp] theorem State.setUnit_digs (s : State) (page : Nat) (x : UnitQ) : (s.setUnit page x).digs = s.digs := rfl
@[simp] theorem State.setUnit_hashes (s : State) (page : Nat) (x : UnitQ) : (s.setUnit page x).hashes = s.hashes := rfl
@[simp] theorem State.setUnit_lsu (s : State) (page : Nat) (x : UnitQ) : (s.setUnit page x).lsu = s.lsu := rfl
@[simp] theorem State.setUnit_dmas (s : State) (page : Nat) (x : UnitQ) : (s.setUnit page x).dmas = s.dmas := rfl
@[simp] theorem State.setUnit_camDeltas (s : State) (page : Nat) (x : UnitQ) : (s.setUnit page x).camDeltas = s.camDeltas := rfl
@[simp] theorem State.setUnit_adminWait (s : State) (page : Nat) (x : UnitQ) : (s.setUnit page x).adminWait = s.adminWait := rfl
@[simp] theorem State.setUnit_snapExport (s : State) (page : Nat) (x : UnitQ) : (s.setUnit page x).snapExport = s.snapExport := rfl
@[simp] theorem State.setUnit_evictedExport (s : State) (page : Nat) (x : UnitQ) : (s.setUnit page x).evictedExport = s.evictedExport := rfl
@[simp] theorem State.setUnit_dupKept (s : State) (page : Nat) (x : UnitQ) : (s.setUnit page x).dupKept = s.dupKept := rfl
@[simp] theorem State.setUnit_changeSeq (s : State) (page : Nat) (x : UnitQ) : (s.setUnit page x).changeSeq = s.changeSeq := rfl
@[simp] theorem State.setUnit_wings (s : State) (page : Nat) (x : UnitQ) : (s.setUnit page x).wings = s.wings := rfl
@[simp] theorem State.setUnit_company (s : State) (page : Nat) (x : UnitQ) : (s.setUnit page x).company = s.company := rfl

/-! ## setDig -/

@[simp] theorem State.setDig_pending (s : State) (page : Nat) (x : DigUnit) : (s.setDig page x).pending = s.pending := rfl
@[simp] theorem State.setDig_fresh (s : State) (page : Nat) (x : DigUnit) : (s.setDig page x).fresh = s.fresh := rfl
@[simp] theorem State.setDig_stamp (s : State) (page : Nat) (x : DigUnit) : (s.setDig page x).stamp = s.stamp := rfl
@[simp] theorem State.setDig_beat (s : State) (page : Nat) (x : DigUnit) : (s.setDig page x).beat = s.beat := rfl
@[simp] theorem State.setDig_build (s : State) (page : Nat) (x : DigUnit) : (s.setDig page x).build = s.build := rfl
@[simp] theorem State.setDig_mdl (s : State) (page : Nat) (x : DigUnit) : (s.setDig page x).mdl = s.mdl := rfl
@[simp] theorem State.setDig_regs (s : State) (page : Nat) (x : DigUnit) : (s.setDig page x).regs = s.regs := rfl
@[simp] theorem State.setDig_wide (s : State) (page : Nat) (x : DigUnit) : (s.setDig page x).wide = s.wide := rfl
@[simp] theorem State.setDig_mem (s : State) (page : Nat) (x : DigUnit) : (s.setDig page x).mem = s.mem := rfl
@[simp] theorem State.setDig_host (s : State) (page : Nat) (x : DigUnit) : (s.setDig page x).host = s.host := rfl
@[simp] theorem State.setDig_cores (s : State) (page : Nat) (x : DigUnit) : (s.setDig page x).cores = s.cores := rfl
@[simp] theorem State.setDig_clusters (s : State) (page : Nat) (x : DigUnit) : (s.setDig page x).clusters = s.clusters := rfl
@[simp] theorem State.setDig_irtr (s : State) (page : Nat) (x : DigUnit) : (s.setDig page x).irtr = s.irtr := rfl
@[simp] theorem State.setDig_memcs (s : State) (page : Nat) (x : DigUnit) : (s.setDig page x).memcs = s.memcs := rfl
@[simp] theorem State.setDig_hep (s : State) (page : Nat) (x : DigUnit) : (s.setDig page x).hep = s.hep := rfl
@[simp] theorem State.setDig_tables (s : State) (page : Nat) (x : DigUnit) : (s.setDig page x).tables = s.tables := rfl
@[simp] theorem State.setDig_detached (s : State) (page : Nat) (x : DigUnit) : (s.setDig page x).detached = s.detached := rfl
@[simp] theorem State.setDig_strike (s : State) (page : Nat) (x : DigUnit) : (s.setDig page x).strike = s.strike := rfl
@[simp] theorem State.setDig_pipes (s : State) (page : Nat) (x : DigUnit) : (s.setDig page x).pipes = s.pipes := rfl
@[simp] theorem State.setDig_jobs (s : State) (page : Nat) (x : DigUnit) : (s.setDig page x).jobs = s.jobs := rfl
@[simp] theorem State.setDig_jobSeq (s : State) (page : Nat) (x : DigUnit) : (s.setDig page x).jobSeq = s.jobSeq := rfl
@[simp] theorem State.setDig_qpairs (s : State) (page : Nat) (x : DigUnit) : (s.setDig page x).qpairs = s.qpairs := rfl
@[simp] theorem State.setDig_journal (s : State) (page : Nat) (x : DigUnit) : (s.setDig page x).journal = s.journal := rfl
@[simp] theorem State.setDig_exports (s : State) (page : Nat) (x : DigUnit) : (s.setDig page x).exports = s.exports := rfl
@[simp] theorem State.setDig_journalCodec (s : State) (page : Nat) (x : DigUnit) : (s.setDig page x).journalCodec = s.journalCodec := rfl
@[simp] theorem State.setDig_poolGib (s : State) (page : Nat) (x : DigUnit) : (s.setDig page x).poolGib = s.poolGib := rfl
@[simp] theorem State.setDig_adminBacklog (s : State) (page : Nat) (x : DigUnit) : (s.setDig page x).adminBacklog = s.adminBacklog := rfl
@[simp] theorem State.setDig_cue (s : State) (page : Nat) (x : DigUnit) : (s.setDig page x).cue = s.cue := rfl
@[simp] theorem State.setDig_dup (s : State) (page : Nat) (x : DigUnit) : (s.setDig page x).dup = s.dup := rfl
@[simp] theorem State.setDig_keys (s : State) (page : Nat) (x : DigUnit) : (s.setDig page x).keys = s.keys := rfl
@[simp] theorem State.setDig_flash (s : State) (page : Nat) (x : DigUnit) : (s.setDig page x).flash = s.flash := rfl
@[simp] theorem State.setDig_pbook (s : State) (page : Nat) (x : DigUnit) : (s.setDig page x).pbook = s.pbook := rfl
@[simp] theorem State.setDig_rehearse (s : State) (page : Nat) (x : DigUnit) : (s.setDig page x).rehearse = s.rehearse := rfl
@[simp] theorem State.setDig_mgmt (s : State) (page : Nat) (x : DigUnit) : (s.setDig page x).mgmt = s.mgmt := rfl
@[simp] theorem State.setDig_cams (s : State) (page : Nat) (x : DigUnit) : (s.setDig page x).cams = s.cams := rfl
@[simp] theorem State.setDig_units (s : State) (page : Nat) (x : DigUnit) : (s.setDig page x).units = s.units := rfl
@[simp] theorem State.setDig_hashes (s : State) (page : Nat) (x : DigUnit) : (s.setDig page x).hashes = s.hashes := rfl
@[simp] theorem State.setDig_lsu (s : State) (page : Nat) (x : DigUnit) : (s.setDig page x).lsu = s.lsu := rfl
@[simp] theorem State.setDig_dmas (s : State) (page : Nat) (x : DigUnit) : (s.setDig page x).dmas = s.dmas := rfl
@[simp] theorem State.setDig_camDeltas (s : State) (page : Nat) (x : DigUnit) : (s.setDig page x).camDeltas = s.camDeltas := rfl
@[simp] theorem State.setDig_adminWait (s : State) (page : Nat) (x : DigUnit) : (s.setDig page x).adminWait = s.adminWait := rfl
@[simp] theorem State.setDig_snapExport (s : State) (page : Nat) (x : DigUnit) : (s.setDig page x).snapExport = s.snapExport := rfl
@[simp] theorem State.setDig_evictedExport (s : State) (page : Nat) (x : DigUnit) : (s.setDig page x).evictedExport = s.evictedExport := rfl
@[simp] theorem State.setDig_dupKept (s : State) (page : Nat) (x : DigUnit) : (s.setDig page x).dupKept = s.dupKept := rfl
@[simp] theorem State.setDig_changeSeq (s : State) (page : Nat) (x : DigUnit) : (s.setDig page x).changeSeq = s.changeSeq := rfl
@[simp] theorem State.setDig_wings (s : State) (page : Nat) (x : DigUnit) : (s.setDig page x).wings = s.wings := rfl
@[simp] theorem State.setDig_company (s : State) (page : Nat) (x : DigUnit) : (s.setDig page x).company = s.company := rfl

/-! ## setCam -/

@[simp] theorem State.setCam_pending (s : State) (a : Nat) (x : Cam) : (s.setCam a x).pending = s.pending := rfl
@[simp] theorem State.setCam_fresh (s : State) (a : Nat) (x : Cam) : (s.setCam a x).fresh = s.fresh := rfl
@[simp] theorem State.setCam_stamp (s : State) (a : Nat) (x : Cam) : (s.setCam a x).stamp = s.stamp := rfl
@[simp] theorem State.setCam_beat (s : State) (a : Nat) (x : Cam) : (s.setCam a x).beat = s.beat := rfl
@[simp] theorem State.setCam_build (s : State) (a : Nat) (x : Cam) : (s.setCam a x).build = s.build := rfl
@[simp] theorem State.setCam_mdl (s : State) (a : Nat) (x : Cam) : (s.setCam a x).mdl = s.mdl := rfl
@[simp] theorem State.setCam_wide (s : State) (a : Nat) (x : Cam) : (s.setCam a x).wide = s.wide := rfl
@[simp] theorem State.setCam_mem (s : State) (a : Nat) (x : Cam) : (s.setCam a x).mem = s.mem := rfl
@[simp] theorem State.setCam_host (s : State) (a : Nat) (x : Cam) : (s.setCam a x).host = s.host := rfl
@[simp] theorem State.setCam_cores (s : State) (a : Nat) (x : Cam) : (s.setCam a x).cores = s.cores := rfl
@[simp] theorem State.setCam_clusters (s : State) (a : Nat) (x : Cam) : (s.setCam a x).clusters = s.clusters := rfl
@[simp] theorem State.setCam_irtr (s : State) (a : Nat) (x : Cam) : (s.setCam a x).irtr = s.irtr := rfl
@[simp] theorem State.setCam_memcs (s : State) (a : Nat) (x : Cam) : (s.setCam a x).memcs = s.memcs := rfl
@[simp] theorem State.setCam_hep (s : State) (a : Nat) (x : Cam) : (s.setCam a x).hep = s.hep := rfl
@[simp] theorem State.setCam_tables (s : State) (a : Nat) (x : Cam) : (s.setCam a x).tables = s.tables := rfl
@[simp] theorem State.setCam_detached (s : State) (a : Nat) (x : Cam) : (s.setCam a x).detached = s.detached := rfl
@[simp] theorem State.setCam_strike (s : State) (a : Nat) (x : Cam) : (s.setCam a x).strike = s.strike := rfl
@[simp] theorem State.setCam_pipes (s : State) (a : Nat) (x : Cam) : (s.setCam a x).pipes = s.pipes := rfl
@[simp] theorem State.setCam_jobs (s : State) (a : Nat) (x : Cam) : (s.setCam a x).jobs = s.jobs := rfl
@[simp] theorem State.setCam_jobSeq (s : State) (a : Nat) (x : Cam) : (s.setCam a x).jobSeq = s.jobSeq := rfl
@[simp] theorem State.setCam_qpairs (s : State) (a : Nat) (x : Cam) : (s.setCam a x).qpairs = s.qpairs := rfl
@[simp] theorem State.setCam_journal (s : State) (a : Nat) (x : Cam) : (s.setCam a x).journal = s.journal := rfl
@[simp] theorem State.setCam_exports (s : State) (a : Nat) (x : Cam) : (s.setCam a x).exports = s.exports := rfl
@[simp] theorem State.setCam_journalCodec (s : State) (a : Nat) (x : Cam) : (s.setCam a x).journalCodec = s.journalCodec := rfl
@[simp] theorem State.setCam_poolGib (s : State) (a : Nat) (x : Cam) : (s.setCam a x).poolGib = s.poolGib := rfl
@[simp] theorem State.setCam_adminBacklog (s : State) (a : Nat) (x : Cam) : (s.setCam a x).adminBacklog = s.adminBacklog := rfl
@[simp] theorem State.setCam_cue (s : State) (a : Nat) (x : Cam) : (s.setCam a x).cue = s.cue := rfl
@[simp] theorem State.setCam_dup (s : State) (a : Nat) (x : Cam) : (s.setCam a x).dup = s.dup := rfl
@[simp] theorem State.setCam_keys (s : State) (a : Nat) (x : Cam) : (s.setCam a x).keys = s.keys := rfl
@[simp] theorem State.setCam_flash (s : State) (a : Nat) (x : Cam) : (s.setCam a x).flash = s.flash := rfl
@[simp] theorem State.setCam_pbook (s : State) (a : Nat) (x : Cam) : (s.setCam a x).pbook = s.pbook := rfl
@[simp] theorem State.setCam_rehearse (s : State) (a : Nat) (x : Cam) : (s.setCam a x).rehearse = s.rehearse := rfl
@[simp] theorem State.setCam_mgmt (s : State) (a : Nat) (x : Cam) : (s.setCam a x).mgmt = s.mgmt := rfl
@[simp] theorem State.setCam_units (s : State) (a : Nat) (x : Cam) : (s.setCam a x).units = s.units := rfl
@[simp] theorem State.setCam_digs (s : State) (a : Nat) (x : Cam) : (s.setCam a x).digs = s.digs := rfl
@[simp] theorem State.setCam_hashes (s : State) (a : Nat) (x : Cam) : (s.setCam a x).hashes = s.hashes := rfl
@[simp] theorem State.setCam_lsu (s : State) (a : Nat) (x : Cam) : (s.setCam a x).lsu = s.lsu := rfl
@[simp] theorem State.setCam_dmas (s : State) (a : Nat) (x : Cam) : (s.setCam a x).dmas = s.dmas := rfl
@[simp] theorem State.setCam_camDeltas (s : State) (a : Nat) (x : Cam) : (s.setCam a x).camDeltas = s.camDeltas := rfl
@[simp] theorem State.setCam_adminWait (s : State) (a : Nat) (x : Cam) : (s.setCam a x).adminWait = s.adminWait := rfl
@[simp] theorem State.setCam_snapExport (s : State) (a : Nat) (x : Cam) : (s.setCam a x).snapExport = s.snapExport := rfl
@[simp] theorem State.setCam_evictedExport (s : State) (a : Nat) (x : Cam) : (s.setCam a x).evictedExport = s.evictedExport := rfl
@[simp] theorem State.setCam_dupKept (s : State) (a : Nat) (x : Cam) : (s.setCam a x).dupKept = s.dupKept := rfl
@[simp] theorem State.setCam_changeSeq (s : State) (a : Nat) (x : Cam) : (s.setCam a x).changeSeq = s.changeSeq := rfl
@[simp] theorem State.setCam_wings (s : State) (a : Nat) (x : Cam) : (s.setCam a x).wings = s.wings := rfl
@[simp] theorem State.setCam_company (s : State) (a : Nat) (x : Cam) : (s.setCam a x).company = s.company := rfl

/-! ## setDma -/

@[simp] theorem State.setDma_pending (s : State) (e : Nat) (x : Dma) : (s.setDma e x).pending = s.pending := rfl
@[simp] theorem State.setDma_fresh (s : State) (e : Nat) (x : Dma) : (s.setDma e x).fresh = s.fresh := rfl
@[simp] theorem State.setDma_stamp (s : State) (e : Nat) (x : Dma) : (s.setDma e x).stamp = s.stamp := rfl
@[simp] theorem State.setDma_beat (s : State) (e : Nat) (x : Dma) : (s.setDma e x).beat = s.beat := rfl
@[simp] theorem State.setDma_build (s : State) (e : Nat) (x : Dma) : (s.setDma e x).build = s.build := rfl
@[simp] theorem State.setDma_mdl (s : State) (e : Nat) (x : Dma) : (s.setDma e x).mdl = s.mdl := rfl
@[simp] theorem State.setDma_regs (s : State) (e : Nat) (x : Dma) : (s.setDma e x).regs = s.regs := rfl
@[simp] theorem State.setDma_wide (s : State) (e : Nat) (x : Dma) : (s.setDma e x).wide = s.wide := rfl
@[simp] theorem State.setDma_mem (s : State) (e : Nat) (x : Dma) : (s.setDma e x).mem = s.mem := rfl
@[simp] theorem State.setDma_host (s : State) (e : Nat) (x : Dma) : (s.setDma e x).host = s.host := rfl
@[simp] theorem State.setDma_cores (s : State) (e : Nat) (x : Dma) : (s.setDma e x).cores = s.cores := rfl
@[simp] theorem State.setDma_clusters (s : State) (e : Nat) (x : Dma) : (s.setDma e x).clusters = s.clusters := rfl
@[simp] theorem State.setDma_irtr (s : State) (e : Nat) (x : Dma) : (s.setDma e x).irtr = s.irtr := rfl
@[simp] theorem State.setDma_memcs (s : State) (e : Nat) (x : Dma) : (s.setDma e x).memcs = s.memcs := rfl
@[simp] theorem State.setDma_hep (s : State) (e : Nat) (x : Dma) : (s.setDma e x).hep = s.hep := rfl
@[simp] theorem State.setDma_tables (s : State) (e : Nat) (x : Dma) : (s.setDma e x).tables = s.tables := rfl
@[simp] theorem State.setDma_detached (s : State) (e : Nat) (x : Dma) : (s.setDma e x).detached = s.detached := rfl
@[simp] theorem State.setDma_strike (s : State) (e : Nat) (x : Dma) : (s.setDma e x).strike = s.strike := rfl
@[simp] theorem State.setDma_pipes (s : State) (e : Nat) (x : Dma) : (s.setDma e x).pipes = s.pipes := rfl
@[simp] theorem State.setDma_jobs (s : State) (e : Nat) (x : Dma) : (s.setDma e x).jobs = s.jobs := rfl
@[simp] theorem State.setDma_jobSeq (s : State) (e : Nat) (x : Dma) : (s.setDma e x).jobSeq = s.jobSeq := rfl
@[simp] theorem State.setDma_qpairs (s : State) (e : Nat) (x : Dma) : (s.setDma e x).qpairs = s.qpairs := rfl
@[simp] theorem State.setDma_journal (s : State) (e : Nat) (x : Dma) : (s.setDma e x).journal = s.journal := rfl
@[simp] theorem State.setDma_exports (s : State) (e : Nat) (x : Dma) : (s.setDma e x).exports = s.exports := rfl
@[simp] theorem State.setDma_journalCodec (s : State) (e : Nat) (x : Dma) : (s.setDma e x).journalCodec = s.journalCodec := rfl
@[simp] theorem State.setDma_poolGib (s : State) (e : Nat) (x : Dma) : (s.setDma e x).poolGib = s.poolGib := rfl
@[simp] theorem State.setDma_adminBacklog (s : State) (e : Nat) (x : Dma) : (s.setDma e x).adminBacklog = s.adminBacklog := rfl
@[simp] theorem State.setDma_cue (s : State) (e : Nat) (x : Dma) : (s.setDma e x).cue = s.cue := rfl
@[simp] theorem State.setDma_dup (s : State) (e : Nat) (x : Dma) : (s.setDma e x).dup = s.dup := rfl
@[simp] theorem State.setDma_keys (s : State) (e : Nat) (x : Dma) : (s.setDma e x).keys = s.keys := rfl
@[simp] theorem State.setDma_flash (s : State) (e : Nat) (x : Dma) : (s.setDma e x).flash = s.flash := rfl
@[simp] theorem State.setDma_pbook (s : State) (e : Nat) (x : Dma) : (s.setDma e x).pbook = s.pbook := rfl
@[simp] theorem State.setDma_rehearse (s : State) (e : Nat) (x : Dma) : (s.setDma e x).rehearse = s.rehearse := rfl
@[simp] theorem State.setDma_mgmt (s : State) (e : Nat) (x : Dma) : (s.setDma e x).mgmt = s.mgmt := rfl
@[simp] theorem State.setDma_cams (s : State) (e : Nat) (x : Dma) : (s.setDma e x).cams = s.cams := rfl
@[simp] theorem State.setDma_units (s : State) (e : Nat) (x : Dma) : (s.setDma e x).units = s.units := rfl
@[simp] theorem State.setDma_digs (s : State) (e : Nat) (x : Dma) : (s.setDma e x).digs = s.digs := rfl
@[simp] theorem State.setDma_hashes (s : State) (e : Nat) (x : Dma) : (s.setDma e x).hashes = s.hashes := rfl
@[simp] theorem State.setDma_lsu (s : State) (e : Nat) (x : Dma) : (s.setDma e x).lsu = s.lsu := rfl
@[simp] theorem State.setDma_camDeltas (s : State) (e : Nat) (x : Dma) : (s.setDma e x).camDeltas = s.camDeltas := rfl
@[simp] theorem State.setDma_adminWait (s : State) (e : Nat) (x : Dma) : (s.setDma e x).adminWait = s.adminWait := rfl
@[simp] theorem State.setDma_snapExport (s : State) (e : Nat) (x : Dma) : (s.setDma e x).snapExport = s.snapExport := rfl
@[simp] theorem State.setDma_evictedExport (s : State) (e : Nat) (x : Dma) : (s.setDma e x).evictedExport = s.evictedExport := rfl
@[simp] theorem State.setDma_dupKept (s : State) (e : Nat) (x : Dma) : (s.setDma e x).dupKept = s.dupKept := rfl
@[simp] theorem State.setDma_changeSeq (s : State) (e : Nat) (x : Dma) : (s.setDma e x).changeSeq = s.changeSeq := rfl
@[simp] theorem State.setDma_wings (s : State) (e : Nat) (x : Dma) : (s.setDma e x).wings = s.wings := rfl
@[simp] theorem State.setDma_company (s : State) (e : Nat) (x : Dma) : (s.setDma e x).company = s.company := rfl

/-! ## setLsu -/

@[simp] theorem State.setLsu_pending (s : State) (x : Lsu) : (s.setLsu x).pending = s.pending := rfl
@[simp] theorem State.setLsu_fresh (s : State) (x : Lsu) : (s.setLsu x).fresh = s.fresh := rfl
@[simp] theorem State.setLsu_stamp (s : State) (x : Lsu) : (s.setLsu x).stamp = s.stamp := rfl
@[simp] theorem State.setLsu_beat (s : State) (x : Lsu) : (s.setLsu x).beat = s.beat := rfl
@[simp] theorem State.setLsu_build (s : State) (x : Lsu) : (s.setLsu x).build = s.build := rfl
@[simp] theorem State.setLsu_mdl (s : State) (x : Lsu) : (s.setLsu x).mdl = s.mdl := rfl
@[simp] theorem State.setLsu_regs (s : State) (x : Lsu) : (s.setLsu x).regs = s.regs := rfl
@[simp] theorem State.setLsu_wide (s : State) (x : Lsu) : (s.setLsu x).wide = s.wide := rfl
@[simp] theorem State.setLsu_mem (s : State) (x : Lsu) : (s.setLsu x).mem = s.mem := rfl
@[simp] theorem State.setLsu_host (s : State) (x : Lsu) : (s.setLsu x).host = s.host := rfl
@[simp] theorem State.setLsu_cores (s : State) (x : Lsu) : (s.setLsu x).cores = s.cores := rfl
@[simp] theorem State.setLsu_clusters (s : State) (x : Lsu) : (s.setLsu x).clusters = s.clusters := rfl
@[simp] theorem State.setLsu_irtr (s : State) (x : Lsu) : (s.setLsu x).irtr = s.irtr := rfl
@[simp] theorem State.setLsu_memcs (s : State) (x : Lsu) : (s.setLsu x).memcs = s.memcs := rfl
@[simp] theorem State.setLsu_hep (s : State) (x : Lsu) : (s.setLsu x).hep = s.hep := rfl
@[simp] theorem State.setLsu_tables (s : State) (x : Lsu) : (s.setLsu x).tables = s.tables := rfl
@[simp] theorem State.setLsu_detached (s : State) (x : Lsu) : (s.setLsu x).detached = s.detached := rfl
@[simp] theorem State.setLsu_strike (s : State) (x : Lsu) : (s.setLsu x).strike = s.strike := rfl
@[simp] theorem State.setLsu_pipes (s : State) (x : Lsu) : (s.setLsu x).pipes = s.pipes := rfl
@[simp] theorem State.setLsu_jobs (s : State) (x : Lsu) : (s.setLsu x).jobs = s.jobs := rfl
@[simp] theorem State.setLsu_jobSeq (s : State) (x : Lsu) : (s.setLsu x).jobSeq = s.jobSeq := rfl
@[simp] theorem State.setLsu_qpairs (s : State) (x : Lsu) : (s.setLsu x).qpairs = s.qpairs := rfl
@[simp] theorem State.setLsu_journal (s : State) (x : Lsu) : (s.setLsu x).journal = s.journal := rfl
@[simp] theorem State.setLsu_exports (s : State) (x : Lsu) : (s.setLsu x).exports = s.exports := rfl
@[simp] theorem State.setLsu_journalCodec (s : State) (x : Lsu) : (s.setLsu x).journalCodec = s.journalCodec := rfl
@[simp] theorem State.setLsu_poolGib (s : State) (x : Lsu) : (s.setLsu x).poolGib = s.poolGib := rfl
@[simp] theorem State.setLsu_adminBacklog (s : State) (x : Lsu) : (s.setLsu x).adminBacklog = s.adminBacklog := rfl
@[simp] theorem State.setLsu_cue (s : State) (x : Lsu) : (s.setLsu x).cue = s.cue := rfl
@[simp] theorem State.setLsu_dup (s : State) (x : Lsu) : (s.setLsu x).dup = s.dup := rfl
@[simp] theorem State.setLsu_keys (s : State) (x : Lsu) : (s.setLsu x).keys = s.keys := rfl
@[simp] theorem State.setLsu_flash (s : State) (x : Lsu) : (s.setLsu x).flash = s.flash := rfl
@[simp] theorem State.setLsu_pbook (s : State) (x : Lsu) : (s.setLsu x).pbook = s.pbook := rfl
@[simp] theorem State.setLsu_rehearse (s : State) (x : Lsu) : (s.setLsu x).rehearse = s.rehearse := rfl
@[simp] theorem State.setLsu_mgmt (s : State) (x : Lsu) : (s.setLsu x).mgmt = s.mgmt := rfl
@[simp] theorem State.setLsu_cams (s : State) (x : Lsu) : (s.setLsu x).cams = s.cams := rfl
@[simp] theorem State.setLsu_units (s : State) (x : Lsu) : (s.setLsu x).units = s.units := rfl
@[simp] theorem State.setLsu_digs (s : State) (x : Lsu) : (s.setLsu x).digs = s.digs := rfl
@[simp] theorem State.setLsu_hashes (s : State) (x : Lsu) : (s.setLsu x).hashes = s.hashes := rfl
@[simp] theorem State.setLsu_dmas (s : State) (x : Lsu) : (s.setLsu x).dmas = s.dmas := rfl
@[simp] theorem State.setLsu_camDeltas (s : State) (x : Lsu) : (s.setLsu x).camDeltas = s.camDeltas := rfl
@[simp] theorem State.setLsu_adminWait (s : State) (x : Lsu) : (s.setLsu x).adminWait = s.adminWait := rfl
@[simp] theorem State.setLsu_snapExport (s : State) (x : Lsu) : (s.setLsu x).snapExport = s.snapExport := rfl
@[simp] theorem State.setLsu_evictedExport (s : State) (x : Lsu) : (s.setLsu x).evictedExport = s.evictedExport := rfl
@[simp] theorem State.setLsu_dupKept (s : State) (x : Lsu) : (s.setLsu x).dupKept = s.dupKept := rfl
@[simp] theorem State.setLsu_changeSeq (s : State) (x : Lsu) : (s.setLsu x).changeSeq = s.changeSeq := rfl
@[simp] theorem State.setLsu_wings (s : State) (x : Lsu) : (s.setLsu x).wings = s.wings := rfl
@[simp] theorem State.setLsu_company (s : State) (x : Lsu) : (s.setLsu x).company = s.company := rfl

/-! ## setWing -/

@[simp] theorem State.setWing_pending (s : State) (p : Nat) (x : Wing) : (s.setWing p x).pending = s.pending := rfl
@[simp] theorem State.setWing_fresh (s : State) (p : Nat) (x : Wing) : (s.setWing p x).fresh = s.fresh := rfl
@[simp] theorem State.setWing_stamp (s : State) (p : Nat) (x : Wing) : (s.setWing p x).stamp = s.stamp := rfl
@[simp] theorem State.setWing_beat (s : State) (p : Nat) (x : Wing) : (s.setWing p x).beat = s.beat := rfl
@[simp] theorem State.setWing_build (s : State) (p : Nat) (x : Wing) : (s.setWing p x).build = s.build := rfl
@[simp] theorem State.setWing_mdl (s : State) (p : Nat) (x : Wing) : (s.setWing p x).mdl = s.mdl := rfl
@[simp] theorem State.setWing_regs (s : State) (p : Nat) (x : Wing) : (s.setWing p x).regs = s.regs := rfl
@[simp] theorem State.setWing_wide (s : State) (p : Nat) (x : Wing) : (s.setWing p x).wide = s.wide := rfl
@[simp] theorem State.setWing_mem (s : State) (p : Nat) (x : Wing) : (s.setWing p x).mem = s.mem := rfl
@[simp] theorem State.setWing_host (s : State) (p : Nat) (x : Wing) : (s.setWing p x).host = s.host := rfl
@[simp] theorem State.setWing_cores (s : State) (p : Nat) (x : Wing) : (s.setWing p x).cores = s.cores := rfl
@[simp] theorem State.setWing_clusters (s : State) (p : Nat) (x : Wing) : (s.setWing p x).clusters = s.clusters := rfl
@[simp] theorem State.setWing_irtr (s : State) (p : Nat) (x : Wing) : (s.setWing p x).irtr = s.irtr := rfl
@[simp] theorem State.setWing_memcs (s : State) (p : Nat) (x : Wing) : (s.setWing p x).memcs = s.memcs := rfl
@[simp] theorem State.setWing_hep (s : State) (p : Nat) (x : Wing) : (s.setWing p x).hep = s.hep := rfl
@[simp] theorem State.setWing_tables (s : State) (p : Nat) (x : Wing) : (s.setWing p x).tables = s.tables := rfl
@[simp] theorem State.setWing_detached (s : State) (p : Nat) (x : Wing) : (s.setWing p x).detached = s.detached := rfl
@[simp] theorem State.setWing_strike (s : State) (p : Nat) (x : Wing) : (s.setWing p x).strike = s.strike := rfl
@[simp] theorem State.setWing_pipes (s : State) (p : Nat) (x : Wing) : (s.setWing p x).pipes = s.pipes := rfl
@[simp] theorem State.setWing_jobs (s : State) (p : Nat) (x : Wing) : (s.setWing p x).jobs = s.jobs := rfl
@[simp] theorem State.setWing_jobSeq (s : State) (p : Nat) (x : Wing) : (s.setWing p x).jobSeq = s.jobSeq := rfl
@[simp] theorem State.setWing_qpairs (s : State) (p : Nat) (x : Wing) : (s.setWing p x).qpairs = s.qpairs := rfl
@[simp] theorem State.setWing_journal (s : State) (p : Nat) (x : Wing) : (s.setWing p x).journal = s.journal := rfl
@[simp] theorem State.setWing_exports (s : State) (p : Nat) (x : Wing) : (s.setWing p x).exports = s.exports := rfl
@[simp] theorem State.setWing_journalCodec (s : State) (p : Nat) (x : Wing) : (s.setWing p x).journalCodec = s.journalCodec := rfl
@[simp] theorem State.setWing_poolGib (s : State) (p : Nat) (x : Wing) : (s.setWing p x).poolGib = s.poolGib := rfl
@[simp] theorem State.setWing_adminBacklog (s : State) (p : Nat) (x : Wing) : (s.setWing p x).adminBacklog = s.adminBacklog := rfl
@[simp] theorem State.setWing_cue (s : State) (p : Nat) (x : Wing) : (s.setWing p x).cue = s.cue := rfl
@[simp] theorem State.setWing_dup (s : State) (p : Nat) (x : Wing) : (s.setWing p x).dup = s.dup := rfl
@[simp] theorem State.setWing_keys (s : State) (p : Nat) (x : Wing) : (s.setWing p x).keys = s.keys := rfl
@[simp] theorem State.setWing_flash (s : State) (p : Nat) (x : Wing) : (s.setWing p x).flash = s.flash := rfl
@[simp] theorem State.setWing_pbook (s : State) (p : Nat) (x : Wing) : (s.setWing p x).pbook = s.pbook := rfl
@[simp] theorem State.setWing_rehearse (s : State) (p : Nat) (x : Wing) : (s.setWing p x).rehearse = s.rehearse := rfl
@[simp] theorem State.setWing_mgmt (s : State) (p : Nat) (x : Wing) : (s.setWing p x).mgmt = s.mgmt := rfl
@[simp] theorem State.setWing_cams (s : State) (p : Nat) (x : Wing) : (s.setWing p x).cams = s.cams := rfl
@[simp] theorem State.setWing_units (s : State) (p : Nat) (x : Wing) : (s.setWing p x).units = s.units := rfl
@[simp] theorem State.setWing_digs (s : State) (p : Nat) (x : Wing) : (s.setWing p x).digs = s.digs := rfl
@[simp] theorem State.setWing_hashes (s : State) (p : Nat) (x : Wing) : (s.setWing p x).hashes = s.hashes := rfl
@[simp] theorem State.setWing_lsu (s : State) (p : Nat) (x : Wing) : (s.setWing p x).lsu = s.lsu := rfl
@[simp] theorem State.setWing_dmas (s : State) (p : Nat) (x : Wing) : (s.setWing p x).dmas = s.dmas := rfl
@[simp] theorem State.setWing_camDeltas (s : State) (p : Nat) (x : Wing) : (s.setWing p x).camDeltas = s.camDeltas := rfl
@[simp] theorem State.setWing_adminWait (s : State) (p : Nat) (x : Wing) : (s.setWing p x).adminWait = s.adminWait := rfl
@[simp] theorem State.setWing_snapExport (s : State) (p : Nat) (x : Wing) : (s.setWing p x).snapExport = s.snapExport := rfl
@[simp] theorem State.setWing_evictedExport (s : State) (p : Nat) (x : Wing) : (s.setWing p x).evictedExport = s.evictedExport := rfl
@[simp] theorem State.setWing_dupKept (s : State) (p : Nat) (x : Wing) : (s.setWing p x).dupKept = s.dupKept := rfl
@[simp] theorem State.setWing_changeSeq (s : State) (p : Nat) (x : Wing) : (s.setWing p x).changeSeq = s.changeSeq := rfl
@[simp] theorem State.setWing_company (s : State) (p : Nat) (x : Wing) : (s.setWing p x).company = s.company := rfl

/-! ## setQp -/

@[simp] theorem State.setQp_pending (s : State) (q : Nat) (x : QPair) : (s.setQp q x).pending = s.pending := rfl
@[simp] theorem State.setQp_fresh (s : State) (q : Nat) (x : QPair) : (s.setQp q x).fresh = s.fresh := rfl
@[simp] theorem State.setQp_stamp (s : State) (q : Nat) (x : QPair) : (s.setQp q x).stamp = s.stamp := rfl
@[simp] theorem State.setQp_beat (s : State) (q : Nat) (x : QPair) : (s.setQp q x).beat = s.beat := rfl
@[simp] theorem State.setQp_build (s : State) (q : Nat) (x : QPair) : (s.setQp q x).build = s.build := rfl
@[simp] theorem State.setQp_mdl (s : State) (q : Nat) (x : QPair) : (s.setQp q x).mdl = s.mdl := rfl
@[simp] theorem State.setQp_regs (s : State) (q : Nat) (x : QPair) : (s.setQp q x).regs = s.regs := rfl
@[simp] theorem State.setQp_wide (s : State) (q : Nat) (x : QPair) : (s.setQp q x).wide = s.wide := rfl
@[simp] theorem State.setQp_mem (s : State) (q : Nat) (x : QPair) : (s.setQp q x).mem = s.mem := rfl
@[simp] theorem State.setQp_host (s : State) (q : Nat) (x : QPair) : (s.setQp q x).host = s.host := rfl
@[simp] theorem State.setQp_cores (s : State) (q : Nat) (x : QPair) : (s.setQp q x).cores = s.cores := rfl
@[simp] theorem State.setQp_clusters (s : State) (q : Nat) (x : QPair) : (s.setQp q x).clusters = s.clusters := rfl
@[simp] theorem State.setQp_irtr (s : State) (q : Nat) (x : QPair) : (s.setQp q x).irtr = s.irtr := rfl
@[simp] theorem State.setQp_memcs (s : State) (q : Nat) (x : QPair) : (s.setQp q x).memcs = s.memcs := rfl
@[simp] theorem State.setQp_hep (s : State) (q : Nat) (x : QPair) : (s.setQp q x).hep = s.hep := rfl
@[simp] theorem State.setQp_tables (s : State) (q : Nat) (x : QPair) : (s.setQp q x).tables = s.tables := rfl
@[simp] theorem State.setQp_detached (s : State) (q : Nat) (x : QPair) : (s.setQp q x).detached = s.detached := rfl
@[simp] theorem State.setQp_strike (s : State) (q : Nat) (x : QPair) : (s.setQp q x).strike = s.strike := rfl
@[simp] theorem State.setQp_pipes (s : State) (q : Nat) (x : QPair) : (s.setQp q x).pipes = s.pipes := rfl
@[simp] theorem State.setQp_jobs (s : State) (q : Nat) (x : QPair) : (s.setQp q x).jobs = s.jobs := rfl
@[simp] theorem State.setQp_jobSeq (s : State) (q : Nat) (x : QPair) : (s.setQp q x).jobSeq = s.jobSeq := rfl
@[simp] theorem State.setQp_journal (s : State) (q : Nat) (x : QPair) : (s.setQp q x).journal = s.journal := rfl
@[simp] theorem State.setQp_exports (s : State) (q : Nat) (x : QPair) : (s.setQp q x).exports = s.exports := rfl
@[simp] theorem State.setQp_journalCodec (s : State) (q : Nat) (x : QPair) : (s.setQp q x).journalCodec = s.journalCodec := rfl
@[simp] theorem State.setQp_poolGib (s : State) (q : Nat) (x : QPair) : (s.setQp q x).poolGib = s.poolGib := rfl
@[simp] theorem State.setQp_adminBacklog (s : State) (q : Nat) (x : QPair) : (s.setQp q x).adminBacklog = s.adminBacklog := rfl
@[simp] theorem State.setQp_cue (s : State) (q : Nat) (x : QPair) : (s.setQp q x).cue = s.cue := rfl
@[simp] theorem State.setQp_dup (s : State) (q : Nat) (x : QPair) : (s.setQp q x).dup = s.dup := rfl
@[simp] theorem State.setQp_keys (s : State) (q : Nat) (x : QPair) : (s.setQp q x).keys = s.keys := rfl
@[simp] theorem State.setQp_flash (s : State) (q : Nat) (x : QPair) : (s.setQp q x).flash = s.flash := rfl
@[simp] theorem State.setQp_pbook (s : State) (q : Nat) (x : QPair) : (s.setQp q x).pbook = s.pbook := rfl
@[simp] theorem State.setQp_rehearse (s : State) (q : Nat) (x : QPair) : (s.setQp q x).rehearse = s.rehearse := rfl
@[simp] theorem State.setQp_mgmt (s : State) (q : Nat) (x : QPair) : (s.setQp q x).mgmt = s.mgmt := rfl
@[simp] theorem State.setQp_cams (s : State) (q : Nat) (x : QPair) : (s.setQp q x).cams = s.cams := rfl
@[simp] theorem State.setQp_units (s : State) (q : Nat) (x : QPair) : (s.setQp q x).units = s.units := rfl
@[simp] theorem State.setQp_digs (s : State) (q : Nat) (x : QPair) : (s.setQp q x).digs = s.digs := rfl
@[simp] theorem State.setQp_hashes (s : State) (q : Nat) (x : QPair) : (s.setQp q x).hashes = s.hashes := rfl
@[simp] theorem State.setQp_lsu (s : State) (q : Nat) (x : QPair) : (s.setQp q x).lsu = s.lsu := rfl
@[simp] theorem State.setQp_dmas (s : State) (q : Nat) (x : QPair) : (s.setQp q x).dmas = s.dmas := rfl
@[simp] theorem State.setQp_camDeltas (s : State) (q : Nat) (x : QPair) : (s.setQp q x).camDeltas = s.camDeltas := rfl
@[simp] theorem State.setQp_adminWait (s : State) (q : Nat) (x : QPair) : (s.setQp q x).adminWait = s.adminWait := rfl
@[simp] theorem State.setQp_snapExport (s : State) (q : Nat) (x : QPair) : (s.setQp q x).snapExport = s.snapExport := rfl
@[simp] theorem State.setQp_evictedExport (s : State) (q : Nat) (x : QPair) : (s.setQp q x).evictedExport = s.evictedExport := rfl
@[simp] theorem State.setQp_dupKept (s : State) (q : Nat) (x : QPair) : (s.setQp q x).dupKept = s.dupKept := rfl
@[simp] theorem State.setQp_changeSeq (s : State) (q : Nat) (x : QPair) : (s.setQp q x).changeSeq = s.changeSeq := rfl
@[simp] theorem State.setQp_wings (s : State) (q : Nat) (x : QPair) : (s.setQp q x).wings = s.wings := rfl
@[simp] theorem State.setQp_company (s : State) (q : Nat) (x : QPair) : (s.setQp q x).company = s.company := rfl

/-! ## setTable -/

@[simp] theorem State.setTable_pending (s : State) (t : Nat) (x : Option Table) : (s.setTable t x).pending = s.pending := rfl
@[simp] theorem State.setTable_fresh (s : State) (t : Nat) (x : Option Table) : (s.setTable t x).fresh = s.fresh := rfl
@[simp] theorem State.setTable_stamp (s : State) (t : Nat) (x : Option Table) : (s.setTable t x).stamp = s.stamp := rfl
@[simp] theorem State.setTable_beat (s : State) (t : Nat) (x : Option Table) : (s.setTable t x).beat = s.beat := rfl
@[simp] theorem State.setTable_build (s : State) (t : Nat) (x : Option Table) : (s.setTable t x).build = s.build := rfl
@[simp] theorem State.setTable_mdl (s : State) (t : Nat) (x : Option Table) : (s.setTable t x).mdl = s.mdl := rfl
@[simp] theorem State.setTable_regs (s : State) (t : Nat) (x : Option Table) : (s.setTable t x).regs = s.regs := rfl
@[simp] theorem State.setTable_wide (s : State) (t : Nat) (x : Option Table) : (s.setTable t x).wide = s.wide := rfl
@[simp] theorem State.setTable_mem (s : State) (t : Nat) (x : Option Table) : (s.setTable t x).mem = s.mem := rfl
@[simp] theorem State.setTable_host (s : State) (t : Nat) (x : Option Table) : (s.setTable t x).host = s.host := rfl
@[simp] theorem State.setTable_cores (s : State) (t : Nat) (x : Option Table) : (s.setTable t x).cores = s.cores := rfl
@[simp] theorem State.setTable_clusters (s : State) (t : Nat) (x : Option Table) : (s.setTable t x).clusters = s.clusters := rfl
@[simp] theorem State.setTable_irtr (s : State) (t : Nat) (x : Option Table) : (s.setTable t x).irtr = s.irtr := rfl
@[simp] theorem State.setTable_memcs (s : State) (t : Nat) (x : Option Table) : (s.setTable t x).memcs = s.memcs := rfl
@[simp] theorem State.setTable_hep (s : State) (t : Nat) (x : Option Table) : (s.setTable t x).hep = s.hep := rfl
@[simp] theorem State.setTable_detached (s : State) (t : Nat) (x : Option Table) : (s.setTable t x).detached = s.detached := rfl
@[simp] theorem State.setTable_strike (s : State) (t : Nat) (x : Option Table) : (s.setTable t x).strike = s.strike := rfl
@[simp] theorem State.setTable_pipes (s : State) (t : Nat) (x : Option Table) : (s.setTable t x).pipes = s.pipes := rfl
@[simp] theorem State.setTable_jobs (s : State) (t : Nat) (x : Option Table) : (s.setTable t x).jobs = s.jobs := rfl
@[simp] theorem State.setTable_jobSeq (s : State) (t : Nat) (x : Option Table) : (s.setTable t x).jobSeq = s.jobSeq := rfl
@[simp] theorem State.setTable_qpairs (s : State) (t : Nat) (x : Option Table) : (s.setTable t x).qpairs = s.qpairs := rfl
@[simp] theorem State.setTable_journal (s : State) (t : Nat) (x : Option Table) : (s.setTable t x).journal = s.journal := rfl
@[simp] theorem State.setTable_exports (s : State) (t : Nat) (x : Option Table) : (s.setTable t x).exports = s.exports := rfl
@[simp] theorem State.setTable_journalCodec (s : State) (t : Nat) (x : Option Table) : (s.setTable t x).journalCodec = s.journalCodec := rfl
@[simp] theorem State.setTable_poolGib (s : State) (t : Nat) (x : Option Table) : (s.setTable t x).poolGib = s.poolGib := rfl
@[simp] theorem State.setTable_adminBacklog (s : State) (t : Nat) (x : Option Table) : (s.setTable t x).adminBacklog = s.adminBacklog := rfl
@[simp] theorem State.setTable_cue (s : State) (t : Nat) (x : Option Table) : (s.setTable t x).cue = s.cue := rfl
@[simp] theorem State.setTable_dup (s : State) (t : Nat) (x : Option Table) : (s.setTable t x).dup = s.dup := rfl
@[simp] theorem State.setTable_keys (s : State) (t : Nat) (x : Option Table) : (s.setTable t x).keys = s.keys := rfl
@[simp] theorem State.setTable_flash (s : State) (t : Nat) (x : Option Table) : (s.setTable t x).flash = s.flash := rfl
@[simp] theorem State.setTable_pbook (s : State) (t : Nat) (x : Option Table) : (s.setTable t x).pbook = s.pbook := rfl
@[simp] theorem State.setTable_rehearse (s : State) (t : Nat) (x : Option Table) : (s.setTable t x).rehearse = s.rehearse := rfl
@[simp] theorem State.setTable_mgmt (s : State) (t : Nat) (x : Option Table) : (s.setTable t x).mgmt = s.mgmt := rfl
@[simp] theorem State.setTable_cams (s : State) (t : Nat) (x : Option Table) : (s.setTable t x).cams = s.cams := rfl
@[simp] theorem State.setTable_units (s : State) (t : Nat) (x : Option Table) : (s.setTable t x).units = s.units := rfl
@[simp] theorem State.setTable_digs (s : State) (t : Nat) (x : Option Table) : (s.setTable t x).digs = s.digs := rfl
@[simp] theorem State.setTable_hashes (s : State) (t : Nat) (x : Option Table) : (s.setTable t x).hashes = s.hashes := rfl
@[simp] theorem State.setTable_lsu (s : State) (t : Nat) (x : Option Table) : (s.setTable t x).lsu = s.lsu := rfl
@[simp] theorem State.setTable_dmas (s : State) (t : Nat) (x : Option Table) : (s.setTable t x).dmas = s.dmas := rfl
@[simp] theorem State.setTable_camDeltas (s : State) (t : Nat) (x : Option Table) : (s.setTable t x).camDeltas = s.camDeltas := rfl
@[simp] theorem State.setTable_adminWait (s : State) (t : Nat) (x : Option Table) : (s.setTable t x).adminWait = s.adminWait := rfl
@[simp] theorem State.setTable_snapExport (s : State) (t : Nat) (x : Option Table) : (s.setTable t x).snapExport = s.snapExport := rfl
@[simp] theorem State.setTable_evictedExport (s : State) (t : Nat) (x : Option Table) : (s.setTable t x).evictedExport = s.evictedExport := rfl
@[simp] theorem State.setTable_dupKept (s : State) (t : Nat) (x : Option Table) : (s.setTable t x).dupKept = s.dupKept := rfl
@[simp] theorem State.setTable_changeSeq (s : State) (t : Nat) (x : Option Table) : (s.setTable t x).changeSeq = s.changeSeq := rfl
@[simp] theorem State.setTable_wings (s : State) (t : Nat) (x : Option Table) : (s.setTable t x).wings = s.wings := rfl
@[simp] theorem State.setTable_company (s : State) (t : Nat) (x : Option Table) : (s.setTable t x).company = s.company := rfl

/-! ## setJob -/

@[simp] theorem State.setJob_pending (s : State) (j : Job) : (s.setJob j).pending = s.pending := rfl
@[simp] theorem State.setJob_fresh (s : State) (j : Job) : (s.setJob j).fresh = s.fresh := rfl
@[simp] theorem State.setJob_stamp (s : State) (j : Job) : (s.setJob j).stamp = s.stamp := rfl
@[simp] theorem State.setJob_beat (s : State) (j : Job) : (s.setJob j).beat = s.beat := rfl
@[simp] theorem State.setJob_build (s : State) (j : Job) : (s.setJob j).build = s.build := rfl
@[simp] theorem State.setJob_mdl (s : State) (j : Job) : (s.setJob j).mdl = s.mdl := rfl
@[simp] theorem State.setJob_regs (s : State) (j : Job) : (s.setJob j).regs = s.regs := rfl
@[simp] theorem State.setJob_wide (s : State) (j : Job) : (s.setJob j).wide = s.wide := rfl
@[simp] theorem State.setJob_mem (s : State) (j : Job) : (s.setJob j).mem = s.mem := rfl
@[simp] theorem State.setJob_host (s : State) (j : Job) : (s.setJob j).host = s.host := rfl
@[simp] theorem State.setJob_cores (s : State) (j : Job) : (s.setJob j).cores = s.cores := rfl
@[simp] theorem State.setJob_clusters (s : State) (j : Job) : (s.setJob j).clusters = s.clusters := rfl
@[simp] theorem State.setJob_irtr (s : State) (j : Job) : (s.setJob j).irtr = s.irtr := rfl
@[simp] theorem State.setJob_memcs (s : State) (j : Job) : (s.setJob j).memcs = s.memcs := rfl
@[simp] theorem State.setJob_hep (s : State) (j : Job) : (s.setJob j).hep = s.hep := rfl
@[simp] theorem State.setJob_tables (s : State) (j : Job) : (s.setJob j).tables = s.tables := rfl
@[simp] theorem State.setJob_detached (s : State) (j : Job) : (s.setJob j).detached = s.detached := rfl
@[simp] theorem State.setJob_strike (s : State) (j : Job) : (s.setJob j).strike = s.strike := rfl
@[simp] theorem State.setJob_pipes (s : State) (j : Job) : (s.setJob j).pipes = s.pipes := rfl
@[simp] theorem State.setJob_jobSeq (s : State) (j : Job) : (s.setJob j).jobSeq = s.jobSeq := rfl
@[simp] theorem State.setJob_qpairs (s : State) (j : Job) : (s.setJob j).qpairs = s.qpairs := rfl
@[simp] theorem State.setJob_journal (s : State) (j : Job) : (s.setJob j).journal = s.journal := rfl
@[simp] theorem State.setJob_exports (s : State) (j : Job) : (s.setJob j).exports = s.exports := rfl
@[simp] theorem State.setJob_journalCodec (s : State) (j : Job) : (s.setJob j).journalCodec = s.journalCodec := rfl
@[simp] theorem State.setJob_poolGib (s : State) (j : Job) : (s.setJob j).poolGib = s.poolGib := rfl
@[simp] theorem State.setJob_adminBacklog (s : State) (j : Job) : (s.setJob j).adminBacklog = s.adminBacklog := rfl
@[simp] theorem State.setJob_cue (s : State) (j : Job) : (s.setJob j).cue = s.cue := rfl
@[simp] theorem State.setJob_dup (s : State) (j : Job) : (s.setJob j).dup = s.dup := rfl
@[simp] theorem State.setJob_keys (s : State) (j : Job) : (s.setJob j).keys = s.keys := rfl
@[simp] theorem State.setJob_flash (s : State) (j : Job) : (s.setJob j).flash = s.flash := rfl
@[simp] theorem State.setJob_pbook (s : State) (j : Job) : (s.setJob j).pbook = s.pbook := rfl
@[simp] theorem State.setJob_rehearse (s : State) (j : Job) : (s.setJob j).rehearse = s.rehearse := rfl
@[simp] theorem State.setJob_mgmt (s : State) (j : Job) : (s.setJob j).mgmt = s.mgmt := rfl
@[simp] theorem State.setJob_cams (s : State) (j : Job) : (s.setJob j).cams = s.cams := rfl
@[simp] theorem State.setJob_units (s : State) (j : Job) : (s.setJob j).units = s.units := rfl
@[simp] theorem State.setJob_digs (s : State) (j : Job) : (s.setJob j).digs = s.digs := rfl
@[simp] theorem State.setJob_hashes (s : State) (j : Job) : (s.setJob j).hashes = s.hashes := rfl
@[simp] theorem State.setJob_lsu (s : State) (j : Job) : (s.setJob j).lsu = s.lsu := rfl
@[simp] theorem State.setJob_dmas (s : State) (j : Job) : (s.setJob j).dmas = s.dmas := rfl
@[simp] theorem State.setJob_camDeltas (s : State) (j : Job) : (s.setJob j).camDeltas = s.camDeltas := rfl
@[simp] theorem State.setJob_adminWait (s : State) (j : Job) : (s.setJob j).adminWait = s.adminWait := rfl
@[simp] theorem State.setJob_snapExport (s : State) (j : Job) : (s.setJob j).snapExport = s.snapExport := rfl
@[simp] theorem State.setJob_evictedExport (s : State) (j : Job) : (s.setJob j).evictedExport = s.evictedExport := rfl
@[simp] theorem State.setJob_dupKept (s : State) (j : Job) : (s.setJob j).dupKept = s.dupKept := rfl
@[simp] theorem State.setJob_changeSeq (s : State) (j : Job) : (s.setJob j).changeSeq = s.changeSeq := rfl
@[simp] theorem State.setJob_wings (s : State) (j : Job) : (s.setJob j).wings = s.wings := rfl
@[simp] theorem State.setJob_company (s : State) (j : Job) : (s.setJob j).company = s.company := rfl

/-! ## setKeySlot -/

@[simp] theorem State.setKeySlot_pending (s : State) (n : Nat) (k : Option KeySlot) : (s.setKeySlot n k).pending = s.pending := rfl
@[simp] theorem State.setKeySlot_fresh (s : State) (n : Nat) (k : Option KeySlot) : (s.setKeySlot n k).fresh = s.fresh := rfl
@[simp] theorem State.setKeySlot_stamp (s : State) (n : Nat) (k : Option KeySlot) : (s.setKeySlot n k).stamp = s.stamp := rfl
@[simp] theorem State.setKeySlot_beat (s : State) (n : Nat) (k : Option KeySlot) : (s.setKeySlot n k).beat = s.beat := rfl
@[simp] theorem State.setKeySlot_build (s : State) (n : Nat) (k : Option KeySlot) : (s.setKeySlot n k).build = s.build := rfl
@[simp] theorem State.setKeySlot_mdl (s : State) (n : Nat) (k : Option KeySlot) : (s.setKeySlot n k).mdl = s.mdl := rfl
@[simp] theorem State.setKeySlot_regs (s : State) (n : Nat) (k : Option KeySlot) : (s.setKeySlot n k).regs = s.regs := rfl
@[simp] theorem State.setKeySlot_wide (s : State) (n : Nat) (k : Option KeySlot) : (s.setKeySlot n k).wide = s.wide := rfl
@[simp] theorem State.setKeySlot_mem (s : State) (n : Nat) (k : Option KeySlot) : (s.setKeySlot n k).mem = s.mem := rfl
@[simp] theorem State.setKeySlot_host (s : State) (n : Nat) (k : Option KeySlot) : (s.setKeySlot n k).host = s.host := rfl
@[simp] theorem State.setKeySlot_cores (s : State) (n : Nat) (k : Option KeySlot) : (s.setKeySlot n k).cores = s.cores := rfl
@[simp] theorem State.setKeySlot_clusters (s : State) (n : Nat) (k : Option KeySlot) : (s.setKeySlot n k).clusters = s.clusters := rfl
@[simp] theorem State.setKeySlot_irtr (s : State) (n : Nat) (k : Option KeySlot) : (s.setKeySlot n k).irtr = s.irtr := rfl
@[simp] theorem State.setKeySlot_memcs (s : State) (n : Nat) (k : Option KeySlot) : (s.setKeySlot n k).memcs = s.memcs := rfl
@[simp] theorem State.setKeySlot_hep (s : State) (n : Nat) (k : Option KeySlot) : (s.setKeySlot n k).hep = s.hep := rfl
@[simp] theorem State.setKeySlot_tables (s : State) (n : Nat) (k : Option KeySlot) : (s.setKeySlot n k).tables = s.tables := rfl
@[simp] theorem State.setKeySlot_detached (s : State) (n : Nat) (k : Option KeySlot) : (s.setKeySlot n k).detached = s.detached := rfl
@[simp] theorem State.setKeySlot_strike (s : State) (n : Nat) (k : Option KeySlot) : (s.setKeySlot n k).strike = s.strike := rfl
@[simp] theorem State.setKeySlot_pipes (s : State) (n : Nat) (k : Option KeySlot) : (s.setKeySlot n k).pipes = s.pipes := rfl
@[simp] theorem State.setKeySlot_jobs (s : State) (n : Nat) (k : Option KeySlot) : (s.setKeySlot n k).jobs = s.jobs := rfl
@[simp] theorem State.setKeySlot_jobSeq (s : State) (n : Nat) (k : Option KeySlot) : (s.setKeySlot n k).jobSeq = s.jobSeq := rfl
@[simp] theorem State.setKeySlot_qpairs (s : State) (n : Nat) (k : Option KeySlot) : (s.setKeySlot n k).qpairs = s.qpairs := rfl
@[simp] theorem State.setKeySlot_journal (s : State) (n : Nat) (k : Option KeySlot) : (s.setKeySlot n k).journal = s.journal := rfl
@[simp] theorem State.setKeySlot_exports (s : State) (n : Nat) (k : Option KeySlot) : (s.setKeySlot n k).exports = s.exports := rfl
@[simp] theorem State.setKeySlot_journalCodec (s : State) (n : Nat) (k : Option KeySlot) : (s.setKeySlot n k).journalCodec = s.journalCodec := rfl
@[simp] theorem State.setKeySlot_poolGib (s : State) (n : Nat) (k : Option KeySlot) : (s.setKeySlot n k).poolGib = s.poolGib := rfl
@[simp] theorem State.setKeySlot_adminBacklog (s : State) (n : Nat) (k : Option KeySlot) : (s.setKeySlot n k).adminBacklog = s.adminBacklog := rfl
@[simp] theorem State.setKeySlot_cue (s : State) (n : Nat) (k : Option KeySlot) : (s.setKeySlot n k).cue = s.cue := rfl
@[simp] theorem State.setKeySlot_dup (s : State) (n : Nat) (k : Option KeySlot) : (s.setKeySlot n k).dup = s.dup := rfl
@[simp] theorem State.setKeySlot_flash (s : State) (n : Nat) (k : Option KeySlot) : (s.setKeySlot n k).flash = s.flash := rfl
@[simp] theorem State.setKeySlot_pbook (s : State) (n : Nat) (k : Option KeySlot) : (s.setKeySlot n k).pbook = s.pbook := rfl
@[simp] theorem State.setKeySlot_rehearse (s : State) (n : Nat) (k : Option KeySlot) : (s.setKeySlot n k).rehearse = s.rehearse := rfl
@[simp] theorem State.setKeySlot_mgmt (s : State) (n : Nat) (k : Option KeySlot) : (s.setKeySlot n k).mgmt = s.mgmt := rfl
@[simp] theorem State.setKeySlot_cams (s : State) (n : Nat) (k : Option KeySlot) : (s.setKeySlot n k).cams = s.cams := rfl
@[simp] theorem State.setKeySlot_units (s : State) (n : Nat) (k : Option KeySlot) : (s.setKeySlot n k).units = s.units := rfl
@[simp] theorem State.setKeySlot_digs (s : State) (n : Nat) (k : Option KeySlot) : (s.setKeySlot n k).digs = s.digs := rfl
@[simp] theorem State.setKeySlot_hashes (s : State) (n : Nat) (k : Option KeySlot) : (s.setKeySlot n k).hashes = s.hashes := rfl
@[simp] theorem State.setKeySlot_lsu (s : State) (n : Nat) (k : Option KeySlot) : (s.setKeySlot n k).lsu = s.lsu := rfl
@[simp] theorem State.setKeySlot_dmas (s : State) (n : Nat) (k : Option KeySlot) : (s.setKeySlot n k).dmas = s.dmas := rfl
@[simp] theorem State.setKeySlot_camDeltas (s : State) (n : Nat) (k : Option KeySlot) : (s.setKeySlot n k).camDeltas = s.camDeltas := rfl
@[simp] theorem State.setKeySlot_adminWait (s : State) (n : Nat) (k : Option KeySlot) : (s.setKeySlot n k).adminWait = s.adminWait := rfl
@[simp] theorem State.setKeySlot_snapExport (s : State) (n : Nat) (k : Option KeySlot) : (s.setKeySlot n k).snapExport = s.snapExport := rfl
@[simp] theorem State.setKeySlot_evictedExport (s : State) (n : Nat) (k : Option KeySlot) : (s.setKeySlot n k).evictedExport = s.evictedExport := rfl
@[simp] theorem State.setKeySlot_dupKept (s : State) (n : Nat) (k : Option KeySlot) : (s.setKeySlot n k).dupKept = s.dupKept := rfl
@[simp] theorem State.setKeySlot_changeSeq (s : State) (n : Nat) (k : Option KeySlot) : (s.setKeySlot n k).changeSeq = s.changeSeq := rfl
@[simp] theorem State.setKeySlot_wings (s : State) (n : Nat) (k : Option KeySlot) : (s.setKeySlot n k).wings = s.wings := rfl
@[simp] theorem State.setKeySlot_company (s : State) (n : Nat) (k : Option KeySlot) : (s.setKeySlot n k).company = s.company := rfl

/-! ## setPb -/

@[simp] theorem State.setPb_pending (s : State) (p : PBook) : (s.setPb p).pending = s.pending := rfl
@[simp] theorem State.setPb_fresh (s : State) (p : PBook) : (s.setPb p).fresh = s.fresh := rfl
@[simp] theorem State.setPb_stamp (s : State) (p : PBook) : (s.setPb p).stamp = s.stamp := rfl
@[simp] theorem State.setPb_beat (s : State) (p : PBook) : (s.setPb p).beat = s.beat := rfl
@[simp] theorem State.setPb_build (s : State) (p : PBook) : (s.setPb p).build = s.build := rfl
@[simp] theorem State.setPb_mdl (s : State) (p : PBook) : (s.setPb p).mdl = s.mdl := rfl
@[simp] theorem State.setPb_regs (s : State) (p : PBook) : (s.setPb p).regs = s.regs := rfl
@[simp] theorem State.setPb_wide (s : State) (p : PBook) : (s.setPb p).wide = s.wide := rfl
@[simp] theorem State.setPb_mem (s : State) (p : PBook) : (s.setPb p).mem = s.mem := rfl
@[simp] theorem State.setPb_host (s : State) (p : PBook) : (s.setPb p).host = s.host := rfl
@[simp] theorem State.setPb_cores (s : State) (p : PBook) : (s.setPb p).cores = s.cores := rfl
@[simp] theorem State.setPb_clusters (s : State) (p : PBook) : (s.setPb p).clusters = s.clusters := rfl
@[simp] theorem State.setPb_irtr (s : State) (p : PBook) : (s.setPb p).irtr = s.irtr := rfl
@[simp] theorem State.setPb_memcs (s : State) (p : PBook) : (s.setPb p).memcs = s.memcs := rfl
@[simp] theorem State.setPb_hep (s : State) (p : PBook) : (s.setPb p).hep = s.hep := rfl
@[simp] theorem State.setPb_tables (s : State) (p : PBook) : (s.setPb p).tables = s.tables := rfl
@[simp] theorem State.setPb_detached (s : State) (p : PBook) : (s.setPb p).detached = s.detached := rfl
@[simp] theorem State.setPb_strike (s : State) (p : PBook) : (s.setPb p).strike = s.strike := rfl
@[simp] theorem State.setPb_pipes (s : State) (p : PBook) : (s.setPb p).pipes = s.pipes := rfl
@[simp] theorem State.setPb_jobs (s : State) (p : PBook) : (s.setPb p).jobs = s.jobs := rfl
@[simp] theorem State.setPb_jobSeq (s : State) (p : PBook) : (s.setPb p).jobSeq = s.jobSeq := rfl
@[simp] theorem State.setPb_qpairs (s : State) (p : PBook) : (s.setPb p).qpairs = s.qpairs := rfl
@[simp] theorem State.setPb_journal (s : State) (p : PBook) : (s.setPb p).journal = s.journal := rfl
@[simp] theorem State.setPb_exports (s : State) (p : PBook) : (s.setPb p).exports = s.exports := rfl
@[simp] theorem State.setPb_journalCodec (s : State) (p : PBook) : (s.setPb p).journalCodec = s.journalCodec := rfl
@[simp] theorem State.setPb_poolGib (s : State) (p : PBook) : (s.setPb p).poolGib = s.poolGib := rfl
@[simp] theorem State.setPb_adminBacklog (s : State) (p : PBook) : (s.setPb p).adminBacklog = s.adminBacklog := rfl
@[simp] theorem State.setPb_cue (s : State) (p : PBook) : (s.setPb p).cue = s.cue := rfl
@[simp] theorem State.setPb_dup (s : State) (p : PBook) : (s.setPb p).dup = s.dup := rfl
@[simp] theorem State.setPb_keys (s : State) (p : PBook) : (s.setPb p).keys = s.keys := rfl
@[simp] theorem State.setPb_flash (s : State) (p : PBook) : (s.setPb p).flash = s.flash := rfl
@[simp] theorem State.setPb_rehearse (s : State) (p : PBook) : (s.setPb p).rehearse = s.rehearse := rfl
@[simp] theorem State.setPb_mgmt (s : State) (p : PBook) : (s.setPb p).mgmt = s.mgmt := rfl
@[simp] theorem State.setPb_cams (s : State) (p : PBook) : (s.setPb p).cams = s.cams := rfl
@[simp] theorem State.setPb_units (s : State) (p : PBook) : (s.setPb p).units = s.units := rfl
@[simp] theorem State.setPb_digs (s : State) (p : PBook) : (s.setPb p).digs = s.digs := rfl
@[simp] theorem State.setPb_hashes (s : State) (p : PBook) : (s.setPb p).hashes = s.hashes := rfl
@[simp] theorem State.setPb_lsu (s : State) (p : PBook) : (s.setPb p).lsu = s.lsu := rfl
@[simp] theorem State.setPb_dmas (s : State) (p : PBook) : (s.setPb p).dmas = s.dmas := rfl
@[simp] theorem State.setPb_camDeltas (s : State) (p : PBook) : (s.setPb p).camDeltas = s.camDeltas := rfl
@[simp] theorem State.setPb_adminWait (s : State) (p : PBook) : (s.setPb p).adminWait = s.adminWait := rfl
@[simp] theorem State.setPb_snapExport (s : State) (p : PBook) : (s.setPb p).snapExport = s.snapExport := rfl
@[simp] theorem State.setPb_evictedExport (s : State) (p : PBook) : (s.setPb p).evictedExport = s.evictedExport := rfl
@[simp] theorem State.setPb_dupKept (s : State) (p : PBook) : (s.setPb p).dupKept = s.dupKept := rfl
@[simp] theorem State.setPb_changeSeq (s : State) (p : PBook) : (s.setPb p).changeSeq = s.changeSeq := rfl
@[simp] theorem State.setPb_wings (s : State) (p : PBook) : (s.setPb p).wings = s.wings := rfl
@[simp] theorem State.setPb_company (s : State) (p : PBook) : (s.setPb p).company = s.company := rfl

/-! ## setMgmt -/

@[simp] theorem State.setMgmt_pending (s : State) (m : Mgmt) : (s.setMgmt m).pending = s.pending := rfl
@[simp] theorem State.setMgmt_fresh (s : State) (m : Mgmt) : (s.setMgmt m).fresh = s.fresh := rfl
@[simp] theorem State.setMgmt_stamp (s : State) (m : Mgmt) : (s.setMgmt m).stamp = s.stamp := rfl
@[simp] theorem State.setMgmt_beat (s : State) (m : Mgmt) : (s.setMgmt m).beat = s.beat := rfl
@[simp] theorem State.setMgmt_build (s : State) (m : Mgmt) : (s.setMgmt m).build = s.build := rfl
@[simp] theorem State.setMgmt_mdl (s : State) (m : Mgmt) : (s.setMgmt m).mdl = s.mdl := rfl
@[simp] theorem State.setMgmt_regs (s : State) (m : Mgmt) : (s.setMgmt m).regs = s.regs := rfl
@[simp] theorem State.setMgmt_wide (s : State) (m : Mgmt) : (s.setMgmt m).wide = s.wide := rfl
@[simp] theorem State.setMgmt_mem (s : State) (m : Mgmt) : (s.setMgmt m).mem = s.mem := rfl
@[simp] theorem State.setMgmt_host (s : State) (m : Mgmt) : (s.setMgmt m).host = s.host := rfl
@[simp] theorem State.setMgmt_cores (s : State) (m : Mgmt) : (s.setMgmt m).cores = s.cores := rfl
@[simp] theorem State.setMgmt_clusters (s : State) (m : Mgmt) : (s.setMgmt m).clusters = s.clusters := rfl
@[simp] theorem State.setMgmt_irtr (s : State) (m : Mgmt) : (s.setMgmt m).irtr = s.irtr := rfl
@[simp] theorem State.setMgmt_memcs (s : State) (m : Mgmt) : (s.setMgmt m).memcs = s.memcs := rfl
@[simp] theorem State.setMgmt_hep (s : State) (m : Mgmt) : (s.setMgmt m).hep = s.hep := rfl
@[simp] theorem State.setMgmt_tables (s : State) (m : Mgmt) : (s.setMgmt m).tables = s.tables := rfl
@[simp] theorem State.setMgmt_detached (s : State) (m : Mgmt) : (s.setMgmt m).detached = s.detached := rfl
@[simp] theorem State.setMgmt_strike (s : State) (m : Mgmt) : (s.setMgmt m).strike = s.strike := rfl
@[simp] theorem State.setMgmt_pipes (s : State) (m : Mgmt) : (s.setMgmt m).pipes = s.pipes := rfl
@[simp] theorem State.setMgmt_jobs (s : State) (m : Mgmt) : (s.setMgmt m).jobs = s.jobs := rfl
@[simp] theorem State.setMgmt_jobSeq (s : State) (m : Mgmt) : (s.setMgmt m).jobSeq = s.jobSeq := rfl
@[simp] theorem State.setMgmt_qpairs (s : State) (m : Mgmt) : (s.setMgmt m).qpairs = s.qpairs := rfl
@[simp] theorem State.setMgmt_journal (s : State) (m : Mgmt) : (s.setMgmt m).journal = s.journal := rfl
@[simp] theorem State.setMgmt_exports (s : State) (m : Mgmt) : (s.setMgmt m).exports = s.exports := rfl
@[simp] theorem State.setMgmt_journalCodec (s : State) (m : Mgmt) : (s.setMgmt m).journalCodec = s.journalCodec := rfl
@[simp] theorem State.setMgmt_poolGib (s : State) (m : Mgmt) : (s.setMgmt m).poolGib = s.poolGib := rfl
@[simp] theorem State.setMgmt_adminBacklog (s : State) (m : Mgmt) : (s.setMgmt m).adminBacklog = s.adminBacklog := rfl
@[simp] theorem State.setMgmt_cue (s : State) (m : Mgmt) : (s.setMgmt m).cue = s.cue := rfl
@[simp] theorem State.setMgmt_dup (s : State) (m : Mgmt) : (s.setMgmt m).dup = s.dup := rfl
@[simp] theorem State.setMgmt_keys (s : State) (m : Mgmt) : (s.setMgmt m).keys = s.keys := rfl
@[simp] theorem State.setMgmt_flash (s : State) (m : Mgmt) : (s.setMgmt m).flash = s.flash := rfl
@[simp] theorem State.setMgmt_pbook (s : State) (m : Mgmt) : (s.setMgmt m).pbook = s.pbook := rfl
@[simp] theorem State.setMgmt_rehearse (s : State) (m : Mgmt) : (s.setMgmt m).rehearse = s.rehearse := rfl
@[simp] theorem State.setMgmt_cams (s : State) (m : Mgmt) : (s.setMgmt m).cams = s.cams := rfl
@[simp] theorem State.setMgmt_units (s : State) (m : Mgmt) : (s.setMgmt m).units = s.units := rfl
@[simp] theorem State.setMgmt_digs (s : State) (m : Mgmt) : (s.setMgmt m).digs = s.digs := rfl
@[simp] theorem State.setMgmt_hashes (s : State) (m : Mgmt) : (s.setMgmt m).hashes = s.hashes := rfl
@[simp] theorem State.setMgmt_lsu (s : State) (m : Mgmt) : (s.setMgmt m).lsu = s.lsu := rfl
@[simp] theorem State.setMgmt_dmas (s : State) (m : Mgmt) : (s.setMgmt m).dmas = s.dmas := rfl
@[simp] theorem State.setMgmt_camDeltas (s : State) (m : Mgmt) : (s.setMgmt m).camDeltas = s.camDeltas := rfl
@[simp] theorem State.setMgmt_adminWait (s : State) (m : Mgmt) : (s.setMgmt m).adminWait = s.adminWait := rfl
@[simp] theorem State.setMgmt_snapExport (s : State) (m : Mgmt) : (s.setMgmt m).snapExport = s.snapExport := rfl
@[simp] theorem State.setMgmt_evictedExport (s : State) (m : Mgmt) : (s.setMgmt m).evictedExport = s.evictedExport := rfl
@[simp] theorem State.setMgmt_dupKept (s : State) (m : Mgmt) : (s.setMgmt m).dupKept = s.dupKept := rfl
@[simp] theorem State.setMgmt_changeSeq (s : State) (m : Mgmt) : (s.setMgmt m).changeSeq = s.changeSeq := rfl
@[simp] theorem State.setMgmt_wings (s : State) (m : Mgmt) : (s.setMgmt m).wings = s.wings := rfl
@[simp] theorem State.setMgmt_company (s : State) (m : Mgmt) : (s.setMgmt m).company = s.company := rfl

/-! ## setCo -/

@[simp] theorem State.setCo_pending (s : State) (c : Company) : (s.setCo c).pending = s.pending := rfl
@[simp] theorem State.setCo_fresh (s : State) (c : Company) : (s.setCo c).fresh = s.fresh := rfl
@[simp] theorem State.setCo_stamp (s : State) (c : Company) : (s.setCo c).stamp = s.stamp := rfl
@[simp] theorem State.setCo_beat (s : State) (c : Company) : (s.setCo c).beat = s.beat := rfl
@[simp] theorem State.setCo_build (s : State) (c : Company) : (s.setCo c).build = s.build := rfl
@[simp] theorem State.setCo_mdl (s : State) (c : Company) : (s.setCo c).mdl = s.mdl := rfl
@[simp] theorem State.setCo_regs (s : State) (c : Company) : (s.setCo c).regs = s.regs := rfl
@[simp] theorem State.setCo_wide (s : State) (c : Company) : (s.setCo c).wide = s.wide := rfl
@[simp] theorem State.setCo_mem (s : State) (c : Company) : (s.setCo c).mem = s.mem := rfl
@[simp] theorem State.setCo_host (s : State) (c : Company) : (s.setCo c).host = s.host := rfl
@[simp] theorem State.setCo_cores (s : State) (c : Company) : (s.setCo c).cores = s.cores := rfl
@[simp] theorem State.setCo_clusters (s : State) (c : Company) : (s.setCo c).clusters = s.clusters := rfl
@[simp] theorem State.setCo_irtr (s : State) (c : Company) : (s.setCo c).irtr = s.irtr := rfl
@[simp] theorem State.setCo_memcs (s : State) (c : Company) : (s.setCo c).memcs = s.memcs := rfl
@[simp] theorem State.setCo_hep (s : State) (c : Company) : (s.setCo c).hep = s.hep := rfl
@[simp] theorem State.setCo_tables (s : State) (c : Company) : (s.setCo c).tables = s.tables := rfl
@[simp] theorem State.setCo_detached (s : State) (c : Company) : (s.setCo c).detached = s.detached := rfl
@[simp] theorem State.setCo_strike (s : State) (c : Company) : (s.setCo c).strike = s.strike := rfl
@[simp] theorem State.setCo_pipes (s : State) (c : Company) : (s.setCo c).pipes = s.pipes := rfl
@[simp] theorem State.setCo_jobs (s : State) (c : Company) : (s.setCo c).jobs = s.jobs := rfl
@[simp] theorem State.setCo_jobSeq (s : State) (c : Company) : (s.setCo c).jobSeq = s.jobSeq := rfl
@[simp] theorem State.setCo_qpairs (s : State) (c : Company) : (s.setCo c).qpairs = s.qpairs := rfl
@[simp] theorem State.setCo_journal (s : State) (c : Company) : (s.setCo c).journal = s.journal := rfl
@[simp] theorem State.setCo_exports (s : State) (c : Company) : (s.setCo c).exports = s.exports := rfl
@[simp] theorem State.setCo_journalCodec (s : State) (c : Company) : (s.setCo c).journalCodec = s.journalCodec := rfl
@[simp] theorem State.setCo_poolGib (s : State) (c : Company) : (s.setCo c).poolGib = s.poolGib := rfl
@[simp] theorem State.setCo_adminBacklog (s : State) (c : Company) : (s.setCo c).adminBacklog = s.adminBacklog := rfl
@[simp] theorem State.setCo_cue (s : State) (c : Company) : (s.setCo c).cue = s.cue := rfl
@[simp] theorem State.setCo_dup (s : State) (c : Company) : (s.setCo c).dup = s.dup := rfl
@[simp] theorem State.setCo_keys (s : State) (c : Company) : (s.setCo c).keys = s.keys := rfl
@[simp] theorem State.setCo_flash (s : State) (c : Company) : (s.setCo c).flash = s.flash := rfl
@[simp] theorem State.setCo_pbook (s : State) (c : Company) : (s.setCo c).pbook = s.pbook := rfl
@[simp] theorem State.setCo_rehearse (s : State) (c : Company) : (s.setCo c).rehearse = s.rehearse := rfl
@[simp] theorem State.setCo_mgmt (s : State) (c : Company) : (s.setCo c).mgmt = s.mgmt := rfl
@[simp] theorem State.setCo_cams (s : State) (c : Company) : (s.setCo c).cams = s.cams := rfl
@[simp] theorem State.setCo_units (s : State) (c : Company) : (s.setCo c).units = s.units := rfl
@[simp] theorem State.setCo_digs (s : State) (c : Company) : (s.setCo c).digs = s.digs := rfl
@[simp] theorem State.setCo_hashes (s : State) (c : Company) : (s.setCo c).hashes = s.hashes := rfl
@[simp] theorem State.setCo_lsu (s : State) (c : Company) : (s.setCo c).lsu = s.lsu := rfl
@[simp] theorem State.setCo_dmas (s : State) (c : Company) : (s.setCo c).dmas = s.dmas := rfl
@[simp] theorem State.setCo_camDeltas (s : State) (c : Company) : (s.setCo c).camDeltas = s.camDeltas := rfl
@[simp] theorem State.setCo_adminWait (s : State) (c : Company) : (s.setCo c).adminWait = s.adminWait := rfl
@[simp] theorem State.setCo_snapExport (s : State) (c : Company) : (s.setCo c).snapExport = s.snapExport := rfl
@[simp] theorem State.setCo_evictedExport (s : State) (c : Company) : (s.setCo c).evictedExport = s.evictedExport := rfl
@[simp] theorem State.setCo_dupKept (s : State) (c : Company) : (s.setCo c).dupKept = s.dupKept := rfl
@[simp] theorem State.setCo_changeSeq (s : State) (c : Company) : (s.setCo c).changeSeq = s.changeSeq := rfl
@[simp] theorem State.setCo_wings (s : State) (c : Company) : (s.setCo c).wings = s.wings := rfl

end Sys2Proof.Machine
end

