-- ==== Sys2Proof/WellFormed.lean ====
section
/-!
DEFINITION. Which commands are well formed: the operands whose Lean type is wider than what the spec gives them. Every other operand has a
type of exactly its range.
-/
namespace Sys2Proof

/-- A submission entry has at most 32 argument bytes (R409). -/
def Sqe.ok (e : Sqe) : Bool := decide (e.args.length ≤ 32)

/-- The cue master's parameters lie within the ranges of the CUE page (R73). -/
def MasterPar.ok (p : MasterPar) : Bool :=
  decide (20 ≤ p.period.toNat ∧ p.period.toNat ≤ 200 ∧ p.stretch.toNat ≤ 50 ∧ 1 ≤ p.act.toNat ∧ p.act.toNat ≤ 1024 ∧ 6 ≤ p.reserve.toNat ∧
    p.reserve.toNat ≤ 100)

/-- A cue of at most 200 beats stretches by at most 50 % (R27, R60), and no rank is named twice. -/
def Instant.ok (i : Instant) : Bool := decide (i.stretch ≤ 100) && decide i.dead.Nodup && i.master.all MasterPar.ok

/-- Whether a command is well formed: entries with their argument bytes, frames with payloads of the lengths of R437 and R438, windows and
instants within their bounds. -/
def Instr.wellFormed : Instr → Bool
  | .perstDeassert => true
  | .perstAssert => true
  | .bootComplete _ => true
  | .supplyLoss => true
  | .thermalTrip => true
  | .sensorWarning _ => true
  | .sensorCurtainLimit _ => true
  | .watchdogExpiry => true
  | .hotReset => true
  | .flr => true
  | .moduleReset _ => true
  | .pbookVerifyDone => true
  | .d3hotEntry => true
  | .d0Return => true
  | .standbyRequest => true
  | .standbyEntryDone => true
  | .standbyExitRequest => true
  | .standbyExitDone => true
  | .sqDoorbell _ => true
  | .cqDoorbell _ _ => true
  | .entryArrival _ => true
  | .hepFreeze _ _ => true
  | .containRelease => true
  | .containTimeout _ => true
  | .bar0BadSizeAccess _ _ => true
  | .inwinWrite _ data => !data.isEmpty
  | .inwinRead _ len => decide (0 < len)
  | .aqEnable _ => true
  | .journalExportPart => true
  | .createCq e => e.ok
  | .createSq e => e.ok
  | .deleteSq e => e.ok
  | .deleteCq e => e.ok
  | .createJournalQ e => e.ok
  | .getFeature e => e.ok
  | .setFeature e => e.ok
  | .loadPipeline e => e.ok
  | .loadPipelineReplace e => e.ok
  | .unloadPipeline e => e.ok
  | .attachTable e => e.ok
  | .attachTableReattach e => e.ok
  | .detachTable e => e.ok
  | .tableLoad e => e.ok
  | .snapshotExport e => e.ok
  | .camLoad e => e.ok
  | .camFullWriteDone _ => true
  | .startCues e => e.ok
  | .holdCues e => e.ok
  | .rehearse e _ => e.ok
  | .rehearseResume e _ => e.ok
  | .rehearsePrepare e => e.ok
  | .keyImport e => e.ok
  | .attest e => e.ok
  | .fwDownload e => e.ok
  | .fwActivate e => e.ok
  | .fwActivateCommitSvn e => e.ok
  | .txn _ e => e.ok
  | .query _ e => e.ok
  | .queryCancel _ e => e.ok
  | .svcSign _ e => e.ok
  | .svcVerify _ e => e.ok
  | .svcDigest _ e => e.ok
  | .startInstant x => x.ok
  | .heldInstant x => x.ok
  | .commitPoint => true
  | .commitSweep _ => true
  | .stretchBound => true
  | .actSealSigned _ => true
  | .strikePassStart => true
  | .strikePassDone _ => true
  | .analyticJobStart _ => true
  | .analyticJobEnd _ _ => true
  | .add _ _ => true
  | .sub _ _ => true
  | .and _ _ => true
  | .or _ _ => true
  | .xor _ _ => true
  | .andn _ _ => true
  | .sll _ _ => true
  | .srl _ _ => true
  | .sra _ _ => true
  | .rotl _ _ => true
  | .slt _ _ => true
  | .sltu _ _ => true
  | .min _ _ => true
  | .minu _ _ => true
  | .max _ _ => true
  | .maxu _ _ => true
  | .clz _ _ => true
  | .ctz _ _ => true
  | .popc _ _ => true
  | .bswap _ _ => true
  | .crc32cB _ _ => true
  | .crc32cH _ _ => true
  | .crc32cW _ _ => true
  | .crc32cD _ _ => true
  | .mul _ _ => true
  | .mulh _ _ => true
  | .mulhu _ _ => true
  | .div _ _ => true
  | .divu _ _ => true
  | .rem _ _ => true
  | .remu _ _ => true
  | .jalr _ _ => true
  | .addi _ _ => true
  | .andi _ _ => true
  | .ori _ _ => true
  | .xori _ _ => true
  | .slti _ _ => true
  | .sltiu _ _ => true
  | .sllImm _ _ => true
  | .srlImm _ _ => true
  | .sraImm _ _ => true
  | .rotlImm _ _ => true
  | .movz _ _ => true
  | .movk _ _ => true
  | .ldb _ _ _ => true
  | .ldbu _ _ _ => true
  | .ldh _ _ _ => true
  | .ldhu _ _ _ => true
  | .ldw _ _ _ => true
  | .ldwu _ _ _ => true
  | .ldd _ _ _ => true
  | .ldres _ _ _ => true
  | .stb _ _ => true
  | .sth _ _ => true
  | .stw _ _ => true
  | .std _ _ => true
  | .stcond _ _ => true
  | .pfL1 _ _ => true
  | .pfL2 _ _ => true
  | .clean _ _ => true
  | .inval _ _ => true
  | .cleanInval _ _ => true
  | .beq _ _ => true
  | .bne _ _ => true
  | .blt _ _ => true
  | .bge _ _ => true
  | .bltu _ _ => true
  | .bgeu _ _ => true
  | .jal _ _ => true
  | .mfs _ _ => true
  | .mts _ _ => true
  | .take _ _ => true
  | .done _ _ _ => true
  | .barS _ _ => true
  | .barA _ _ => true
  | .barIo _ _ => true
  | .ret _ _ => true
  | .trap _ _ => true
  | .vadd _ _ _ => true
  | .vsub _ _ _ => true
  | .vmul _ _ _ => true
  | .vmulh _ _ _ => true
  | .vmulhu _ _ _ => true
  | .vmin _ _ _ => true
  | .vminu _ _ _ => true
  | .vmax _ _ _ => true
  | .vmaxu _ _ _ => true
  | .vand _ _ _ => true
  | .vor _ _ _ => true
  | .vxor _ _ _ => true
  | .vandn _ _ _ => true
  | .vsll _ _ _ => true
  | .vsrl _ _ _ => true
  | .vsra _ _ _ => true
  | .vrotl _ _ _ => true
  | .vaddsu _ _ _ => true
  | .vsubsu _ _ _ => true
  | .vadds _ _ _ => true
  | .vsubs _ _ _ => true
  | .vcmpEq _ _ _ => true
  | .vcmpNe _ _ _ => true
  | .vcmpLt _ _ _ => true
  | .vcmpLtu _ _ _ => true
  | .vcmpLe _ _ _ => true
  | .vcmpLeu _ _ _ => true
  | .vcmpGt _ _ _ => true
  | .vcmpGtu _ _ _ => true
  | .vcmpGe _ _ _ => true
  | .vcmpGeu _ _ _ => true
  | .vcmpTest _ _ _ => true
  | .mand _ _ => true
  | .mor _ _ => true
  | .mxor _ _ => true
  | .mandn _ _ => true
  | .mnot _ _ => true
  | .mset _ _ => true
  | .mclr _ _ => true
  | .mpop _ _ => true
  | .mfirst _ _ => true
  | .vsel _ _ => true
  | .vsetvl _ _ => true
  | .vsplat _ _ => true
  | .vext _ _ => true
  | .vins _ _ => true
  | .vmv _ _ => true
  | .viota _ _ => true
  | .vslideup _ _ => true
  | .vslidedn _ _ => true
  | .vtbl _ _ _ _ => true
  | .vtbl2 _ _ _ => true
  | .vld _ _ => true
  | .vst _ _ => true
  | .vlds _ _ => true
  | .vsts _ _ => true
  | .vgatherW _ _ => true
  | .vgatherD _ _ => true
  | .vscatterW _ _ => true
  | .vscatterD _ _ => true
  | .vldm _ _ => true
  | .vstm _ _ => true
  | .vcompress _ _ => true
  | .vexpand _ _ => true
  | .vredadd _ _ => true
  | .vredadds _ _ => true
  | .vredaddsu _ _ => true
  | .vredmin _ _ => true
  | .vredminu _ _ => true
  | .vredmax _ _ => true
  | .vredmaxu _ _ => true
  | .vredand _ _ => true
  | .vredor _ _ => true
  | .vredxor _ _ => true
  | .interruptAccept _ _ cores => !cores.isEmpty && decide cores.Nodup
  | .storeAccepted _ => true
  | .remoteStoreLost _ => true
  | .cluSoftReset _ => true
  | .cluCoreReset _ _ => true
  | .coreSoftReset _ => true
  | .cluEnable _ _ => true
  | .cluModeWrite _ _ => true
  | .dispPost _ _ => true
  | .dispSignal _ _ _ => true
  | .dispDelay _ _ _ => true
  | .delayExpiry _ _ => true
  | .taskEnable _ _ _ => true
  | .taskMaskWrite _ _ _ => true
  | .taskFlagsClear _ _ _ => true
  | .dispatchDeliver _ => true
  | .cicSourceEvent _ _ => true
  | .swiRaise _ _ => true
  | .moderationExpiry _ _ => true
  | .cicSoftReset _ => true
  | .sidebandEdge _ _ _ _ => true
  | .irtrSoftReset => true
  | .scanSubmit _ _ _ => true
  | .scanJobStart _ => true
  | .scanJobDone _ => true
  | .scanAbort _ _ => true
  | .scanSoftReset _ _ => true
  | .probeSubmitFg _ _ _ => true
  | .probeSubmitBg _ _ _ => true
  | .probeJobStart _ => true
  | .probeJobDone _ => true
  | .probeAbort _ _ => true
  | .probeSoftReset _ _ => true
  | .fcodecSubmit _ _ _ => true
  | .fcodecWalk _ => true
  | .fcodecParse _ => true
  | .fcodecBuild _ => true
  | .fcodecJobDone _ => true
  | .fcodecAbort _ => true
  | .fcodecSoftReset _ => true
  | .camSubmit _ _ _ => true
  | .camSearch _ => true
  | .camJobDone _ => true
  | .camDiagSearch _ _ => true
  | .camAbort _ => true
  | .camSoftReset _ => true
  | .cascadeSearchLost _ _ => true
  | .digSubmit _ _ _ => true
  | .digestOneshot _ _ => true
  | .digestStart _ _ => true
  | .digestContinue _ _ => true
  | .digestFinish _ _ => true
  | .digJobDone _ _ => true
  | .digResultRead _ _ => true
  | .digAbort _ => true
  | .digSoftReset _ => true
  | .lsuSubmit _ _ _ => true
  | .larkspurSign _ => true
  | .larkspurVerify _ => true
  | .lsuJobDone _ _ => true
  | .lsuSoftReset _ => true
  | .dmaKick _ _ => true
  | .dmaChEnable _ _ _ => true
  | .dmaChDisable _ _ _ => true
  | .dmaBaseWrite _ _ _ => true
  | .dmaCopy _ _ => true
  | .dmaIndexedCopy _ _ => true
  | .dmaWriteBack _ => true
  | .dmaSoftReset _ => true
  | .cmpSubmit _ _ _ => true
  | .cmpSubmitSm _ _ _ => true
  | .cmpCompress _ _ _ => true
  | .cmpDecompress _ _ => true
  | .cmpJobDone _ => true
  | .cmpFlush _ _ => true
  | .cmpAbort _ => true
  | .cmpSoftReset _ => true
  | .greenWaysWrite _ _ => true
  | .convertDone _ => true
  | .l2MaintClean _ _ _ _ => true
  | .l2MaintInval _ _ _ _ => true
  | .l2MaintCleanInval _ _ _ _ => true
  | .maintDone _ => true
  | .l2Preload _ _ _ => true
  | .preloadDone _ => true
  | .lockWaysWrite _ _ => true
  | .lfsrSeedWrite _ _ => true
  | .l2Disable _ => true
  | .bypass _ => true
  | .l2Enable _ => true
  | .l2SoftReset _ => true
  | .l2EccUe _ _ => true
  | .memcEnable _ => true
  | .memcDisable _ => true
  | .memcTrainMode _ => true
  | .memcServiceMode _ => true
  | .memcSoftReset _ => true
  | .memcFreeze _ _ => true
  | .memcCorrectableError _ _ => true
  | .patrolScrub _ => true
  | .refresh _ => true
  | .dramHot _ _ => true
  | .selfRefreshDone _ => true
  | .trainWritePattern _ _ => true
  | .trainReadCompare _ _ => true
  | .trainWriteReadCompare _ _ => true
  | .trainCaCheck _ _ => true
  | .trainLevelCheck _ _ => true
  | .trainDramPattern _ _ => true
  | .trainDone _ laneErr => decide (laneErr.length ≤ 10) && laneErr.all (fun e => decide (e < 65536))
  | .wingEnable _ _ => true
  | .receiverDetect _ => true
  | .equalizeDone _ => true
  | .alignDone _ _ => true
  | .linkTrainTimeout _ => true
  | .linkRetrain _ => true
  | .retrainTimeout _ => true
  | .presentNHigh _ => true
  | .wingSoftReset _ => true
  | .hello _ _ payload => decide (payload.length ≤ 4096) && decide (payload.length % 8 = 0)
  | .auth _ _ payload => decide (payload.length ≤ 4096) && decide (payload.length % 8 = 0)
  | .bye _ _ _ => true
  | .heartbeat _ _ _ _ => true
  | .heartbeatSend _ => true
  | .nak _ _ _ => true
  | .credit _ _ => true
  | .replayTimeout _ => true
  | .yield _ _ _ _ => true
  | .role _ _ _ _ _ => true
  | .arrival _ _ payload => decide (payload.length ≤ 4096) && decide (payload.length % 8 = 0)
  | .seal _ _ payload => decide (payload.length ≤ 4096) && decide (payload.length % 8 = 0)
  | .digest _ _ _ _ inp out dig => decide (inp.length = 64) && decide (out.length = 64) && decide (dig.length = 64)
  | .changeOk _ _ _ _ => true
  | .pin _ _ _ _ _ => true
  | .readReq _ _ _ _ _ => true
  | .writeReq _ _ _ _ _ data => decide (data.length = 256)
  | .readRsp _ _ _ _ data => decide (data.length ≤ 256)
  | .writeAck _ _ _ _ => true
  | .change _ _ _ _ _ _ data => decide (data.length ≤ 4072)
  | .catchup _ _ _ => true
  | .delta _ _ payload => decide (payload.length ≤ 4096) && decide (payload.length % 8 = 0)
  | .ready _ _ _ => true
  | .lock _ _ _ => true
  | .searchKey _ _ _ _ _ _ => true
  | .searchResult _ _ _ _ _ _ _ => true
  | .searchResolved _ _ _ _ res => decide (res.length = 24)
  | .matchReport _ _ => true
  | .cueSyncEdge _ => true
  | .leadLost => true
  | .setStateEffecter _ _ => true
  | .stateSkew _ _ => true
  | .keyComponent _ _ _ val => decide (val.length = 32)
  | .requestUpdate => true
  | .passComponentTable => true
  | .updateComponent _ => true
  | .requestFirmwareData _ _ => true
  | .transferComplete => true
  | .verifyComplete => true
  | .applyComplete => true
  | .activateFirmware => true
  | .getVersion _ => true
  | .getCapabilities _ => true
  | .negotiateAlgorithms _ _ => true
  | .getMeasurements _ => true
  | .challenge _ => true
  | .spdmUnsupportedRequest _ => true
  | .cueSoftReset => true
  | .commitSoftReset => true
  | .strikeSoftReset => true
  | .dispSoftReset _ => true
  | .keysSoftReset => true
  | .pbookSoftReset => true
  | .hepSoftReset => true
  | .qengSoftReset => true
  | .companySoftReset => true
  | .modctlSoftReset => true
  | .pwrSoftReset => true
  | .mgmtSoftReset => true
  | .expertKeyWrite _ _ _ => true
  | .errClear _ _ => true
  | .evtForceWrite _ _ _ => true
  | .evtRawClear _ _ _ => true
  | .registerWrite _ _ _ _ => true
  | .supplyRestored _ => true
  | .pcieLinkUp _ _ => true
  | .busMasterEnableWrite _ => true
  | .msixUnmask _ => true
  | .refclkStop => true
  | .refclkRestore => true
  | .wingLinkError _ _ => true
  | .dramTempNormal _ => true
  | .flashWriteDone _ => true
  | .mctpControlMessage _ _ => true
  | .snapshotExportDone => true

end Sys2Proof
end

