-- ==== Sys2Proof/Tests/Slice0.lean ====
section
/-!
SUPPORT. Tests of the model: for every statement with hypotheses a state and operands that meet them, at the edges of their ranges; the worked
examples of the spec that one command or one operation covers; and an ill-formed term for each check of WellFormed. Expected values come from the
spec's examples and tables, or from hand calculation from its rules.
-/
namespace Sys2Proof.Tests
set_option Elab.async false
open Sys2Proof Sys2Proof.Machine

/-! ## States -/

/-- A module in READY with every controller serving. -/
def ready : State :=
  { State.reset with
    mdl := { State.reset.mdl with st := .ready }
    memcs := (List.range 22).map (fun i => (i, { Memc.reset with unit := 2, trained := true })) }

/-- The core whose instructions the tests run. -/
def w0 : CoreRef := ⟨0, 0, false⟩

/-- A ready module with cluster 0 enabled and one core as given, whose next instruction is in its L1 instruction cache. -/
def coreState (x : Core) : State :=
  ((ready.setReg (pageOf .clu 0) 0x008 1).setCluster 0 { Cluster.reset with l1i := [(0, x.pc.toNat / 128)] }).setCoreAt 0 x

/-- A core in firmware mode that is about to run the instruction at 0x1000. -/
def x0 : Core := { Core.reset with pc := 0x1000 }

theorem fetches_of {s : State} {w : CoreRef} (h : s.coreRuns (coreKey w) = true ∧ (s.core w).budgetStop = none ∧
    s.checkAccess (coreKey w) .fetch (s.core w).pc.toNat 4 = none ∧ s.fetchWaits (coreKey w) (s.core w).pc.toNat = false) : s.Fetches w := h

theorem ready_of {s : State} {w : CoreRef} (h1 : s.coreRuns (coreKey w) = true) (h2 : (s.core w).budgetStop = none)
    (h3 : s.checkAccess (coreKey w) .fetch (s.core w).pc.toNat 4 = none) (h4 : (s.core w).held = none ∧ s.l1iHeld (coreKey w) (s.core w).pc.toNat = true ∧ w.parity = false) : s.CoreReady w :=
  ⟨⟨h1, h2, h3, by unfold State.fetchWaits; rw [h4.2.1]; simp⟩, h4.2.2, fun _ => h4.2.1, fun _ hh => by rw [h4.1] at hh; cases hh⟩

theorem test_core_ready : (coreState x0).Canon ∧ (coreState x0).CoreReady w0 :=
  ⟨by unfold State.Canon Rising; decide +kernel,
   ready_of (by decide +kernel) (by decide +kernel) (by decide +kernel) (by decide +kernel)⟩
/-! ## Cores: the hypotheses of the statements can be met -/

/-- The canonical form of a state that lists nothing but evaluable tables. -/
theorem core_canon : (coreState x0).Canon := test_core_ready.1

theorem test_hyp_fields : (⟨3, 4, 0⟩ : FmtA).rb = 0 ∧ (⟨3, 4, 0, 63⟩ : FmtSh).hi = 0 ∧ (⟨3, 3, 0xFFFF⟩ : FmtI).ra.toNat < 4 ∧
    (⟨3, 4, 1⟩ : FmtA).rb ≠ 0 ∧ (⟨3, 4, 1, 0⟩ : FmtSh).hi ≠ 0 ∧ 4 ≤ (⟨3, 4, 0⟩ : FmtI).ra.toNat ∧ (⟨3, 1, 0⟩ : FmtB).rb ≠ 0 ∧
    (⟨7, 0, 0, 1, 0⟩ : FmtV).msk ≠ 0 ∧ (⟨7, 0, 1, 0, 0⟩ : FmtV).vb ≠ 0 ∧ (⟨7, 0, 0, 0, 0⟩ : FmtV).vd.toNat < 8 := by decide

/-- A core with an address in g1. -/
def xAt (a : Word64) : Core := x0.setGr 1 a

theorem test_hyp_load : (coreState (xAt 0x2000)).CoreReady w0 ∧
    (coreState (xAt 0x2000)).LoadServed w0 (((coreState (xAt 0x2000)).core w0).memAddr ⟨2, 1, 0xFFF⟩ 8) 8 ∧
    (coreState (xAt 0x2000)).LoadServed w0 (((coreState (xAt 0x2000)).core w0).memAddr ⟨2, 1, 0x7FF⟩ 1) 1 ∧
    (coreState (xAt 0x2000)).LoadServed w0 (((coreState (xAt 0x2000)).core w0).memAddr ⟨2, 1, 1⟩ 2) 2 ∧
    (coreState (xAt 0x2000)).LoadServed w0 (((coreState (xAt 0x2000)).core w0).memAddr ⟨2, 1, 0⟩ 4) 4 := by
  refine ⟨ready_of ?_ ?_ ?_ ?_, ?_, ?_, ?_, ?_⟩ <;> (try unfold State.LoadServed) <;> decide +kernel

theorem test_hyp_store : ((coreState (xAt 0x2000)).core w0).ioOpen = false ∧
    (coreState (xAt 0x2000)).checkAccess (coreKey w0) .store 0x2000 8 = none ∧ (coreState (xAt 0x2000)).classOf 0x2000 ≠ .register ∧
    ((coreState (xAt 0x2000)).core w0).sb.length + sbNeeds ((coreState (xAt 0x2000)).core w0).sb 0x2000 8 ≤ 16 := by decide +kernel

theorem test_hyp_misaligned : ((coreState (xAt 0x2001)).core w0).mode ≠ .handler ∧
    ((coreState (xAt 0x2001)).core w0).memAddr ⟨2, 1, 0⟩ 2 % 2 ≠ 0 ∧ ((coreState (xAt 0x2001)).core w0).memAddr ⟨2, 1, 0⟩ 4 % 4 ≠ 0 ∧
    ((coreState (xAt 0x2001)).core w0).memAddr ⟨2, 1, 0⟩ 8 % 8 ≠ 0 := by decide +kernel

/-- A core with a reservation on the granule of 0x2000. -/
def xResv : Core := { xAt 0x2000 with resv := some (0x2000, 128) }

theorem test_hyp_reservation : (coreState xResv).CoreReady w0 ∧ ((coreState xResv).core w0).inTxn = false ∧
    (coreState xResv).LoadServed w0 0x2000 8 ∧ (coreState xResv).checkAccess (coreKey w0) .store 0x2000 8 = none ∧
    (coreState xResv).reservable 0x2000 = true ∧ ((coreState xResv).core w0).resv = some (0x2000, 128) ∧
    ((coreState (xAt 0x2000)).core w0).resv = none := by
  refine ⟨ready_of ?_ ?_ ?_ ?_, ?_, ?_, ?_, ?_, ?_, ?_⟩ <;> (try unfold State.LoadServed) <;> decide +kernel

/-- A core with two bytes of memory, and one of the host window, in its store buffer. -/
def xBuffered : Core := { x0 with sb := [⟨.memory, 0x20, [(0, 7), (255, 9)], false, false⟩] }
/-- The entry of a host window store. -/
def hostEntry : SbEntry := ⟨.remote, 0xE000000000, [(0, 7)], false, false⟩

theorem test_hyp_store_leaves : (coreState xBuffered).Canon ∧
    ((coreState xBuffered).core w0).sb = [⟨.memory, 0x20, [(0, 7), (255, 9)], false, false⟩] ∧
    (∀ o, o < 256 → (coreState xBuffered).classOf (0x20 * 256 + o) = .memory ∧ (coreState xBuffered).populated (0x20 * 256 + o) = true ∧
      (coreState xBuffered).frozenAt (0x20 * 256 + o) = false) ∧ (coreState xBuffered).l2Waits w0.c.val = false := by
  refine ⟨?_, ?_, ?_, ?_⟩
  · unfold State.Canon Rising; decide +kernel
  all_goals decide +kernel

theorem test_hyp_store_lost : (coreState { x0 with sb := [hostEntry] }).classOf (hostEntry.block * 256) = .remote ∧
    (coreState { x0 with sb := [hostEntry] }).region (hostEntry.block * 256) = .host ∧
    (coreState { x0 with sb := [hostEntry] }).hostReachable = false ∧ hostEntry.bytes.length = 1 := by
  decide +kernel
/-- A module whose L2 holds the line of 0x2000 at set 0, way 3, dirty. -/
def cachedState : State :=
  (coreState (xAt 0x2000)).setCluster 0 { Cluster.reset with
    l1i := [(0, 0x20)]
    l2 := { lines := [(3, some ⟨0x40, true, List.replicate 128 0⟩)], op := none } }

theorem test_hyp_cache : cachedState.Canon ∧ cachedState.CoreReady w0 ∧ ((cachedState).core w0).mode ≠ .operator ∧
    cachedState.cacheable 0x2000 = true ∧ l2Find (cachedState.cluster 0).l2 (0x2000 / 128) = some 3 ∧
    l2At (cachedState.cluster 0).l2 3 = some ⟨0x40, true, List.replicate 128 0⟩ := by
  refine ⟨?_, ready_of ?_ ?_ ?_ ?_, ?_, ?_, ?_, ?_⟩
  · unfold State.Canon Rising; decide +kernel
  all_goals decide +kernel

/-- The core in operator mode, with a protection region over HBM that allows every access. -/
def operatorState (x : Core) : State :=
  (((coreState { x with mode := .operator }).setReg (corePage 0) 0x400 0xF).setReg (corePage 0) 0x408 0xFFFFF000).setReg (corePage 0) 0x40C 0x35

theorem test_hyp_operator : (operatorState (xAt 0x2000)).Canon ∧ (operatorState (xAt 0x2000)).CoreReady w0 ∧
    ((operatorState (xAt 0x2000)).core w0).mode = .operator ∧ (operatorState (xAt 0x2000)).checkAccess 0 .load 0x2000 8 = none := by
  refine ⟨?_, ready_of ?_ ?_ ?_ ?_, ?_, ?_⟩
  · unfold State.Canon Rising; decide +kernel
  all_goals decide +kernel

theorem test_handler_ready : (coreState { x0 with mode := .handler }).CoreReady w0 ∧ ((coreState { x0 with mode := .handler }).core w0).mode = .handler :=
  ⟨ready_of (by decide +kernel) (by decide +kernel) (by decide +kernel) (by decide +kernel), by decide +kernel⟩

/-- A checked item with no OPS left. -/
def spentItem : Held := { item := ⟨1, 0, 0, 0, 0, 0, 0⟩, task := none, fg := true, checked := true }

theorem test_hyp_budget : (coreState { x0 with held := some spentItem }).coreRuns 0 = true ∧
    ((coreState { x0 with held := some spentItem }).core w0).held = some spentItem ∧ spentItem.checked = true ∧
    (((coreState { x0 with held := some spentItem }).core w0).bud 0).toNat <
      (((coreState { x0 with held := some spentItem }).core w0).cnt 0).toNat + 1 := by decide +kernel

/-! ## Vectors -/

/-- The offsets of the worked example of chapter 6: element e is e × 0x100, but element 4. -/
def exampleOffsets : VWord :=
  (List.range 16).foldl (fun v e => v ||| (BitVec.ofNat 2048 (if e = 4 then 0x00FFEE000000 else e * 0x100) <<< (64 * e))) 0

/-- The core before the gather of the worked example. -/
def gatherCore : Core :=
  { (((x0.setGr 6 16).setGr 10 0x000012000000).setVr 2 exampleOffsets) with pc := 0x000008400A3C, vl := 16 }

/-- Before the gather: operator mode, a region over HBM alone. -/
def gatherState : State := operatorState gatherCore

/-- What a command leaves. -/
def after (i : Instr) (s : State) : State := match exec i s with
  | .next t => t
  | _ => s

theorem test_gather_example :
    let t := after (.vgatherD w0 ⟨⟨8, 10, 2, 0, 3⟩, false⟩) gatherState
    (t.reg (corePage 0) 0x05C).toNat % 512 = 0x104 ∧ t.fld (corePage 0) 0x060 7 0 = 4 ∧
      t.pageAddr (corePage 0) 0x064 0x068 = 0x010000000000 ∧ t.reg (corePage 0) 0x06C = 0x950A10CC ∧
      t.pageAddr (corePage 0) 0x054 0x058 = 0x000008400A3C ∧ (t.core w0).cnt 0 = 0 ∧ (t.core w0).vr 8 = 0 := by decide +kernel

theorem test_setvl_example :
    let t := after (.vsetvl w0 ⟨5, 6, 0, 0, 3⟩) gatherState
    (t.core w0).vl = 16 ∧ (t.core w0).gr 5 = 16 := by decide +kernel

theorem test_gather_hyp : gatherState.CoreReady w0 ∧ VecAddr.fits ⟨8, 10, 2, 0, 3⟩ (.index 64) ∧ VecAddr.fits ⟨8, 10, 31, 0, 3⟩ (.index 32) ∧
    ¬ VecAddr.fits ⟨8, 10, 31, 0, 0⟩ (.index 64) := by
  refine ⟨ready_of ?_ ?_ ?_ ?_, ?_, ?_, ?_⟩
  all_goals first | (unfold VecAddr.fits; decide +kernel) | decide +kernel

/-- One element of 8 bytes at 0x2000, by every form of address. -/
def vecCore : Core := { xAt 0x2000 with vl := 1 }
/-- Its operands. -/
def vecF : FmtV := ⟨8, 1, 0, 0, 3⟩

theorem vec_active : ∀ e, (((coreState vecCore).core w0).active vecF.ew vecF.msk e) = true → e = 0 := by
  intro e h
  have h2 : ((coreState vecCore).core w0).activeLen vecF.ew = 1 := by decide +kernel
  simp only [Core.active, h2, Bool.and_eq_true, decide_eq_true_eq] at h
  omega

theorem test_hyp_vector : ((coreState vecCore).core w0).active vecF.ew vecF.msk 0 = true ∧
    (∀ form, form = VecAddr.unit ∨ form = .stride ∨ form = .index 32 ∨ form = .index 64 → form.fits vecF ∧
      (∀ e, ((coreState vecCore).core w0).active vecF.ew vecF.msk e = true →
        (coreState vecCore).LoadServed w0 (((coreState vecCore).core w0).elemAddr vecF form e) (ewBits vecF.ew / 8) ∧
        (coreState vecCore).classOf (((coreState vecCore).core w0).elemAddr vecF form e) = .memory ∧
        (coreState vecCore).checkAccess (coreKey w0) .store (((coreState vecCore).core w0).elemAddr vecF form e) (ewBits vecF.ew / 8) = none) ∧
      (((coreState vecCore).core w0).vecStored vecF form).length ≤ 16) := by
  refine ⟨by decide +kernel, fun form h => ?_⟩
  rcases h with rfl | rfl | rfl | rfl
  all_goals
    refine ⟨by unfold VecAddr.fits; decide +kernel, fun e he => ?_, by decide +kernel⟩
    rw [vec_active e he]
    refine ⟨by unfold State.LoadServed; decide +kernel, by decide +kernel, by decide +kernel⟩

/-- Two elements by 32-bit offsets, the second in the register pages. -/
def classCore : Core := ({ xAt 0 with vl := 2 }.setGr 1 0xF00000000000).setVr 2 0
/-- Its operands. -/
def classF : FmtV := ⟨8, 1, 2, 0, 2⟩

theorem test_hyp_class : ((coreState classCore).core w0).active classF.ew classF.msk 0 = true ∧
    (coreState classCore).classOf (((coreState classCore).core w0).elemAddr classF (.index 32) 0) ≠ .memory ∧
    VecAddr.fits classF (.index 32) := by
  refine ⟨by decide +kernel, by decide +kernel, by unfold VecAddr.fits; decide +kernel⟩

/-- Mask, table and reduction operands at the edges of their ranges. -/
theorem test_hyp_vector_fields : (⟨7, 7, 7, 0, 0⟩ : FmtV).vd.toNat < 8 ∧ ewCount 0 = 256 ∧ ewCount 3 = 32 ∧
    (let f : FmtV := ⟨5, 28, 4, 0, 0⟩; f.va.toNat + 2 ^ 2 ≤ 32 ∧ f.vb.toNat + (2048 / ewBits f.ew * 16 + 2047) / 2048 ≤ 32) ∧
    (let f : FmtV := ⟨5, 29, 4, 0, 0⟩; ¬ f.va.toNat + 2 ^ 2 ≤ 32) ∧
    (let f : FmtV := ⟨5, 28, 4, 0, 0⟩; f.va.toNat + 3 + 1 ≤ 32) ∧ (let f : FmtV := ⟨5, 29, 4, 0, 0⟩; 32 < f.va.toNat + 3 + 1) := by
  decide +kernel
/-! ## Clusters -/

/-- A state with the expert lock of a page off. -/
def unlocked (s : State) (page : Nat) : State := s.setReg page 0x034 1

/-- A background item. -/
def bgItem : QItem := { item := ⟨2, 4, 0, 0, 5, 6, 7⟩, fg := false, stamp := some 3, budgets := [] }

/-- Cluster 0 with one background item, one delay of each kind, and core 2 waiting in TAKE. -/
def dispState : State :=
  ((unlocked (ready.setReg (pageOf .clu 0) 0x008 1) (dispPage 0)).setCoreAt 2 { x0 with take := some (1, 9) }).setDisp 0
    { items := [bgItem], bgKeys := [5], taskStamp := [], beatDelays := [⟨40, 3, 1⟩], cueDelays := [⟨0, 4, 2⟩] }

theorem test_hyp_disp : dispState.Canon ∧ dispState.fld (dispPage 0) 0x034 0 0 = 1 ∧ dispState.dispatching = true ∧
    dispState.longestWaiting 0 = some 2 ∧ (dispState.disp 0).items[0]? = some bgItem ∧ (dispState.coreAt 2).take = some (1, 9) ∧
    (dispState.dispSelect 0).map (fun x => (x.what, x.fg)) = some (.item 0, false) ∧ dispState.taskState 0 3 = 0 ∧
    (dispState.disp 0).beatDelays = [⟨40, 3, 1⟩] ∧ dispState.cue.number = 0 ∧
    (0x100#32).toNat / 256 ≠ 0 ∧ (0x100#32).getLsbD 7 = false ∧ (0x180#32).getLsbD 7 = true := by
  refine ⟨by unfold State.Canon Rising; decide +kernel, ?_⟩
  decide +kernel

/-- Task 3 enabled, waiting and ready. -/
theorem test_task_states :
    let s1 := after (.taskEnable 0 3 0x80000000) dispState
    let s2 := after (.dispSignal 0 1 3) (after (.taskMaskWrite 0 3 1) s1)
    s1.taskState 0 3 = 1 ∧ s2.taskState 0 3 = 2 ∧ (after (.taskFlagsClear 0 3 1) s2).reg (dispPage 0) (taskOff 3 + 8) = 0 ∧
      (ready.fld (dispPage 0) 0x034 0 0 = 0 ∧ ready.reg (dispPage 0) 0x020 = 0) := by decide +kernel

theorem test_hyp_post : ready.rangeOk 0x3000 64 = true ∧ ready.rangeOk 0x02F000000000 64 = false ∧ ready.Canon := by
  refine ⟨by decide +kernel, by decide +kernel, ?_⟩
  unfold State.Canon Rising; decide +kernel

theorem test_post :
    let r := (⟨2, 4, 0, 0, 5, 6, 7⟩ : ItemRec)
    let s := { ready with mem := Sparse.setRun blankByte ready.mem 0x3000 r.bytes }
    ((after (.dispPost 0 0x3000) s).disp 0).items.map (fun q => (q.item, q.fg)) = [(r, false)] ∧
      ((after (.dispPost 0 0x4000) s).disp 0).items = [] ∧ (after (.dispPost 0 0x4000) s).bytesAt 0x4020 2 = [2, 0] := by decide +kernel

/-- Cluster 0 with software source 40 pending and enabled for cores 0 and 1. -/
def irqState : State :=
  (((((ready.setReg (pageOf .clu 0) 0x008 1).setReg (cicPage 0) 0x008 1).setReg (cicPage 0) 0x054 0x100).setReg (cicPage 0) (srcOff 40) 3).setCoreAt 0 x0).setCic 0
    { edge := 1 <<< 40, moderated := 0 }

theorem test_hyp_irq : irqState.Canon ∧ irqState.offerTo 0 0 = some 40 ∧ irqState.offerTo 0 1 = some 40 ∧ cicLevel 40 = false := by
  refine ⟨by unfold State.Canon Rising; decide +kernel, ?_⟩
  decide +kernel

theorem test_irq_steers :
    let t := after (.interruptAccept 0 40 [0, 1]) irqState
    (t.coreAt 0).pc.toNat = irqState.vbase 0 + 64 * 40 ∧ (t.coreAt 1).pc.toNat = irqState.vbase 0 + 64 * 63 ∧ t.cicPending 0 40 = false := by
  decide +kernel

theorem test_hyp_sideband : ready.irtr.refclk = true ∧ ready.fld irtrPage 0x0C0 7 0 ≤ 5000 ∧
    0 < ready.fld irtrPage 0x0C0 7 0 ∧ Sparse.get (fun _ => true) ready.irtr.alert 0 = true ∧ ready.lstate 0 ≠ 5 := by decide +kernel

theorem test_hyp_reset : ready.running = false ∧ (unlocked ready (pageOf .clu 0)).fld (pageOf .clu 0) 0x034 0 0 = 1 ∧
    ready.cluEn 0 = false ∧ (coreState x0).cluEn 0 = true ∧ (1#4).toNat ≠ ready.fld (pageOf .clu 0) 0x008 7 4 := by decide +kernel

/-- A module that runs a cue. -/
def running : State := { ready with cue := { ready.cue with unit := 2, number := 1 } }

theorem test_hyp_running : running.Canon ∧ running.running = true ∧ running.reg (pageOf .clu 0) 0x020 = 0 ∧ running.reg (l2Page 0) 0x020 = 0 ∧
    running.memcInUse = true := by
  refine ⟨by unfold State.Canon Rising; decide +kernel, ?_⟩
  decide +kernel
/-! ## Cluster L2 and memory controllers -/

/-- Cluster 0 with every core waiting in TAKE, and an operation of its L2 in progress or none. -/
def idleCluster (op : Option L2Op) : State :=
  ({ ready with cores := (List.range 16).map (fun k => (k, { x0 with take := some (k, 1) })) }).setCluster 0
    { Cluster.reset with l2 := { lines := [(3, some ⟨0x40, true, List.replicate 128 7⟩)], op := op } }

theorem test_hyp_green : (idleCluster none).Canon ∧ (idleCluster none).clusterActive 0 = false ∧ (idleCluster none).running = false ∧
    (idleCluster none).fld (l2Page 0) 0x400 11 0 = 0 ∧ ((idleCluster none).cluster 0).l2.op = none ∧
    ((idleCluster (some (.convert 12))).cluster 0).l2.op = some (.convert 12) ∧ (12#32).toNat % 16 ≤ 12 ∧
    l2At ((idleCluster none).cluster 0).l2 3 = some ⟨0x40, true, List.replicate 128 7⟩ ∧ (List.replicate 128 (7 : Byte)).length = 128 ∧
    (idleCluster none).bypassed 0 = false := by
  refine ⟨by unfold State.Canon Rising; decide +kernel, ?_⟩
  decide +kernel

/-- The example of R245: cluster 3 with six green room ways. -/
theorem test_green_example :
    let s := ready.setReg (l2Page 3) 0x00C (ready.reg (l2Page 3) 0x00C ||| 0x6000)
    s.greenNow 3 = 6 ∧ s.populated 0xC00003205A80 = true ∧ s.populated 0xC00003300000 = false ∧ s.classOf 0xC00003205A80 = .memory := by
  decide +kernel

/-- A cluster in MAINTENANCE with the expert range of its L2 unlocked, and a preload of one line at 0x2000 set up. -/
def maintState : State := ((unlocked ready (l2Page 0)).setReg (pageOf .clu 0) 0x008 0x10).setReg (l2Page 0) 0x404 0x2000

theorem test_hyp_preload : maintState.Canon ∧ maintState.fld (l2Page 0) 0x034 0 0 = 1 ∧ maintState.maintenance 0 = true ∧
    (unlocked ready (l2Page 0)).maintenance 0 = false ∧ maintState.greenNow 0 ≤ (11#4).toNat ∧
    maintState.cacheable (maintState.pageAddr (l2Page 0) 0x404 0x408) = true ∧
    l2Find (maintState.cluster 0).l2 (maintState.pageAddr (l2Page 0) 0x404 0x408 / 128) = none ∧ (0xFFF#32).toNat % 2 ^ maintState.greenNow 0 = 0 := by
  refine ⟨by unfold State.Canon Rising; decide +kernel, ?_⟩
  decide +kernel

/-- The example of R238: 0xACE1 is followed by 0x59C3, whose victim of ways 0 to 11 is way 9. -/
theorem test_lfsr_example : lfsrNext 0xACE1 = 0x59C3 := by decide +kernel

theorem test_hyp_l2 : ((idleCluster (some .maint)).cluster 0).l2.op = some .maint ∧ ((idleCluster (some .disable)).cluster 0).l2.op = some .disable ∧
    (ready.setReg (l2Page 0) 0x00C 0x200).bypassed 0 = true ∧ ((idleCluster (some .preload)).cluster 0).l2.op = some .preload := by decide +kernel

/-- A controller as given. -/
def memcState (m : Nat) (x : Memc) (ctl : Word32) : State := (ready.setMemc m x).setReg (memcPage m) 0x008 ctl

theorem test_hyp_memc : ready.memcInUse = false ∧ (memcState 0 { Memc.reset with unit := 2 } 1).fld (memcPage 0) 0x008 0 0 = 1 ∧
    (memcState 21 { Memc.reset with unit := 0 } 0).fld (memcPage 21) 0x008 0 0 = 0 ∧
    ((memcState 21 { Memc.reset with unit := 0, op := some .enter } 0).memc 21).op = some .enter ∧
    ((memcState 21 { Memc.reset with unit := 0, trained := true, op := some .exit } 0).memc 21).op = some .exit ∧
    (memcState 21 { Memc.reset with unit := 0, trained := true, op := some .exit } 0).fld (memcPage 21) 0x008 7 4 = 0 ∧
    ready.reg (memcPage 0) 0x080 = 0 ∧ (ready.setReg (memcPage 0) 0x058 0x80000000).fld (memcPage 0) 0x058 31 31 = 1 ∧
    (1 < ready.localUnits 0) ∧ ready.localUnits 21 ≤ 589823 + 1 ∧ (ready.memc 0).selfRefresh = false ∧ 85 < (86#8).toNat := by decide +kernel

/-- A module of two ranks a channel, whose DDR5 controllers train in the field, with controller 0 in TRAIN mode or not. -/
def ddrState (train : Bool) : State :=
  let s := { ready with build := { ready.build with ordering := 2 } }
  (((unlocked s (memtPage 0)).setReg (memtPage 0) 0x414 0x100).setMemc 0 { Memc.reset with unit := if train then 1 else 2 }).setReg (memcPage 0) 0x008
    (if train then 0x11 else 1)

theorem test_hyp_train : (ddrState true).Canon ∧ (ddrState false).hwTrained 0 = false ∧ (ddrState false).memcInUse = false ∧
    (ddrState false).fld (memcPage 0) 0x008 7 4 = 0 ∧ ((ddrState false).memc 0).unit = 2 ∧ (ddrState true).fld (memcPage 0) 0x008 7 4 = 1 ∧
    ((ddrState true).memc 0).unit = 1 ∧ (ddrState true).fld (memtPage 0) 0x034 0 0 = 1 ∧ (1#4).toNat < (ddrState true).ranks 0 ∧
    ((ddrState true).memcLocal 0 ((ddrState true).pageAddr (memtPage 0) 0x410 0x414)).isSome = true ∧
    ((ddrState true).setMemc 0 { Memc.reset with op := some (.run 2) }).memc 0 = { Memc.reset with op := some (.run 2) } ∧
    [0, 1, 2, 3, 4, 5, 6, 7, 8, 65535].length = 10 := by
  refine ⟨by unfold State.Canon Rising; decide +kernel, ?_⟩
  decide +kernel
/-! ## Fixed units -/

/-- A descriptor of `n` bytes with fields (offset, width, value) set. -/
def descOf (n : Nat) (fs : List (Nat × Nat × Nat)) : List Byte :=
  fs.foldl (fun d f => d.take f.1 ++ Word.leBytes f.2.1 f.2.2 ++ d.drop (f.1 + f.2.1)) (List.replicate n 0)

/-- A job of a descriptor. -/
def jobOf (d : List Byte) : UnitJob := { desc := d, core := none }

/-- A running job of a descriptor, settled or not. -/
def runOf (d : List Byte) (fin : Option JobEnd) : RunJob :=
  { job := jobOf d, fin := fin, at_ := 0, hits := 0, pages := [], second := false, blockFrom := 0 }

/-- A unit as given, in a ready module. -/
def unitState (page : Nat) (u : UnitQ) : State := ready.setUnit page u

/-- The last descriptor of a full FIFO is answered in its done block. -/
theorem test_hyp_answered :
    let s := { ready with mem := Sparse.setRun blankByte ready.mem 0x4030 (Word.leBytes 8 0x5000) }
    field (s.agentRead [] 0x4000 scanKind.descLen) scanKind.doneAt 8 = 0x5000 := by decide +kernel

theorem test_hyp_submit : ready.pageReached (Writer.agent .manager) (scanPage 0) = true ∧ ready.submitBad scanKind 0x4000 = false ∧
    ready.submitBad scanKind 0x02F000000000 = true ∧ 0x4000 % scanKind.align = 0 ∧ 0x4040 % scanKind.align ≠ 0 ∧ 0x4040 % fcodecKind.align = 0 ∧
    (unitState (scanPage 0) { fifo := List.replicate 16 (jobOf (List.replicate 384 0)), fifo2 := [], run := none }).submitBad scanKind 0x4000 = false ∧
    scanKind.depth ≤ (((unitState (scanPage 0) { fifo := List.replicate 16 (jobOf []), fifo2 := [], run := none }).unit (scanPage 0)).side false).length := by
  decide +kernel

theorem test_hyp_affords : ∀ s page off v, State.Affords s .manager page off v := by
  intro s page off v w h; cases h

theorem test_hyp_writable : ready.Writable 0 64 ∧ ready.Writable 0x5000 32 ∧ ready.Writable 0x50C0 64 := by
  unfold State.Writable; decide +kernel

/-- A scan job, a probe job, a codec job of each operation and one that is refused. -/
def unitJobs : List UnitJob := [jobOf (descOf 384 [(48, 8, 0x5000)]), jobOf (descOf 128 [(48, 8, 0x5000)]), jobOf (descOf 64 [(40, 8, 0x5000)]),
  jobOf (descOf 64 [(0, 1, 1), (40, 8, 0x5000)]), jobOf (descOf 64 [(0, 1, 2), (40, 8, 0x5000)]), jobOf (descOf 64 [(0, 1, 3), (40, 8, 0x5000)])]

theorem test_hyp_start : ready.unitEn (scanPage 21) = true ∧ ready.fld (scanPage 21) 0x00C 3 0 = 1 ∧ ready.unitEn (probePage 5) = true ∧
    ready.fld (probePage 5) 0x00C 3 0 = 1 ∧ ready.unitEn (fcodecPage 11) = true ∧ (ready.unit (scanPage 21)).run = none ∧
    ((unitState (probePage 5) { fifo := [jobOf (descOf 128 [])], fifo2 := [], run := some { runOf (descOf 128 []) none with second := true } }).unit
      (probePage 5)).fifo = [jobOf (descOf 128 [])] ∧
    (unitJobs.drop 2).map (fun j => fcodecDescBad j.desc) = [false, false, false, true] ∧
    unitJobs.map (fun j => field j.desc 0 1) = [0, 0, 0, 1, 2, 3] := by decide +kernel

/-- A scan job on the whole of a table of none, settled by DESC_BAD, and one on a list with no slots. -/
theorem test_hyp_scan :
    let d := descOf 384 [(8, 8, 0x6000), (16, 8, 0x6000), (32, 8, 0x7000), (40, 4, 4096), (48, 8, 0x5000)]
    let s := unitState (scanPage 0) { fifo := [], fifo2 := [], run := some (runOf d none) }
    d.length = 384 ∧ (s.unit (scanPage 0)).run = some (runOf d none) ∧ s.agentFault false (field d 32 8) 4096 = none ∧
      (s.scanWork 0 (runOf d none) 0).1.out = [] := by decide +kernel

/-- A settled job's end. -/
def okEnd (n : Nat) : JobEnd := { status := 0, block := List.replicate n 0, info1 := 0, info2 := 0 }

theorem test_hyp_settled : (okEnd fcodecKind.blockLen).block.length = fcodecKind.blockLen ∧ (okEnd camKind.blockLen).block.length = camKind.blockLen ∧
    (okEnd cmpKind.blockLen).block.length = cmpKind.blockLen ∧
    ((unitState (camPage 1) { fifo := [], fifo2 := [], run := some (runOf (descOf 64 [(24, 8, 0x5000)]) (some (okEnd 64))) }).unit (camPage 1)).run =
      some (runOf (descOf 64 [(24, 8, 0x5000)]) (some (okEnd 64))) ∧ field (descOf 64 [(24, 8, 0x5000)]) camKind.doneAt 8 = 0x5000 := by decide +kernel

/-! ## Search arrays, digests, signatures -/

/-- A search job of two keys on array 0. -/
def camDesc : List Byte := descOf 64 [(2, 2, 2), (8, 8, 0x4000), (16, 8, 0x6000), (24, 8, 0x5000)]
/-- Array 0 runs it. -/
def camState : State := unitState (camPage 0) { fifo := [], fifo2 := [], run := some (runOf camDesc none) }

theorem test_hyp_cam : camState.Canon ∧ camState.camDescBad 0 camDesc = false ∧ field camDesc 0 1 = 0 ∧ field camDesc 1 1 = 0 ∧
    field (camState.bytesAt 0x4000 48) 44 4 = 0 ∧ camState.agentFault false 0x4000 48 = none ∧ camState.agentFault false 0x6000 32 = none ∧
    (unlocked ready (camPage 1)).fld (camPage 1) 0x034 0 0 = 1 ∧ ready.rank = 0 ∧ Sparse.wf (fun _ => (none : Option CamEnt)) (camState.cam 0).ents = true ∧
    ((unitState (camPage 0) { fifo := [], fifo2 := [], run := some { runOf camDesc none with pages := [2047] } }).unit (camPage 0)).run =
      some { runOf camDesc none with pages := [2047] } := by
  refine ⟨by unfold State.Canon Rising; decide +kernel, ?_⟩
  decide +kernel

/-- A one-shot digest of three bytes. -/
def digDesc (op : Nat) : List Byte := descOf 64 [(0, 1, op), (4, 4, 3), (8, 8, 0x4000), (16, 8, 0x6000), (40, 8, 0x5000)]
/-- Its job in a slot. -/
def digJob (op : Nat) : DigJob := { job := jobOf (digDesc op), pos := 0, turns := 0, restored := false, fin := none, out := [] }
/-- Digest unit 0 with that job. -/
def digState (op : Nat) : State := ready.setDig (digPage 0) { ready.dig (digPage 0) with slots := [(0, digJob op)] }

theorem test_hyp_dig : (ready.dig (digPage 0)).freeSlot = some 0 ∧ ready.unitEn (digPage 0) = true ∧ ready.submitBad digKind 0x4000 = false ∧
    ((digState 0).dig (digPage 0)).slots = [(0, digJob 0)] ∧ ((digState 0).dig (digPage 0)).susp = [] ∧ (digJob 0).fin = none ∧
    ready.digResult (digPage 0) 0 = none ∧ ready.reg (digPage 0) 0x020 = 0 ∧ (okEnd 32).block.length = 32 := by
  decide +kernel
/-- A module whose cluster 0 has two green room ways. -/
def greenState : State := ready.setReg (l2Page 0) 0x00C (ready.reg (l2Page 0) 0x00C ||| 0x2000)

/-- A digest descriptor of function 1 with a save area in green room. -/
def saveDesc (op len : Nat) : List Byte := descOf 64 [(0, 1, op), (1, 1, 1), (4, 4, len), (8, 8, 0x4000), (16, 8, 0x6000), (24, 2, 32), (26, 2, 0xFFFF),
  (32, 8, 0xC00000000000), (40, 8, 0x5000)]
/-- Its job. -/
def saveJob (op len : Nat) : DigJob := { job := jobOf (saveDesc op len), pos := 0, turns := 0, restored := false, fin := none, out := [] }
/-- Digest unit 0 with one job in slot 0. -/
def withJob (s : State) (j : DigJob) : State := s.setDig (digPage 0) { s.dig (digPage 0) with slots := [(0, j)] }

/-- A module whose save area holds a context of function 1. -/
def savedState : State := { greenState with mem := Sparse.setRun blankByte greenState.mem 0xC00000000000 [1, 1] }

theorem take_two (s : State) (a : Nat) : (s.bytesAt a 256).take 2 = [s.byteAt a, s.byteAt (a + 1)] := rfl

theorem two_bytes (s : State) (a : Nat) (x y : Byte) (h : Sparse.wf blankByte s.mem = true) :
    (({ s with mem := Sparse.setRun blankByte s.mem a [x, y] } : State).bytesAt a 256).take 2 = [x, y] := by
  rw [take_two]
  simp only [State.byteAt, Sparse.setRun]
  rw [Sparse.get_set_other (Sparse.wf_set h x) y (by omega), Sparse.get_set_same h x, Sparse.get_set_same (Sparse.wf_set h x) y]

theorem saved_bytes (j : DigJob) : ((withJob savedState j).bytesAt 0xC00000000000 256).take 2 = [1, 1] :=
  two_bytes greenState 0xC00000000000 1 1 rfl

theorem restore_ok (s : State) (d : List Byte) (hf : field d 1 1 = 1) (hb : (s.bytesAt (field d 32 8) 256).take 2 = [1, 1]) :
    ∃ c, s.digRestore (digPage 0) d = .ok c := by
  have e0 : field (s.bytesAt (field d 32 8) 256) 0 1 = 1 := by
    have := congrArg (fun l => Word.leValue (l.take 1)) hb
    simpa [field, List.take_take, Word.leValue] using this
  have e1 : field (s.bytesAt (field d 32 8) 256) 1 1 = 1 := by
    have := congrArg (fun l => Word.leValue (l.drop 1)) hb
    simpa [field, List.drop_take, Word.leValue] using this
  refine ⟨{ st := digStateOf 1 ((s.bytesAt (field d 32 8) 256).drop 16), absorbed := field (s.bytesAt (field d 32 8) 256) 8 8 }, ?_⟩
  unfold State.digRestore
  simp only [e0, e1, hf]
  rfl

theorem begin_of (s : State) (j : DigJob) (c : DigCtx) (h1 : s.digDescBad (digPage 0) j.job.desc = false)
    (h2 : s.agentFault false (field j.job.desc 8 8) ((if field j.job.desc 0 1 = 0 ∨ field j.job.desc 0 1 = 1 then field j.job.desc 3 1 else 0) + field j.job.desc 4 4) = none)
    (h0 : field j.job.desc 40 8 % 64 = 0 ∧ field j.job.desc 32 8 % 64 = 0) (h3 : s.agentFault false (field j.job.desc 16 8) (field j.job.desc 24 2) = none) (h4 : s.agentFault false (field j.job.desc 32 8) 512 = none)
    (h5 : s.digKey j.job.desc = some []) (hop : (field j.job.desc 0 1 == 2 || field j.job.desc 0 1 == 3) = true)
    (hr : s.digRestore (digPage 0) j.job.desc = .ok c) : s.digBegin (digPage 0) j = .ok ([], c) := by
  unfold State.digBegin
  simp only [h0.1, h0.2, h1, h2, h3, h4, h5, hr, hop, Bool.or_assoc, Bool.or_true]
  simp

theorem test_hyp_dig_continue : ∃ c, (withJob savedState (saveJob 2 136)).digBegin (digPage 0) (saveJob 2 136) = .ok ([], c) := by
  obtain ⟨c, hc⟩ := restore_ok (withJob savedState (saveJob 2 136)) (saveDesc 2 136) (by decide +kernel) (saved_bytes _)
  exact ⟨c, begin_of _ _ c (by decide +kernel) (by decide +kernel) (by decide +kernel) (by decide +kernel) (by decide +kernel) (by decide +kernel) (by decide +kernel) hc⟩

theorem test_hyp_dig_finish : ∃ c, (withJob savedState (saveJob 3 3)).digBegin (digPage 0) (saveJob 3 3) = .ok ([], c) := by
  obtain ⟨c, hc⟩ := restore_ok (withJob savedState (saveJob 3 3)) (saveDesc 3 3) (by decide +kernel) (saved_bytes _)
  exact ⟨c, begin_of _ _ c (by decide +kernel) (by decide +kernel) (by decide +kernel) (by decide +kernel) (by decide +kernel) (by decide +kernel) (by decide +kernel) hc⟩

theorem test_hyp_dig_begin : ((withJob greenState (saveJob 0 3)).digBegin (digPage 0) (saveJob 0 3)).toOption.isSome = true ∧
    ((withJob greenState (saveJob 1 136)).digBegin (digPage 0) (saveJob 1 136)).toOption.isSome = true := by decide +kernel

/-- A signing request by the stage manager for the identity, one for slot 1, and a verification with slot 0x200. -/
def lsuJob (op slot : Nat) (mgr : Bool) : UnitJob :=
  { desc := descOf 64 [(0, 1, op), (2, 2, slot), (4, 4, 3), (8, 8, 0x4000), (16, 8, 0x6000), (24, 2, 666), (32, 8, 0x5000), (52, 1, 0xFF)], core := none, mgr := mgr }
/-- The key store with a public key in slot 0x200. -/
def lsuState (sign verify : List UnitJob) : State :=
  { ready.setKeySlot 0x200 (some { kind := 2, usage := 2, key := [] }) with lsu := { sign := sign, verify := verify, runs := [], faulted := [] } }

theorem test_hyp_lsu : (lsuState [lsuJob 0 0 true] []).lsuUsable 7 = true ∧ (lsuState [lsuJob 0 1 false] []).pbook.nextSeal = none ∧
    lsuDescBad (lsuJob 0 0 true).desc = false ∧ lsuDescBad (lsuJob 1 0x200 false).desc = false ∧
    (lsuState [] []).agentFault false 0x4000 3 = none ∧ (lsuState [] []).agentFault false 0x6000 1462 = none ∧
    (lsuState [lsuJob 0 1 false] []).lsuSignKey (lsuJob 0 1 false) = none ∧ (lsuState [] [lsuJob 1 0x200 false]).verifyKey 0x200 = some [] := by
  decide +kernel

theorem test_hyp_lsu_sign : (lsuState [lsuJob 0 0 true] []).lsuSignKey (lsuJob 0 0 true) = some Config.identityPub := rfl

/-! ## DMA and compression engines -/

/-- A DMA descriptor of `ctl` that copies 64 bytes, and one that gathers two elements of 8 bytes. -/
def dmaDesc (ctl : Nat) : List Byte := descOf 64 [(0, 4, ctl), (4, 4, 64), (8, 8, 0x4000), (16, 8, 0x6000)]
/-- The indexed one. -/
def dmaIndexed (ok : Bool) : List Byte := descOf 64 [(0, 4, 0x90000000), (4, 4, 64), (8, 8, 0x4000), (16, 8, 0x6000), (24, 8, 0x7000), (32, 4, 8), (36, 2, if ok then 32 else 0)]
/-- Engine 0 with channel 3 READY at a descriptor at 0x3000. -/
def dmaState (d : List Byte) : State :=
  let s := { ready with mem := Sparse.setRun blankByte ready.mem 0x3000 d }
  ((((s.setReg (dmaPage 0) (chCtl 3) 0x301).setReg (dmaPage 0) (chCtl 3 + 4) 0x3000)).setChState 0 3 2)

theorem test_hyp_dma : (dmaState (dmaDesc 0x80000000)).Canon ∧ (dmaState (dmaDesc 0x80000000)).dmaNext 0 = some 3 ∧
    (dmaState (dmaDesc 0x80000000)).chDesc 0 3 = 0x3000 ∧ (dmaState (dmaDesc 0x80000000)).agentRead [] 0x3000 64 = dmaDesc 0x80000000 ∧
    (field (dmaDesc 0) 0 4).testBit 31 = false ∧ (field (dmaDesc 0x80000000) 0 4).testBit 31 = true ∧ (field (dmaDesc 0x80000000) 0 4).testBit 28 = false ∧
    dmaDescBad (dmaDesc 0x80000000) = false ∧ dmaDescBad (dmaIndexed true) = false ∧ dmaDescBad (dmaIndexed false) = true ∧
    (field (dmaIndexed true) 0 4).testBit 28 = true ∧ (dmaState (dmaDesc 0)).agentFault true 0x3000 64 = none ∧ ((dmaState (dmaDesc 0)).dma 0).run = none ∧
    3 ∉ ((dmaState (dmaDesc 0)).dma 0).kicked ∧ (dmaState (dmaDesc 0)).chEn 0 3 = true ∧ ready.chEn 0 3 = false ∧ ready.chState 0 3 = 0 := by
  refine ⟨by unfold State.Canon Rising; decide +kernel, ?_⟩
  decide +kernel

theorem test_hyp_dma_writable : ready.Writable 0x6000 64 ∧ ready.Writable 0x3000 64 := by unfold State.Writable; decide +kernel

/-- A COMPRESS job, a DECOMPRESS job of no input, and one with a bad descriptor. -/
def cmpDesc (op kind len : Nat) : List Byte := descOf 64 [(0, 1, op), (1, 1, kind), (4, 4, 4096), (8, 8, 0x4000), (16, 4, len), (24, 8, 0x6000), (32, 8, 0x5000), (52, 1, 0xFF)]

theorem test_hyp_cmp : ready.unitEn (cmpPage 0) = true ∧ cmpDescBad (cmpDesc 0 1 100) = false ∧ cmpDescBad (cmpDesc 1 1 0) = false ∧
    cmpDescBad (cmpDesc 2 1 0) = true ∧ field (cmpDesc 0 1 100) 0 1 = 0 ∧ 99 < min (field (cmpDesc 0 1 100) 4 4) (field (cmpDesc 0 1 100) 16 4) ∧
    field (cmpDesc 1 1 0) 16 4 = 0 ∧ ready.classOf 0x4000 = .memory ∧
    (let r := { runOf (cmpDesc 0 1 100) none with pages := [50] }; r.fin = none ∧ field r.job.desc 1 1 = 1 ∧ r.blockFrom < r.pages.headD 0) := by decide +kernel
/-! ## Wing ports and companies -/

/-- Port 0 in a link state with a MODE, and a role. -/
def wingState (ls mode role : Nat) : State :=
  ((ready.setReg (wingPage 0) 0x008 (BitVec.ofNat 32 (1 + 16 * mode))).setLstate 0 ls).setRole role

/-- A frame that is whole. -/
def whole : FrameHead := { more := false, ack := 0, credVc := 0, cred := 0 }

theorem test_hyp_wing : (wingState 5 1 2).Canon ∧ (wingState 0 0 0).lstate 0 = 0 ∧ (wingState 1 1 0).lstate 0 = 1 ∧ (wingState 2 1 0).lstate 0 = 2 ∧
    (wingState 3 1 0).lstate 0 = 3 ∧ (wingState 6 1 0).lstate 0 = 6 ∧ (wingState 7 1 0).lstate 0 = 7 ∧ (wingState 5 3 1).wingMode 0 = 3 ∧
    (wingState 5 1 0).reg (wingPage 0) 0x020 = 0 ∧ (4#4).toNat ≠ (wingState 5 1 0).wingMode 0 ∧ (wingState 0 1 0).wingWanted 0 = false ∧
    ({ wingState 0 1 0 with irtr := { (wingState 0 1 0).irtr with present := [(0, false)] } }).wingWanted 0 = true := by
  refine ⟨by unfold State.Canon Rising; decide +kernel, ?_⟩
  decide +kernel

theorem test_hyp_frame : (wingState 5 1 2).TakesWhole 0 whole ∧ (wingState 4 1 0).TakesWhole 0 whole ∧ ((wingState 5 1 2).wing 0).waitq = [] ∧
    ¬ ((wingState 6 1 0).lstate 0 = 4 ∨ (wingState 6 1 0).lstate 0 = 5) ∧
    (((wingState 4 1 0).setWing 0 { Wing.reset with peerHello := [0] }).wing 0).peerHello ≠ [] := by
  refine ⟨by unfold State.TakesWhole; decide +kernel, by unfold State.TakesWhole; decide +kernel, ?_⟩
  decide +kernel

theorem test_hyp_lockstep : (wingState 5 1 2).takesSeals = true ∧ (wingState 5 1 1).takesSeals = false ∧ (wingState 5 1 2).role = 2 ∧
    (wingState 5 1 3).role = 3 ∧ (wingState 5 3 1).role = 1 ∧ (wingState 5 3 5).role = 5 ∧ (wingState 5 1 2).mustFollow = true ∧ ready.mustFollow = false ∧
    ready.follows = false ∧ (wingState 5 1 1).pairLinks = [0] ∧ (wingState 5 1 2).isFollower = true ∧ (wingState 5 1 1).isFollower = false ∧
    (wingState 5 1 2).company.loading = false ∧ (wingState 5 1 2).company.changes = [] := by decide +kernel

/-- A lead whose swept cue 1 waits for its understudy. -/
def sweptState (fault : Bool) : State :=
  let s := (wingState 5 1 1).setRedundant true
  { s with cue := { s.cue with unit := 2, number := 1, phase := .swept }, company := { s.company with faultSeen := fault } }

theorem test_hyp_digest : (sweptState true).Canon ∧ (sweptState true).role = 1 ∧ (sweptState true).cue.phase = .swept ∧ (1#64).toNat = (sweptState true).cue.number ∧
    (sweptState true).compares = true ∧ (sweptState true).company.faultSeen = true ∧ (sweptState false).company.faultSeen = false ∧
    (sweptState true).cue.digests = { inp := [], out := [], delta := [] } ∧ (sweptState true).redundant = true := by
  refine ⟨by unfold State.Canon Rising; decide +kernel, ?_⟩
  decide +kernel

/-- An understudy that catches up, loading or not. -/
def catchState (loading : Bool) : State :=
  { wingState 5 1 3 with company := { (wingState 5 1 3).company with loading := loading, appliedTo := 4 } }

theorem test_hyp_catchup : (catchState true).company.loading = true ∧ (catchState true).role = 3 ∧ (catchState true).company.deltas = [] ∧
    (catchState true).company.ready = false ∧ (catchState false).company.appliedTo + 1 = field (Word.leBytes 8 5) 0 8 ∧
    parseDelta 5 17 [] (Word.leBytes 8 5 ++ Word.leBytes 8 0) none = some ([], []) ∧ (catchState false).adminWait = none := by decide +kernel

theorem test_hyp_window : (∀ d, d ∈ (catchState false).dup → d.sq ≠ 1 ∨ d.seq ≠ 2) ∧ (catchState false).dup.length < 2 ^ 20 ∧
    (∃ d, d ∈ ({ catchState false with dup := [{ sq := 1, seq := 2, cqe := [], result := [], sigs := [] }] } : State).dup ∧ d.sq = 1 ∧ d.seq = 2) ∧
    (wingState 5 1 1).role ≠ 3 := by decide +kernel

/-- A lead that streams a catch-up, its LOCK sent or not. -/
def streamState (lock : Option Nat) : State :=
  { wingState 5 1 1 with company := { (wingState 5 1 1).company with catchS := some 4, lockAt := lock } }

theorem test_hyp_ready : (streamState none).role = 1 ∧ (streamState none).company.catchS.isSome = true ∧ (streamState none).company.lockAt = none ∧
    (streamState (some 6)).company.lockAt.isSome = true ∧ (streamState none).pairLinks = [0] := by decide +kernel

theorem test_hyp_refused : (wingState 7 1 0).Canon ∧ (wingState 7 1 0).lstate 0 = 7 := by
  refine ⟨by unfold State.Canon Rising; decide +kernel, by decide +kernel⟩

/-- BYE takes a REFUSED port DOWN (R436). -/
theorem test_bye_refused : ((wingState 7 1 0).byeReceived 0 4).lstate 0 = 0 := by decide +kernel

/-- Port 0 with a grant of 4 KiB at 0x10000. -/
def grantState : State := ((wingState 5 1 0).setReg (wwinPage 0) 0x04C 0x10000).setReg (wwinPage 0) 0x054 12

theorem test_hyp_windows : grantState.grants 0 0x10000 64 false = true ∧ grantState.grants 0 0x10F00 256 true = true ∧
    grantState.grants 0 0x10F01 256 true = false ∧ grantState.grants 0 0xFFFF 64 false = false ∧
    (((wingState 5 1 0).setWing 0 { Wing.reset with reqs := [(7, .load 0 0xD00000000000 8), (8, .store 0 0xD0000000)] }).wing 0).reqs.find?
      (fun r => r.1 == 8) = some (8, .store 0 0xD0000000) := by decide +kernel

/-- A cascade of two: this module of rank 1 or 0, its partner of the other rank on port 0. -/
def cascadeState (rank : Nat) : State :=
  let s := (wingState 5 2 0).setReg companyPage 0x048 (BitVec.ofNat 32 (rank + 0x100))
  s.setWing 0 { Wing.reset with peerHello := List.replicate 8 0 ++ [BitVec.ofNat 8 (1 - rank)] }

theorem test_hyp_cascade : (cascadeState 1).rank = 1 ∧ (cascadeState 1).portToRank 0 = some 0 ∧ (cascadeState 0).rank = 0 ∧ (cascadeState 0).otherRanks = [1] ∧
    (cascadeState 0).peerRank 0 = 1 ∧ (cascadeState 0).company.searches = [] ∧ (0x8000#16).getLsbD 15 = true ∧ (0x8000#16).getLsbD 14 = false ∧
    ((List.range 16).filter (fun i => (0x8000#16).getLsbD i)).length % 2 = 1 ∧ ((List.range 16).filter (fun i => (0x8001#16).getLsbD i)).length % 2 = 0 := by
  decide +kernel
/-! ## Power and the host endpoint -/

/-- A module in a state. -/
def inState (st : MState) : State := { ready with mdl := { ready.mdl with st := st } }

theorem test_hyp_power : (inState .boot).Canon ∧ State.reset.mdl.st = .off ∧ State.reset.mdl.supply = true ∧ State.reset.mdl.tripped = false ∧
    ({ State.reset with mdl := { State.reset.mdl with perst := false, supply := false } } : State).mdl.perst = false ∧
    ready.mdl.st ≠ .off ∧ ready.mdl.tjHot = false ∧ curtainClass (.junction 0 105) = some 5 ∧ curtainClass (.junction 0 104) = none ∧
    curtainClass (.vin 43999) = some 6 ∧ curtainClass (.vin 44000) = none ∧ curtainClass (.vin 59000) = none ∧ curtainClass (.vin 59001) = some 6 := by
  refine ⟨by unfold State.Canon Rising; decide +kernel, ?_⟩
  decide +kernel

theorem test_warnings :
    let t := after (.sensorWarning (.junction 0 95)) ready
    t.mdl.tjHot = true ∧ (after (.sensorWarning (.junction 0 94)) ready).mdl.tjHot = false ∧ (after (.sensorWarning (.junction 0 90)) t).mdl.tjHot = true ∧
      (after (.sensorWarning (.junction 0 89)) t).mdl.tjHot = false := by decide +kernel

theorem test_hyp_curtain : ready.mdl.curtain = false ∧ ready.mdl.halt = false ∧ ready.mdl.standbyOp = none ∧ ready.adminWait = none ∧
    ready.adminBacklog = [] ∧ ready.camDeltas = [] ∧ ready.snapExport = none ∧ ready.evictedExport = none ∧ (inState .recovery).mdl.st = .recovery ∧
    (0xA55E#32).toNat % 65536 = 0xA55E ∧ (0#32).toNat % 65536 ≠ 0xA55E ∧ ready.reg modctlPage 0x020 = 0 := by decide +kernel

theorem test_watchdog : (after .watchdogExpiry (inState .recovery)).mdl.curtain = false ∧ (after .watchdogExpiry State.reset).mdl.curtain = false := by
  decide +kernel

theorem test_hyp_standby : ready.notQuiet = none ∧ (running.notQuiet).isSome = true ∧ running.reg pwrPage 0x020 = 0 ∧
    ({ ready with mdl := { ready.mdl with standbyOp := some (.entering true) } } : State).mdl.standbyOp = some (.entering true) ∧
    ({ inState .standby with mdl := { (inState .standby).mdl with standbyOp := some .exiting } } : State).mdl.standbyOp = some .exiting := by decide +kernel

/-- A module whose host endpoint is up, in D0, with Bus Master Enable set, frozen or not. -/
def hostState (frozen : Bool) : State :=
  { ready with hep := { ready.hep with linkUp := true, everUp := true, bme := true, d0 := true, frozen := frozen } }

theorem test_hyp_hep : (hostState true).hep.frozen = true ∧ (hostState true).hep.linkUp = true ∧ ready.hep.linkUp = false ∧ (hostState false).hostReaches = true ∧
    (hostState false).reg hepPage 0x020 = 0 ∧ (hostState false).hep.canSend = true ∧ ready.hep.canSend = false ∧
    (hostState true).fld hepPage 0x048 16 0 < 2 ^ 17 ∧ 0 + [(1 : Byte)].length ≤ ((hostState false).setReg hepPage 0x060 1).fld hepPage 0x060 7 0 * 2 ^ 20 := by decide +kernel
/-! ## Queues and the admin queue -/

/-- A queue pair with rings of 16 entries in host memory. -/
def pairAt (base : Nat) : QPair :=
  { QPair.none with sqOn := true, cqOn := true, sqLog := 4, cqLog := 4, sqAddr := base, cqAddr := base + 0x1000, idxAddr := base + 0x2000, winBase := 0x100000, winLog := 20,
                    resBase := base + 0x3000, resStride := 64, vector := 2 }

/-- The host endpoint up, with the admin pair and queue 1. -/
def queueState : State := { hostState false with qpairs := [(0, pairAt 0x10000), (1, pairAt 0x20000)] }

theorem test_hyp_admin : queueState.Canon ∧ queueState.AdminReady := by
  refine ⟨by unfold State.Canon Rising; decide +kernel, ?_⟩
  unfold State.AdminReady; decide +kernel

/-- An admin entry with the arguments given, and no data. -/
def sqe (args : List Byte) : Sqe :=
  { flags := 0, rsv3 := 0, seq := 7, orderKey := 0, declLen := 0, pipe := 0, rsv22 := 0, dataAddr := 0, args := fit 32 args, data := [] }

/-- What an admin row needs of its entry: it is placed where the module fetches it, and is well formed. -/
def placedWell (opc : Nat) (e : Sqe) : Bool :=
  let placed := queueState.placeEntry 0 opc e
  placed.hostBytesAt 0x10000 64 == sqeBytes opc e && placed.hostValAt 0x12000 4 == 1 &&
    (adminFault (pairAt 0x10000).winBase (pairAt 0x10000).winLog (sqeBytes opc e)).isNone

theorem test_hyp_admin_entry : placedWell 0x08 (sqe [1]) = true ∧ placedWell 0x09 (sqe [1, 0, 0, 0, 0, 0, 0, 0, 20]) = true ∧ placedWell 0x03 (sqe [1]) = true ∧
    placedWell 0x20 (sqe []) = true ∧ placedWell 0x21 (sqe []) = true ∧ placedWell 0x11 (sqe []) = true ∧ placedWell 0x04 (sqe [1]) = true := by decide +kernel

/-- The fields of a CREATE_CQ and a CREATE_SQ that are in order, at the ends of their ranges. -/
theorem test_hyp_create : (let b := descOf 64 [(32, 2, 1023), (34, 1, 4), (36, 2, 2047), (40, 8, 0x1000), (48, 8, 0x100)]
      field b 32 2 = 1023 ∧ field b 34 1 = 4 ∧ field b 36 2 = 2047 ∧ field b 40 8 + 32 * 2 ^ 4 ≤ 2 ^ 44 ∧ field b 48 8 % 256 = 0) ∧
    (queueState.qp 1).cqOn = true ∧ (queueState.qp 2).cqOn = false ∧ queueState.journal = none ∧ queueState.mdl.curtain = false ∧ queueState.isFollower = false ∧
    queueState.changeNow = true ∧ ({ queueState with cue := { queueState.cue with unit := 2 } } : State).changeNow = false ∧ queueState.sendsChanges = false ∧
    queueState.fld qengPage 0x040 31 31 = 0 := by decide +kernel

theorem test_hyp_queue : queueState.hostReaches = true ∧ queueState.mayFetch 1 = true ∧ (queueState.qp 2).sqOn = false ∧ ready.hostReaches = false ∧
    ringDist (queueState.hostValAt (pairAt 0x20000).idxAddr 4) (queueState.qp 1).sqCons = 0 ∧ ringDist 17 0 = 17 ∧ queueState.hostOk = true ∧ queueState.inFlight = 0 := by
  decide +kernel

/-- The example of R406: an index of 0x190 consumed against 0x180 produced is out of range. -/
theorem test_bad_index : 2 ^ 16 < ringDist 0x180 0x190 := by decide

/-- A fetched TXN that is well formed, and one whose opcode is unknown. -/
def fetched (opc : Nat) : Entry := { sq := 1, idx := 0, sqe := sqeBytes opc (sqe []), data := [] }

theorem test_hyp_arrival : ({ queueState with qpairs := [(1, { pairAt 0x20000 with fetched := [fetched 0x10] })] } : State).qp 1 = { pairAt 0x20000 with fetched := [fetched 0x10] } ∧
    (ioFault (pairAt 0x20000) (fetched 0x10).sqe).isNone = true ∧ (ioFault (pairAt 0x20000) (fetched 0x77).sqe).isSome = true ∧ queueState.sendsArrivals = false := by decide +kernel
/-! ## Cues, jobs, the strike sweep and the prompt book -/

theorem quiet_of_ready : ready.Quiet := by unfold State.Quiet; decide +kernel

/-- The cue logic as given. -/
def cueState (c : Cue) : State := { ready with cue := c }

theorem test_hyp_cue : (cueState { Cue.reset with starting := true }).dispatching = true ∧ (cueState { Cue.reset with starting := true }).Quiet ∧
    (cueState { Cue.reset with unit := 3, starting := true }).Quiet ∧ (cueState { Cue.reset with unit := 2, phase := .swept, number := 1 }).Quiet ∧
    (cueState { Cue.reset with unit := 3, holdCmd := true }).Quiet ∧
    (inState .off).dispatching = false ∧ ready.isFollower = false := by
  refine ⟨by decide +kernel, ?_, ?_, ?_, ?_, by decide +kernel, by decide +kernel⟩
  all_goals unfold State.Quiet; decide +kernel

theorem test_hyp_commit : (cueState { Cue.reset with unit := 2, phase := .due }).fgPending = 0 ∧ (cueState { Cue.reset with unit := 2, phase := .due }).role = 0 ∧
    (cueState { Cue.reset with unit := 2, phase := .due }).compares = false ∧ ready.company.catchS = none ∧ running.reg cuePage 0x020 = 0 := by decide +kernel

/-- A core that holds a foreground item of the running cue. -/
def doneState (status : Word64) : State := coreState ({ x0 with held := some { spentItem with checked := false } }.setGr 1 status)

theorem test_hyp_done : (doneState 0).coreRuns 0 = true ∧ (doneState 0).jobsOf 0 = false ∧ ((doneState 0).core w0).sb = [] ∧
    ((doneState 0).core w0).held = some { spentItem with checked := false } ∧ (((doneState 0x100).core w0).gr 1).toNat % 65536 = 0x100 ∧
    ((coreState xBuffered).core w0).sb ≠ [] := by decide +kernel

/-- A pipeline of no nodes. -/
def smallPipe (workspace : Nat) : Pipe :=
  { id := 1, cls := 1, digest := [], keyHash := [], cap := 0, resultMax := 0, budgets := [], workspace := workspace, greenMin := 0,
    argLen := 0, image := [], nodes := [], trefs := [], formats := [], templates := [], cams := [], rodata := [], load := 0 }

/-- A job of it. -/
def smallJob (workspace : Nat) (st : JobState) : Job :=
  { id := 0, sq := 1, idx := 0, seq := 0, cue := 1, snap := 0, pipe := smallPipe workspace, args := [], plan := { nodes := [], outs := [] }, resAddr := 0x1000, resLen := 4096, scratch := none,
    state := st, status := 0, failNode := 0, rows := 0, blocks := 0, header := [], endCue := 0, cols := [], reads := [], shadowed := false, granted := false }

/-- A module with that job, and the host within reach. -/
def jobState (workspace : Nat) (st : JobState) : State := { hostState false with jobs := [smallJob workspace st] }

theorem test_hyp_job : (jobState 0 .waiting).jobsRun = true ∧
    (jobState 0 .waiting).jobs.find? (fun x => x.state == .waiting) = some (smallJob 0 .waiting) ∧
    (jobState 0 .waiting).cue.par.pool * 2 ^ 30 < (smallJob (17 * 2 ^ 30) .waiting).pipe.workspace ∧ (jobState 0 .waiting).poolUsed = 0 ∧
    (jobState 0 .running).job 0 = some (smallJob 0 .running) ∧ (hostState false).hostReachable = true ∧ (smallJob 0 .waiting).pipe.emits = false :=
  ⟨by decide +kernel, rfl, by decide +kernel, by decide +kernel, rfl, by decide +kernel, by decide +kernel⟩

/-- An empty table 1, and a module that has committed cue 5 and reclaimed up to none. -/
def strikeState (running : Bool) : State :=
  let d : TableDef := { num := 1, scratch := false, domain := none, cols := [], idxs := [], maxSlots := 16, ringRecords := 0, bytes := [] }
  { ready with tables := [(1, some (Table.empty d))], cue := { ready.cue with committed := 5 }, strike := { ready.strike with stage := 1, running := running } }

theorem test_hyp_strike : ready.passDue = false ∧ (strikeState false).passDue = true ∧ (strikeState true).strike.running = true ∧
    ((strikeState true).table 1).isSome = true := by decide +kernel

/-- An allocated prompt book with an act to seal. -/
def bookState : State :=
  { ready with pbook := { ready.pbook with alloc := true, recs := 4096, seals := 64, next := 3, actNum := 2, acts := [{ num := 1, first := 1, last := 2, logFrom := 0, logTo := 0, signed := false }] } }

theorem test_hyp_book : bookState.lsuUsable 0 = true ∧ bookState.pbook.alloc = true ∧ (bookState.pbook.nextSeal).isSome = true ∧
    ({ bookState with pbook := { bookState.pbook with verify := 1 } } : State).pbook.verify = 1 := by decide +kernel

/-! ## Management and register pages -/

theorem test_hyp_mgmt : ready.mgmt.upd = .idle ∧ ready.mgmt.version = none ∧ ready.mgmt.algos = false ∧ ready.flash.busy = false ∧ ready.reg flashPage 0x020 = 0 ∧
    ({ ready with mgmt := { ready.mgmt with version := some 0x12, algos := true } } : State).mgmt.algos = true ∧ field [0x12, 0xE0, 0, 0] 3 1 = 0 ∧
    ready.mgmtWaits = false ∧ running.mgmtWaits = true ∧ (List.replicate 32 (1 : Byte)).length = 32 ∧ ready.mdl.st ≠ .recovery := by decide +kernel

theorem test_key_ceremony :
    let s1 := after (.keyComponent 1 2 5 (List.replicate 32 0xF0)) ready
    s1.keys.comps.length = 1 ∧ s1.keys.kt = none ∧ (after (.keyComponent 2 2 5 (List.replicate 32 0x0F)) s1).keys.kt = some (5, List.replicate 32 0xFF) := by
  decide +kernel

theorem test_hyp_pages : blkAt (scanPage 0) = some (.scan, 0) ∧ blkAt 0x1FFF = none ∧ ready.pageReached (Writer.agent .manager) 0 = true ∧
    State.reset.pageReached (Writer.agent .manager) 0 = false ∧ ready.fld modctlPage 0x034 0 0 = 0 ∧ ready.reg (errPage modctlPage) 0x020 = 0 ∧ ready.cue.unit ≠ 2 := by
  decide +kernel

/-- The directory example of chapter 15: DIG19 lies at page 0x225. -/
theorem test_directory : digPage 19 = 0x225 ∧ blkAt 0x225 = some (.dig, 19) := by decide +kernel

/-! ## Worked examples of the spec -/

/-- The clusters of the keys of the worked cue of chapter 2. -/
theorem test_clusters : clusterOf 1 = 7 ∧ clusterOf 2 = 2 ∧ clusterOf 3 = 10 := by decide +kernel

/-- The example of R385: the group of 1,000, 1,001, 1,003 and 1,006. -/
theorem test_page_codec :
    let words := Word.leBytes 8 1000 ++ Word.leBytes 8 1001 ++ Word.leBytes 8 1003 ++ Word.leBytes 8 1006
    pageEncode words = [0x8B, 0xD0, 0x17, 0x00, 0x01, 0x0C, 0x00] ∧ pageDecode 32 (pageEncode words) = some words := by decide +kernel

/-- The published check value of CRC-32C, over the digits 1 to 9. -/
theorem test_crc32c : crc32c (ascii "123456789") = 0xE3069283 := by decide +kernel

/-- The example of R290: sources are entered 64 bytes apart from VBASE, and the spurious vector is 63. -/
theorem test_irq_example :
    let s := irqState.setPageAddr (cicPage 0) 0x040 0x044 0x08408000
    s.vbase 0 + 64 * 24 = 0x08408600 ∧ s.vbase 0 + 64 * 63 = 0x08408FC0 := by decide +kernel

/-! ## Ill-formed terms -/

/-- An entry with 33 argument bytes. -/
def longSqe : Sqe := { sqe [] with args := List.replicate 33 0 }

theorem test_wf_entries : (Instr.createCq (sqe [1])).wellFormed = true ∧ (Instr.createCq longSqe).wellFormed = false ∧ (Instr.txn 1 longSqe).wellFormed = false ∧
    (Instr.keyImport longSqe).wellFormed = false ∧ (Instr.rehearse longSqe []).wellFormed = false := by decide +kernel

theorem test_wf_instants : (Instr.startInstant ⟨100, [], [], [1, 2], some ⟨200, 50, 1024, 100⟩⟩).wellFormed = true ∧ (Instr.startInstant ⟨101, [], [], [], none⟩).wellFormed = false ∧
    (Instr.heldInstant ⟨0, [], [], [1, 1], none⟩).wellFormed = false ∧
    (Instr.startInstant ⟨0, [], [], [], some ⟨19, 0, 1, 6⟩⟩).wellFormed = false := by decide +kernel

theorem test_wf_windows : (Instr.inwinWrite 0 []).wellFormed = false ∧ (Instr.inwinRead 0 0).wellFormed = false ∧
    (Instr.interruptAccept 0 40 []).wellFormed = false ∧ (Instr.interruptAccept 0 40 [1, 1]).wellFormed = false ∧
    (Instr.trainDone 0 (List.replicate 11 0)).wellFormed = false ∧ (Instr.trainDone 0 [65536]).wellFormed = false := by decide +kernel

theorem test_wf_frames : (Instr.hello 0 whole (List.replicate 7 0)).wellFormed = false ∧ (Instr.seal 0 whole (List.replicate 4104 0)).wellFormed = false ∧
    (Instr.auth 0 whole [0]).wellFormed = false ∧ (Instr.arrival 0 whole [0]).wellFormed = false ∧ (Instr.delta 0 whole [0]).wellFormed = false ∧
    (Instr.digest 0 whole 0 0 [] (List.replicate 64 0) (List.replicate 64 0)).wellFormed = false ∧ (Instr.writeReq 0 whole 0 0 0 []).wellFormed = false ∧
    (Instr.readRsp 0 whole 0 0 (List.replicate 257 0)).wellFormed = false ∧ (Instr.change 0 whole 0 0 0 0 (List.replicate 4073 0)).wellFormed = false ∧
    (Instr.searchResolved 0 whole 0 0 []).wellFormed = false ∧ (Instr.keyComponent 1 2 0 []).wellFormed = false := by decide +kernel

/-! ## The module as a whole -/

theorem test_idle : step State.reset = .next State.reset := rfl

theorem test_reset_canon : State.reset.Canon := by unfold State.Canon Rising; decide +kernel

theorem test_front_command : step { ready with pending := [.busMasterEnableWrite false] } = exec (.busMasterEnableWrite false) ready := rfl

/-! ## Cores: the edges of the hypotheses -/

/-- A core whose next instruction the level-1 instruction cache holds: its fetch changes nothing. -/
theorem test_hyp_fetched : (coreState { x0 with held := some spentItem }).fetched w0 = coreState { x0 with held := some spentItem } ∧
    ((coreState { x0 with held := some spentItem }).core w0).mode ≠ .handler := by decide +kernel

/-- The core of the tests, meeting a parity error. -/
def wBad : CoreRef := { w0 with parity := true }

/-- The same module with nothing in its L1 caches. -/
def coldState : State := (coreState x0).setCluster 0 Cluster.reset

theorem test_hyp_fetches : (coreState x0).Fetches wBad ∧ (coreState x0).l1iHeld (coreKey wBad) 0x1000 = true ∧ (coreState x0).cacheable 0x1000 = true ∧
    coldState.Fetches w0 ∧ coldState.l1iHeld 0 0x1000 = false := by
  refine ⟨fetches_of ?_, ?_, ?_, fetches_of ?_, ?_⟩ <;> decide +kernel

/-- A core with the line of its address in its L1 data cache. -/
def l1State : State := (coreState xResv).setCluster 0 { Cluster.reset with l1i := [(0, 0x20)], l1d := [(0, 0x40)] }

theorem test_hyp_parity : l1State.CoreReady w0 ∧ l1State.l1Held 0 0x2000 = true ∧ l1State.LoadServed w0 0x2000 8 ∧ l1State.reservable 0x2000 = true := by
  refine ⟨ready_of ?_ ?_ ?_ ?_, ?_, ?_, ?_⟩ <;> (try unfold State.LoadServed) <;> decide +kernel

/-- A full store buffer. -/
def fullBuffer : List SbEntry := (List.range 16).map (fun k => ⟨.memory, 0x100 + k, [(0, 7)], false, false⟩)

theorem test_hyp_stcond : (coreState { xResv with sb := fullBuffer }).CoreReady w0 ∧
    16 < ((coreState { xResv with sb := fullBuffer }).core w0).sb.length + sbNeeds ((coreState { xResv with sb := fullBuffer }).core w0).sb 0x2000 8 ∧
    (let s := coreState { xAt 0xF00000000000 with ioReady := true }
     s.classOf 0xF00000000000 = .register ∧ s.checkAccess 0 .store 0xF00000000000 8 = none ∧ (s.core w0).ioReady = true ∧ (s.core w0).ioOpen = false) := by
  refine ⟨ready_of ?_ ?_ ?_ ?_, ?_, ?_⟩ <;> decide +kernel

theorem test_hyp_prefetch : let s := coreState (xAt 0x2000)
    s.l2Waits 0 = false ∧ s.cacheable 0x2000 = true ∧ s.checkAccess 0 .load 0x2000 1 = none ∧ s.frozenAt 0x2000 = false ∧ s.bypassed 0 = false ∧
      l2Find (s.cluster 0).l2 0x40 = none ∧ s.l1Held 0 0x2000 = false ∧ (l2Find ((after (.pfL1 w0 ⟨0, 1, 0⟩) s).cluster 0).l2 0x40).isSome = true := by
  decide +kernel

theorem test_hyp_take : (coreState { x0 with held := some spentItem, mode := .firmware }).coreRuns 0 = true ∧
    ((coreState { x0 with held := some { spentItem with checked := false } }).core w0).budgetStop = none ∧
    ((coreState x0).core w0).held = none ∧ ((coreState x0).core w0).sb = [] ∧ ((coreState xBuffered).core w0).sb ≠ [] ∧
    ((coreState x0).core w0).mode = .firmware := by decide +kernel

/-! ## Clusters: the edges of the hypotheses -/

/-- A host post block. -/
theorem test_hyp_post_host : (hostState false).region 0xE00000001000 = .host ∧ (hostState false).hep.frozen = false ∧ (hostState false).hep.bme = true ∧
    (hostState false).hep.d0 = true ∧ (hostState true).hep.frozen = true ∧ (hostState true).region 0xE00000001000 = .host ∧ ready.region 0x3000 ≠ .host := by
  decide +kernel

/-- Records that POST refuses, or finds no room for. -/
theorem test_post_refused :
    let s := fun (r : ItemRec) => { ready with mem := Sparse.setRun blankByte ready.mem 0x3000 r.bytes }
    ((after (.dispPost 0 0x3000) (s ⟨2, 4, 1, 0, 5, 6, 7⟩)).reg (dispPage 0) 0x020).toNat = 0x0104 ∧
    ((after (.dispPost 0 0x3000) (s ⟨2, 6, 0, 0, 5, 6, 7⟩)).bytesAt 0x3020 2) = [2, 0] := by decide +kernel

/-- A cluster whose background items and delays are at their limits. -/
def fullDisp : State :=
  ready.setDisp 0 { items := List.replicate 4096 bgItem, bgKeys := [], taskStamp := [], beatDelays := List.replicate 256 ⟨40, 3, 1⟩,
                    cueDelays := List.replicate 256 ⟨4, 4, 2⟩ }

theorem test_hyp_full : 4096 ≤ (fullDisp.disp 0).bgCount ∧ 256 ≤ (fullDisp.disp 0).beatDelays.length ∧ 256 ≤ (fullDisp.disp 0).cueDelays.length ∧
    fullDisp.cue.number < 4 := by decide +kernel

/-- Cluster 0 with no item, task 3 ready and core 2 in TAKE. -/
def taskState : State :=
  after (.dispSignal 0 1 3) (after (.taskMaskWrite 0 3 1) (after (.taskEnable 0 3 0x80000000) (dispState.setDisp 0 { dispState.disp 0 with items := [] })))

theorem test_hyp_task : (taskState.dispSelect 0).map (fun x => (x.what, x.fg)) = some (.task 3, false) ∧ taskState.dispatching = true ∧
    taskState.longestWaiting 0 = some 2 ∧ taskState.taskState 0 3 = 2 ∧ (after (.dispatchDeliver 0) taskState).taskState 0 3 = 3 := by decide +kernel

/-- A moderated source, and cores of which one is offered nothing. -/
theorem test_hyp_irq_edges : let s := irqState.setReg (cicPage 0) (srcOff 40) 0x05000003
    s.fld (cicPage 0) (srcOff 40) 31 24 ≠ 0 ∧ s.offerTo 0 0 = some 40 ∧ s.offerTo 0 5 ≠ some 40 ∧ cicLevel 3 = true := by decide +kernel

theorem test_hyp_present : 0 < ready.fld irtrPage 0x0C4 7 0 ∧ ready.fld irtrPage 0x0C4 31 24 ≤ 5000 ∧ 0 < ready.fld irtrPage 0x0C0 31 24 := by
  decide +kernel

/-- Cues running over an enabled and unlocked cluster. -/
theorem test_hyp_running_cluster : let s := unlocked (running.setReg (pageOf .clu 0) 0x008 1) (pageOf .clu 0)
    s.running = true ∧ s.cluEn 0 = true ∧ s.fld (pageOf .clu 0) 0x034 0 0 = 1 ∧ s.reg (pageOf .clu 0) 0x020 = 0 ∧ s.reg (corePage 0) 0x020 = 0 ∧
      1 < (2#4).toNat ∧ (2#4).toNat ≠ s.fld (pageOf .clu 0) 0x008 7 4 := by decide +kernel

/-! ## L2 and memory controllers: the edges of the hypotheses -/

theorem test_hyp_maintenance : let s := (idleCluster none).setReg (l2Page 0) 0x048 0x2000
    l2Find (s.cluster 0).l2 (s.pageAddr (l2Page 0) 0x048 0x04C / 128) = some 3 ∧ (l2At (s.cluster 0).l2 3).isSome = true ∧ (s.cluster 0).l2.op = none ∧
      s.reg (l2Page 0) 0x020 = 0 := by decide +kernel

/-- Two lines to preload, into the highest way. -/
theorem test_hyp_preload_two : (maintState.cluster 0).l2.op = none ∧ maintState.bypassed 0 = false ∧ maintState.cacheable (0x2000 + 128 * 1) = true ∧
    maintState.reg (l2Page 0) 0x020 = 0 ∧ 4096 ≤ (0x1000#32).toNat ∧ (2#13).toNat ≤ 4096 ∧ 4096 ≤ (4096#13).toNat ∧
    (let s := maintState.setReg (l2Page 0) 0x00C (maintState.reg (l2Page 0) 0x00C ||| 0x2000)
     (1#32).toNat % 2 ^ s.greenNow 0 ≠ 0) := by decide +kernel

/-- A clean line and green room bytes, which an uncorrectable error can strike. -/
theorem test_hyp_ecc : let s := (idleCluster none).setCluster 0 { Cluster.reset with l2 := { lines := [(3, some ⟨0x40, false, List.replicate 128 7⟩)], op := none } }
    (l2At (s.cluster 0).l2 3).map L2Line.dirty = some false ∧ 0 < (greenState.greenNow 0) * 524288 := by decide +kernel

/-- Controllers that are off, that work untrained, and that have failed. -/
theorem test_hyp_freeze : (ready.memc 21).unit = 2 ∧ ((memcState 3 { Memc.reset with unit := 1 } 0).memc 3).unit = 1 ∧
    ((memcState 3 { Memc.reset with unit := 0 } 0).memc 3).unit = 0 ∧ ((memcState 3 { Memc.reset with unit := 5 } 0).memc 3).unit = 5 ∧
    (ready.setReg (memcPage 3) 0x080 7).reg (memcPage 3) 0x080 ≠ 0 := by decide +kernel

theorem test_hyp_upkeep :
    (let s := (ready.setReg (memcPage 0) 0x054 2).setReg (memcPage 0) 0x048 1
     s.reg (memcPage 0) 0x054 ≠ 0 ∧ (s.reg (memcPage 0) 0x048 + 1) % s.reg (memcPage 0) 0x054 = 0) ∧
    (let s := ready.setMemc 0 { Memc.reset with unit := 2, scrubAt := ready.localUnits 0 - 1 }
     s.localUnits 0 ≤ (s.memc 0).scrubAt + 1 ∧ (s.memc 0).selfRefresh = false) ∧ running.memcInUse = true ∧ running.reg (memcPage 0) 0x020 = 0 ∧
    ready.fld (memcPage 0) 0x060 8 8 = 0 := by decide +kernel

theorem test_hyp_setup : ((ddrState false).memc 0).op = none ∧
    (((ddrState true).setMemc 0 { Memc.reset with unit := 1, op := some .setup }).memc 0).op = some .setup ∧
    (((ddrState true).setMemc 0 { Memc.reset with unit := 1, op := some (.run 1) }).memc 0).op = some (.run 1) := by decide +kernel

/-! ## Units: the edges of the hypotheses -/

/-- A core whose item has no PROBES left, and a probe descriptor of one key at 0x4000. -/
def probeState : State :=
  { coreState { x0 with held := some spentItem } with mem := Sparse.setRun blankByte ready.mem 0x4000 (descOf 128 [(6, 2, 1), (48, 8, 0x5000)]) }

theorem test_hyp_budget_stop : (match probeState.charged 0 (probeState.core w0) [(0xF00000000000 + probePage 0 * 4096 + 0x040, 8, 0x4000)] with
      | .error id => some id
      | .ok _ => none) = some 1 ∧
    probeState.pageReached (.core 0) (probePage 0) = true ∧ (probeState.core w0).mode ≠ .handler ∧
    ready.reg (cmpPage 3) 0x020 = 0 ∧ ready.pageReached (Writer.agent (.core w0)) (cmpPage 3) = true := by decide +kernel

/-- A probe lane with a job held, an idle one with a background job, and a lane that works. -/
theorem test_hyp_probe_lane :
    (let s := unitState (probePage 0) { fifo := [], fifo2 := [jobOf (descOf 128 [])], run := none }
     (s.unit (probePage 0)).fifo = [] ∧ (s.unit (probePage 0)).run = none ∧ (s.unit (probePage 0)).held = none ∧
       (s.unit (probePage 0)).fifo2 = [jobOf (descOf 128 [])]) ∧
    (let s := unitState (probePage 0) { fifo := [], fifo2 := [], run := none, held := some (runOf (descOf 128 []) none) }
     (s.unit (probePage 0)).held = some (runOf (descOf 128 []) none)) ∧
    (ready.setFld (probePage 0) 0x00C 3 0 2).fld (probePage 0) 0x00C 3 0 = 2 := by decide +kernel

theorem test_hyp_codec_waits : (idleCluster (some .disable)).l2Waits 0 = true ∧ (idleCluster none).l2Waits 0 = false := by decide +kernel

/-- A probe of one key that works without an error, on a table of the module. -/
theorem test_hyp_probe_work :
    let d := descOf 128 [(0, 2, 0), (48, 8, 0x5000)]
    let s := unitState (probePage 0) { fifo := [], fifo2 := [], run := some (runOf d none) }
    (s.unit (probePage 0)).run = some (runOf d none) ∧ ((s.setRun (probePage 0) none).probeWork d 0).2.keys = 0 := by decide +kernel

/-- Four slots full of jobs of the lowest priority, a full FIFO, a hash on its way, and a unit with one job waiting. -/
def digFull : DigUnit :=
  { ready.dig (digPage 0) with
    slots := (List.range 4).map (fun k => (k, { digJob 0 with job := jobOf (descOf 64 [(2, 1, 3), (32, 8, 0x5000)]) })), fifo := List.replicate 32 (jobOf []) }

theorem test_hyp_digest_queue : digFull.freeSlot = none ∧ (digFull.victim 0).isSome = true ∧ digFull.victim 3 = none ∧ 32 ≤ digFull.fifo.length ∧
    (({ ready with hashes := [{ unit := 0, blocks := 2, out := [7] }] } : State).hashes.map (fun h => (digPage h.unit, h.out))) = [(digPage 0, [7])] ∧
    ready.hashes = [] ∧ (digState 0).digResult (digPage 0) 0 = none := by decide +kernel

/-- Full signature queues, and a unit that no other can spell. -/
theorem test_hyp_lsu_full :
    256 ≤ (lsuState (List.replicate 256 (lsuJob 0 0 true)) []).lsu.sign.length ∧
    1024 ≤ (lsuState [] (List.replicate 1024 (lsuJob 1 0x200 false))).lsu.verify.length ∧
    (let s := { lsuState [lsuJob 0 0 true] [] with lsu := { sign := [lsuJob 0 0 true], verify := [], runs := [], faulted := [0, 1, 2, 3, 4, 5, 6] } }
     (∀ v, v < 8 → v ≠ 7 → s.lsuUsable v = false) ∧ s.lsuUsable 7 = true) ∧
    lsuDescBad (descOf 64 [(0, 1, 9)]) = true ∧ lsuDescBad (lsuJob 0 1 false).desc = false := by decide +kernel

/-- A kicked channel, and one that has run its descriptor. -/
theorem test_hyp_dma_kick :
    (let s := (dmaState (dmaDesc 0)).setDma 0 { (dmaState (dmaDesc 0)).dma 0 with kicked := [3] }
     3 ∈ (s.dma 0).kicked ∧ s.dmaNext 0 = some 3) ∧
    (let s := ((dmaState (dmaDesc 0)).setDmaRun 0 (some { chan := 3, desc := dmaDesc 0x80000000, fin := some (0, 0, 64) }))
     ((s.dma 0).run).map DmaRun.chan = some 3 ∧ s.chDesc 0 3 % 64 = 0 ∧ (field (dmaDesc 0x80000000) 0 4).testBit 29 = false ∧
       s.fld (dmaPage 0) (chCtl 3) 12 8 ≤ 16 ∧ s.chState 0 3 = 2) ∧
    (dmaState (dmaDesc 0)).classOf 0x4000 = .memory ∧ (dmaState (dmaDesc 0)).agentFault true 0x4000 64 = none ∧
    (let d := descOf 64 [(0, 4, 0x90000000), (4, 4, 2), (8, 8, 0x4000), (16, 8, 0x6000), (24, 8, 0x7000), (32, 4, 8), (36, 2, 32)]
     dmaDescBad d = false ∧ field d 4 4 ≤ field d 32 4 / 4 ∧ field d 4 4 * field d 36 2 = 64 ∧
       (dmaState d).agentFault true (0x7000 + 4 * 1) 4 = none ∧ ((dmaState d).valAt (0x7000 + 4 * 1) 4 = 0) ∧ 0x4000 + 32 ≤ 0x6000) := by decide +kernel

/-- Compression jobs with a misaligned DONE_ADDR, of one whole block, and a stored block to decompress. -/
theorem test_hyp_cmp_blocks :
    (let d := descOf 64 [(0, 1, 0), (1, 1, 1), (4, 4, 4096), (8, 8, 0x4000), (16, 4, 64), (20, 4, 4096), (24, 8, 0x6000), (32, 8, 0x5008), (52, 1, 0xFF)]
     cmpDescBad d = false ∧ field d 32 8 % 64 ≠ 0) ∧
    (let d := descOf 64 [(0, 1, 0), (1, 1, 2), (4, 4, 4096), (8, 8, 0x4000), (16, 4, 8), (20, 4, 4096), (24, 8, 0x6000), (32, 8, 0x5000), (52, 1, 0xFF)]
     cmpDescBad d = false ∧ field d 32 8 % 64 = 0 ∧ field d 16 4 ≤ field d 4 4 ∧ ready.agentFault true 0x4000 8 = none) := by decide +kernel
/-! ## Clauses at their edges: companies, power, queues and jobs -/

/-- The company of a state as changed. -/
def withCo (s : State) (f : Company → Company) : State := { s with company := f s.company }

theorem test_hyp_differ : ({ inp := [1], out := [], delta := [] } : Digests) ≠ (sweptState true).cue.digests ∧ ready.compares = false ∧
    (2#64).toNat ≠ (sweptState true).cue.number ∧ ready.cue.phase ≠ .swept ∧ Word.bit 0 (1#32).toNat = true ∧ Word.bit 0 (2#32).toNat = false ∧
    (withCo (wingState 5 1 2) (fun c => { c with promoting := true })).company.promoting = true := by decide +kernel

/-- A lead that waits for the answer to a change it sent. -/
def changeState : State :=
  let s := (wingState 5 1 1).setRedundant true
  { s with cue := { s.cue with unit := 2, number := 1 }, adminWait := some { sqe := [], change := .hold, ident := some 7, ok := false } }

/-- An understudy with a queue, which holds the first part of a change. -/
def partState : State :=
  withCo { wingState 5 1 2 with qpairs := [(1, pairAt 0x20000)] } (fun c => { c with changeParts := [(9, [3])], changes := [(8, 3, [])] })

theorem test_hyp_change : changeState.adminWait.map AdminWait.ident = some (some (7#64).toNat) ∧ changeState.changeNow = false ∧
    changeState.camDeltas = [] ∧ changeState.adminBacklog = [] ∧ changeState.redundant = true ∧ partState.isFollower = true ∧
    (partState.company.changeParts.find? (fun x => x.1 == 9)) = some (9, [3]) ∧ (∀ x, x ∈ partState.company.changes → x.1 ≠ 9) ∧
    (∃ x, x ∈ partState.company.changes ∧ x.1 = 8) ∧
    partState.changeOf (sqeBytes 0x03 (sqe [1])) [] = some (.ok (.deleteSq 1)) ∧ partState.changeOf (sqeBytes 0x20 (sqe [])) [] = none ∧
    (match partState.changeOf (sqeBytes 0x03 (sqe [2])) [] with | some (.error r) => r.status | _ => 0) = 0x0209 := by decide +kernel

theorem test_hyp_catch_role : (wingState 5 1 4).role = 4 ∧ (wingState 5 1 2).role ≠ 3 ∧ (wingState 5 1 2).role ≠ 4 ∧ (streamState none).company.lockAt = none ∧
    field (Word.leBytes 8 4) 0 8 ≤ (catchState false).company.appliedTo ∧ (catchState true).company.appliedTo < field (Word.leBytes 8 9) 0 8 ∧
    (∃ d, d ∈ (withCo (catchState true) (fun c => { c with deltas := [(9, [])] })).company.deltas ∧ d.1 = 9) := by decide +kernel

/-- Rank 0 of a cascade of two with a search of its own, and a member with a search in service. -/
def searchState : State :=
  withCo (cascadeState 0) (fun c => { c with searches := [{ issuer := 0, num := 0, own := [1], bits := [], results := [], lost := false }] })

theorem test_hyp_search : searchState.otherRanks = [searchState.peerRank 0] ∧ searchState.otherRanks ≠ [] ∧
    searchState.company.searches = [{ issuer := 0, num := 0, own := [1], bits := [], results := [], lost := false }] ∧
    ((0x8000#16).extractLsb' 12 2).toNat = 0 ∧ ((0x8000#16).extractLsb' 1 11).toNat = 0 ∧ (0#8).toNat = searchState.rank ∧ (1#8).toNat ≠ searchState.rank ∧
    (ready.unit (camPage 0)).run.isNone = true ∧ (1#8).toNat ≠ 2 := by decide +kernel

/-- Every slot of the request list and the store that waits under a tag. -/
theorem test_hyp_waiting_store :
    (([⟨.remote, 0xD0000000, [(0, 7)], false, true⟩] : List SbEntry).findIdx? (fun e => e.sent && e.block == 0xD0000000)) = some 0 ∧
    ((wingState 5 1 0).wing 0).reqs.find? (fun r => r.1 == 8) = none ∧ (1#32 : Word32) ≠ 0 := by decide +kernel

/-- A module that is off, with its thermal trip in force. -/
def trippedState : State := { State.reset with mdl := { State.reset.mdl with tripped := true, supply := false, perst := false } }

theorem test_hyp_trip : trippedState.mdl.st = .off ∧ trippedState.mdl.tripped = true ∧ trippedState.mdl.perst = false ∧ trippedState.mdl.supply = false ∧
    (inState .boot).mdl.st = .boot ∧ State.reset.flash.boot.isSome = true ∧
    ({ State.reset.flash with svnFuse := 1, slotB := { State.reset.flash.slotB with factory := true } }).boot.isNone = true ∧ (inState .recovery).mdl.st ≠ .off ∧ curtainClass (.rail 0 51) = some 6 ∧
    curtainClass (.rail 0 50) = none ∧ curtainClass (.dram 0 95) = some 5 ∧ curtainClass (.dram 0 94) = none ∧ ready.mdl.vinWarn = false ∧
    Word.bit 0 ready.mdl.railsBad = false ∧ ready.fld (memcPage 21) 0x060 8 8 = 0 := by decide +kernel

/-- A lead of a redundant pair, frozen. -/
def frozenLead : State := ((({ hostState true with hep := { (hostState true).hep with linkUp := false } } : State)).setRole 1).setRedundant true

theorem test_hyp_contain : frozenLead.role = 1 ∧ frozenLead.redundant = true ∧ frozenLead.hep.frozen = true ∧ frozenLead.hep.linkUp = false ∧
    frozenLead.reg hepPage 0x020 = 0 ∧ frozenLead.fld hepPage 0x048 16 0 < 100001 ∧ ready.hep.frozen = false ∧ 0 ≤ ready.fld hepPage 0x048 16 0 := by
  decide +kernel

/-- A function with one vector pending, which the driver has enabled. -/
def pendingState : State := { hostState false with hep := { (hostState false).hep with msixEn := true, msixMask := false, pba := [5] } }

theorem test_hyp_msix : pendingState.hep.canSend = true ∧ pendingState.hep.msixEn = true ∧ pendingState.hep.msixMask = false ∧
    pendingState.hep.pba = [(5 : Fin 2048).val] ∧ (hostState false).cue.unit ≠ 2 ∧ ({ hostState false with cue := running.cue } : State).cue.unit = 2 ∧
    (hostState false).fld hepPage 0x060 7 0 * 2 ^ 20 < 2 ^ 28 + 1 := by decide +kernel

theorem test_hyp_standby_else : (inState .standby).mdl.st ≠ .ready ∧ (inState .standby).mdl.standbyOp = none ∧ (inState .standby).mdl.st = .standby ∧
    ({ ready with mdl := { ready.mdl with halt := true } } : State).mdl.halt = true ∧ (inState .service).mdl.st = .service := by decide +kernel

/-- A queue whose ring does not overlap what the driver places. -/
theorem test_hyp_place : (let p := queueState.qp 1
      let prod := queueState.hostValAt p.idxAddr 4
      let slot := p.sqAddr + 64 * (prod % 2 ^ p.sqLog)
      p.sqOn = true ∧ slot + 64 ≤ p.idxAddr ∧ (0x100000 : Nat) + 4 ≤ 0x100004 ∧ slot + 64 ≤ 0x100000 ∧ p.idxAddr + 4 ≤ 0x100000) ∧
    (queueState.qp 1).held = [] ∧ ringDist (queueState.qp 1).cqProd 0 ≤ 2 ^ (queueState.qp 1).cqLog ∧
    2 ^ (queueState.qp 1).cqLog < ringDist (queueState.qp 1).cqProd 1 ∧ queueState.journal = none := by decide +kernel

theorem test_hyp_curtained : ({ queueState with mdl := { queueState.mdl with curtain := true } } : State).mdl.curtain = true ∧
    field (fetched 0x10).sqe 0 2 < 0x30 ∧ queueState.mdl.halt = false ∧ ({ queueState with mdl := { queueState.mdl with halt := true } } : State).mdl.halt = true := by
  decide +kernel

/-- A FULL search array image that waits on array 1. -/
def camPend : CamPending := { target := 1, full := true, mode := 0, lines := [], sqe := [], digest := [], written := false, ident := none, ok := true }
/-- A module in whose running cue it waits. -/
def camLoadState : State := { running with adminWait := some { sqe := [], change := .camFull camPend, ident := none, ok := true } }

theorem test_hyp_cam_load : (handleArrays camPend.target).contains 1 = true ∧ camPend.written = false ∧ camLoadState.changeNow = false ∧
    camLoadState.adminBacklog = [] ∧ (camLoadState.adminWait.map AdminWait.change) = some (.camFull camPend) := by decide +kernel

/-- A module that exports the snapshot of table 1. -/
def snapState : State :=
  { hostState false with tables := (strikeState false).tables, snapExport := some ([], 1, 0x1000, 0, 0) }

theorem test_hyp_snapshot : snapState.adminBacklog = [] ∧ snapState.hostReachable = true ∧ snapState.snapExport = some ([], 1, 0x1000, 0, 0) ∧
    (snapState.table 1).isSome = true ∧ (∀ x, snapState.table 1 = some x → 0 < (x.snapshotBody 0).length + 1600) :=
  ⟨by decide +kernel, by decide +kernel, rfl, by decide +kernel, fun _ _ => by omega⟩

/-- A journal queue with a part of one block to export, and one larger than a quarter of its buffer. -/
def exportState (n : Nat) : State :=
  { queueState with
    journal := some { qid := 3, log := 4, ring := 0x30000, idxAddr := 0x31000, vector := 2, bufAddr := 0x40000, bufLen := 1024, prod := 0, cons := 0,
                      bufHead := 0, bufFree := 0, ents := [], rung := false },
    exports := [{ act := 1, firstRec := 0, lastRec := 0, bytes := List.replicate n 7, part := 0 }] }

theorem test_hyp_export : (exportState 64).hostOk = true ∧ ringDist 0 0 < 2 ^ 4 ∧
    (match (exportState 64).journal with | some j => decide (j.place 64 + 64 - j.bufFree ≤ j.bufLen) | none => false) = true ∧
    ((exportState 64).exports.map (fun b => decide (b.bytes.length ≤ min b.bytes.length (1024 / 4 / 64 * 64)))) = [true] ∧
    ((exportState 300).exports.map (fun b => decide (min b.bytes.length (1024 / 4 / 64 * 64) < b.bytes.length))) = [true] := by decide +kernel

/-- A rehearsing module that is prepared, and one that paused at a change record. -/
def rehState (paused : Option (List Byte)) : State :=
  { hostState false with rehearse := { (hostState false).rehearse with prepared := true, paused := paused } }

theorem test_hyp_rehearse : ({ ready with cue := { ready.cue with startedEver := true } } : State).rehRefused = true ∧ (rehState none).rehearse.paused = none ∧ (rehState (some [1])).rehearse.paused = some [1] ∧
    (rehState (some [1])).pbook.due = [] ∧ (rehState none).mdl.curtain = false ∧ (rehState none).isFollower = false := by decide +kernel

/-- A core that ends the first item of the running cue's sealed set. -/
def sealedState : State :=
  { doneState 0 with cue := { (doneState 0).cue with unit := 2, sealedSet := [{ entry := fetched 0x10, disp := 0, fin := none, replay := none, job := none }] } }

theorem test_hyp_sealed : (sealedState.cue.sealedSet[spentItem.item.sealPos]?).isSome = true ∧ sealedState.cue.unit = 2 ∧
    (sealedState.core w0).held.map (fun h => (h.task, h.fg)) = some (none, true) := by decide +kernel

theorem test_hyp_job_edges : (hostState false).jobsRun = true ∧ (∀ j, j ∈ (jobState 0 .running).jobs → j.state ≠ .waiting) ∧
    (jobState 0 .running).jobs.map Job.writes = [[]] ∧
    (∀ j, (jobState 0 .waiting).job 0 = some j → j.state ≠ .running) ∧ 64 ≤ ((List.replicate 64 { smallJob 0 .running with granted := true }).filter Job.granted).length ∧
    (smallJob 0 .running).scratch = none := ⟨by decide +kernel, by decide +kernel, by decide +kernel, fun _ h => by cases h; decide, by decide +kernel, rfl⟩

end Sys2Proof.Tests
end

section
/-!
SUPPORT. Writes that meet: two writes to one key of a sparse table, and a field put into a number and read back.
-/
namespace Sys2Proof.Sparse

/-- A second write to one key makes the first one vanish. -/
theorem set_set_same {α : Type} [DecidableEq α] {d : Nat → α} {t : List (Nat × α)} {b k : Nat} (h : wfFrom d b t = true) (v u : α) :
    set d (set d t k v) k u = set d t k u := by
  induction t generalizing b with
  | nil => by_cases hv : v = d k <;> simp [set, hv]
  | cons p r ih =>
    obtain ⟨k', v'⟩ := p
    simp only [wfFrom, Bool.and_eq_true, decide_eq_true_eq] at h
    by_cases hlt : k < k'
    · by_cases hv : v = d k <;> simp [set, hlt, hv]
    · by_cases he : k = k'
      · subst he
        by_cases hv : v = d k
        · subst hv
          cases r with
          | nil => by_cases hu : u = d k <;> simp [set, hu]
          | cons q r' =>
            have hq : k < q.1 := by
              have hr := h.2
              simp only [wfFrom, Bool.and_eq_true, decide_eq_true_eq] at hr
              omega
            by_cases hu : u = d k <;> simp [set, hu, hq]
        · simp [set, hv]
      · simp [set, hlt, he, ih h.2]

end Sys2Proof.Sparse

namespace Sys2Proof.Word

/-- What stands above the field, the new field, and what stands below it. -/
theorem putBits_eq (hi lo x v : Nat) : putBits hi lo x v =
    (2 ^ (hi + 1 - lo) * (v / 2 ^ lo / 2 ^ (hi + 1 - lo)) + x % 2 ^ (hi + 1 - lo)) * 2 ^ lo + v % 2 ^ lo := by
  unfold putBits bits
  generalize 2 ^ (hi + 1 - lo) = W
  generalize 2 ^ lo = L
  have hv : (W * (v / L / W) + v / L % W) * L + v % L = v := by rw [Nat.div_add_mod, Nat.mul_comm, Nat.div_add_mod]
  rw [Nat.add_mul] at hv ⊢
  omega

/-- A field reads back the low bits of what was put into it. -/
theorem bits_putBits (hi lo x v : Nat) : bits hi lo (putBits hi lo x v) = x % 2 ^ (hi + 1 - lo) := by
  have hL : 0 < 2 ^ lo := Nat.two_pow_pos lo
  rw [putBits_eq, bits, Nat.mul_comm _ (2 ^ lo), Nat.mul_add_div hL, Nat.div_eq_of_lt (Nat.mod_lt _ hL), Nat.add_zero,
    Nat.mul_add_mod, Nat.mod_mod]

/-- Putting a field into a number of `n` bits gives a number of `n` bits, if the field lies within them. -/
theorem putBits_lt {hi lo n : Nat} (x : Nat) {v : Nat} (hlo : lo ≤ hi) (hn : hi < n) (hv : v < 2 ^ n) : putBits hi lo x v < 2 ^ n := by
  have hsplit : 2 ^ n = 2 ^ (hi + 1 - lo) * 2 ^ (n - (hi + 1)) * 2 ^ lo := by
    rw [← Nat.pow_add, ← Nat.pow_add]
    congr 1
    omega
  have hq : v / 2 ^ lo / 2 ^ (hi + 1 - lo) < 2 ^ (n - (hi + 1)) := by
    rw [Nat.div_div_eq_div_mul]
    exact Nat.div_lt_of_lt_mul (by rw [hsplit] at hv; linarith)
  have hL : v % 2 ^ lo < 2 ^ lo := Nat.mod_lt _ (Nat.two_pow_pos lo)
  have hW : x % 2 ^ (hi + 1 - lo) < 2 ^ (hi + 1 - lo) := Nat.mod_lt _ (Nat.two_pow_pos _)
  rw [putBits_eq, hsplit]
  generalize 2 ^ (hi + 1 - lo) = W at hq hW ⊢
  generalize v / 2 ^ lo / W = q at hq ⊢
  calc (W * q + x % W) * 2 ^ lo + v % 2 ^ lo
      < (W * q + x % W + 1) * 2 ^ lo := by rw [Nat.add_mul _ 1]; omega
    _ ≤ (W * (q + 1)) * 2 ^ lo := Nat.mul_le_mul_right _ (by rw [Nat.mul_add]; omega)
    _ ≤ W * 2 ^ (n - (hi + 1)) * 2 ^ lo := Nat.mul_le_mul_right _ (Nat.mul_le_mul_left W hq)

end Sys2Proof.Word
end

section
/-!
SUPPORT. Register words, fields and cores of the state: what is read after a write, and what an event and the entry of handler mode leave alone.
-/
namespace Sys2Proof.Machine
open Sys2Proof

/-! ## What the canonical form gives -/

theorem State.Canon.regs_wf {s : State} (h : s.Canon) : Sparse.wf resetWord s.regs = true := by
  obtain ⟨-, -, hregs, -⟩ := h
  exact hregs

theorem State.Canon.cores_wf {s : State} (h : s.Canon) : Sparse.wf (fun _ => Core.reset) s.cores = true := by
  obtain ⟨-, -, -, -, hcores, -⟩ := h
  exact hcores

/-! ## Cores -/

theorem coreKey_div (w : CoreRef) : coreKey w / 16 = w.c.val := by
  have := w.k.isLt
  unfold coreKey
  omega

theorem State.coreAt_setCoreAt {s : State} {k : Nat} (h : Sparse.wf (fun _ => Core.reset) s.cores = true) (x : Core) :
    (s.setCoreAt k x).coreAt k = x := Sparse.get_set_same h x

theorem State.setCoreAt_setCoreAt {s : State} {k : Nat} (h : Sparse.wf (fun _ => Core.reset) s.cores = true) (x y : Core) :
    (s.setCoreAt k x).setCoreAt k y = s.setCoreAt k y := by
  unfold State.setCoreAt
  rw [Sparse.set_set_same h]

/-- A core is read from the table of cores alone. -/
theorem State.coreAt_congr {s t : State} (h : t.cores = s.cores) (k : Nat) : t.coreAt k = s.coreAt k := by
  unfold State.coreAt
  rw [h]

/-! ## Register words -/

/-- Words of one page at different offsets have different keys. -/
theorem regKey_ne {page off off' : Nat} (h : off % 4096 / 4 ≠ off' % 4096 / 4) : regKey page off ≠ regKey page off' := by
  unfold regKey
  omega

theorem State.setReg_wf {s : State} (h : Sparse.wf resetWord s.regs = true) (page off : Nat) (v : Word32) :
    Sparse.wf resetWord (s.setReg page off v).regs = true := Sparse.wf_set h v

theorem State.reg_setReg_same {s : State} (h : Sparse.wf resetWord s.regs = true) (page off : Nat) (v : Word32) :
    (s.setReg page off v).reg page off = v := Sparse.get_set_same h v

theorem State.reg_setReg_ne {s : State} (h : Sparse.wf resetWord s.regs = true) {page off off' : Nat}
    (hne : off' % 4096 / 4 ≠ off % 4096 / 4) (v : Word32) : (s.setReg page off v).reg page off' = s.reg page off' :=
  Sparse.get_set_other h v (regKey_ne hne)

/-- A field reads back the low bits of what was written to it. -/
theorem State.fld_setFld_same {s : State} (h : Sparse.wf resetWord s.regs = true) (page off : Nat) {hi lo : Nat} (hlo : lo ≤ hi)
    (hhi : hi < 32) (v : Nat) : (s.setFld page off hi lo v).fld page off hi lo = v % 2 ^ (hi + 1 - lo) := by
  have hput := Word.putBits_lt v hlo hhi (s.reg page off).isLt
  unfold State.setFld State.fld
  rw [State.reg_setReg_same h, BitVec.toNat_ofNat, Nat.mod_eq_of_lt hput, Word.bits_putBits]

theorem State.reg_setFld_ne {s : State} (h : Sparse.wf resetWord s.regs = true) {page off off' : Nat} (hi lo : Nat)
    (hne : off' % 4096 / 4 ≠ off % 4096 / 4) (v : Nat) : (s.setFld page off hi lo v).reg page off' = s.reg page off' :=
  State.reg_setReg_ne h hne _

theorem State.fld_setFld_ne {s : State} (h : Sparse.wf resetWord s.regs = true) {page off off' : Nat} (hi lo hi' lo' : Nat)
    (hne : off' % 4096 / 4 ≠ off % 4096 / 4) (v : Nat) : (s.setFld page off hi lo v).fld page off' hi' lo' = s.fld page off' hi' lo' := by
  unfold State.fld
  rw [State.reg_setFld_ne h hi lo hne]

theorem State.setFld_wf {s : State} (h : Sparse.wf resetWord s.regs = true) (page off hi lo v : Nat) :
    Sparse.wf resetWord (s.setFld page off hi lo v).regs = true := State.setReg_wf h page off _

theorem State.setPageAddr_wf {s : State} (h : Sparse.wf resetWord s.regs = true) (page lo hi a : Nat) :
    Sparse.wf resetWord (s.setPageAddr page lo hi a).regs = true := State.setFld_wf (State.setReg_wf h page lo _) page hi 15 0 _

theorem State.reg_setPageAddr_ne {s : State} (h : Sparse.wf resetWord s.regs = true) {page lo hi off : Nat}
    (hlo : off % 4096 / 4 ≠ lo % 4096 / 4) (hhi : off % 4096 / 4 ≠ hi % 4096 / 4) (a : Nat) :
    (s.setPageAddr page lo hi a).reg page off = s.reg page off := by
  unfold State.setPageAddr
  rw [State.reg_setFld_ne (State.setReg_wf h page lo _) 15 0 hhi, State.reg_setReg_ne h hlo]

/-- An address stored in two page words reads back its low 48 bits. -/
theorem State.pageAddr_setPageAddr {s : State} (h : Sparse.wf resetWord s.regs = true) {page lo hi : Nat}
    (hne : lo % 4096 / 4 ≠ hi % 4096 / 4) (a : Nat) : (s.setPageAddr page lo hi a).pageAddr page lo hi = a % 2 ^ 48 := by
  have h1 := State.setReg_wf h page lo (BitVec.ofNat 32 a)
  unfold State.pageAddr State.setPageAddr
  rw [State.fld_setFld_same h1 page hi (by omega) (by omega), State.reg_setFld_ne h1 15 0 hne, State.reg_setReg_same h, BitVec.toNat_ofNat]
  omega

theorem State.pageAddr_setFld_ne {s : State} (h : Sparse.wf resetWord s.regs = true) {page lo hi off : Nat} (b a : Nat)
    (hlo : lo % 4096 / 4 ≠ off % 4096 / 4) (hhi : hi % 4096 / 4 ≠ off % 4096 / 4) (v : Nat) :
    (s.setFld page off b a v).pageAddr page lo hi = s.pageAddr page lo hi := by
  unfold State.pageAddr
  rw [State.reg_setFld_ne h b a hlo, State.fld_setFld_ne h b a 15 0 hhi]

/-! ## Events -/

/-- Raising a vector touches the host endpoint at most. -/
theorem State.raiseVector_eq (s : State) (v : Nat) : ∃ h : Hep, s.raiseVector v = { s with hep := h } := by
  simp only [State.raiseVector]
  split_ifs
  · exact ⟨s.hep, rfl⟩
  · exact ⟨_, rfl⟩
  · exact ⟨s.hep, rfl⟩
  · exact ⟨_, rfl⟩

/-- What an event can do: nothing, or write EVT_RAW of its page and touch the host endpoint. -/
theorem State.orEvt_cases (s : State) (page bits : Nat) :
    s.orEvt page bits = s ∨ ∃ (v : Word32) (h : Hep), s.orEvt page bits = { s.setReg page 0x010 v with hep := h } := by
  unfold State.orEvt
  cases blkAt page with
  | none => exact .inl rfl
  | some bi =>
    obtain ⟨b, i⟩ := bi
    refine .inr ⟨s.reg page 0x010 ||| BitVec.ofNat 32 (Nat.land bits (evtMask b)), ?_⟩
    dsimp only
    split_ifs
    · exact State.raiseVector_eq _ 1
    · exact ⟨s.hep, rfl⟩

@[simp] theorem State.evt_cores (s : State) (page bit : Nat) : (s.evt page bit).cores = s.cores := by
  obtain h | ⟨v, e, h⟩ := State.orEvt_cases s page (2 ^ bit) <;> rw [State.evt, h]
  rfl

@[simp] theorem State.evt_mem (s : State) (page bit : Nat) : (s.evt page bit).mem = s.mem := by
  obtain h | ⟨v, e, h⟩ := State.orEvt_cases s page (2 ^ bit) <;> rw [State.evt, h]
  rfl

@[simp] theorem State.evt_host (s : State) (page bit : Nat) : (s.evt page bit).host = s.host := by
  obtain h | ⟨v, e, h⟩ := State.orEvt_cases s page (2 ^ bit) <;> rw [State.evt, h]
  rfl

theorem State.evt_wf {s : State} (h : Sparse.wf resetWord s.regs = true) (page bit : Nat) :
    Sparse.wf resetWord (s.evt page bit).regs = true := by
  obtain he | ⟨v, e, he⟩ := State.orEvt_cases s page (2 ^ bit) <;> rw [State.evt, he]
  · exact h
  · exact State.setReg_wf h page 0x010 v

theorem State.reg_evt_ne {s : State} (h : Sparse.wf resetWord s.regs = true) {page off : Nat} (hne : off % 4096 / 4 ≠ 0x010 % 4096 / 4)
    (bit : Nat) : (s.evt page bit).reg page off = s.reg page off := by
  obtain he | ⟨v, e, he⟩ := State.orEvt_cases s page (2 ^ bit) <;> rw [State.evt, he]
  exact State.reg_setReg_ne h hne v

/-! ## Entering handler mode -/

@[simp] theorem State.enterHandler_mem (s : State) (key target : Nat) : (s.enterHandler key target).mem = s.mem := rfl

@[simp] theorem State.enterHandler_host (s : State) (key target : Nat) : (s.enterHandler key target).host = s.host := rfl

/-- The core in handler mode at the vector, with its registers as they were. -/
theorem State.coreAt_enterHandler {s : State} {key : Nat} (h : Sparse.wf (fun _ => Core.reset) s.cores = true) (target : Nat) :
    (s.enterHandler key target).coreAt key =
      { s.coreAt key with mode := .handler, pc := BitVec.ofNat 64 target, resv := none, take := none, remote := [] } :=
  State.coreAt_setCoreAt h _

section
variable {s : State} (h : Sparse.wf resetWord s.regs = true) (key target : Nat)
include h

/-- EPC holds the pc (R196). -/
theorem State.epc_enterHandler : (s.enterHandler key target).pageAddr (corePage key) 0x054 0x058 = (s.coreAt key).pc.toNat % 2 ^ 48 := by
  have h1 := State.setPageAddr_wf h (corePage key) 0x054 0x058 (s.coreAt key).pc.toNat
  exact (State.pageAddr_setFld_ne h1 1 1 (by decide) (by decide) _).trans (State.pageAddr_setPageAddr h (by decide) _)

/-- EMODE holds the interrupted mode (R196). -/
theorem State.emode_enterHandler :
    (s.enterHandler key target).coreEmode key = (if (s.coreAt key).mode = .operator then 0 else 1) := by
  have h1 := State.setPageAddr_wf h (corePage key) 0x054 0x058 (s.coreAt key).pc.toNat
  have hfld := State.fld_setFld_same h1 (corePage key) 0x070 (Nat.le_refl 1) (by decide) (if (s.coreAt key).mode = .operator then 0 else 1)
  refine hfld.trans ?_
  split <;> rfl

/-- The words of the CORE page but EPC and STATUS stay. -/
theorem State.reg_enterHandler_ne {off : Nat} (hlo : off % 4096 / 4 ≠ 0x054 % 4096 / 4) (hhi : off % 4096 / 4 ≠ 0x058 % 4096 / 4)
    (hst : off % 4096 / 4 ≠ 0x070 % 4096 / 4) : (s.enterHandler key target).reg (corePage key) off = s.reg (corePage key) off := by
  have h1 := State.setPageAddr_wf h (corePage key) 0x054 0x058 (s.coreAt key).pc.toNat
  exact (State.reg_setFld_ne h1 1 1 hst _).trans (State.reg_setPageAddr_ne h hlo hhi _)

end

end Sys2Proof.Machine
end

section
/-!
SUPPORT. One instruction on a core that is ready for it: what is left when it retires having changed its core alone, and when it raises an
exception (R194, R196, R214, R215).
-/
namespace Sys2Proof.Machine
open Sys2Proof

/-! ## Taking an exception -/

/-- What an exception records before its core enters handler mode: ECAUSE, EINST, EADDR and EELEM where it has them, EXC.COUNT and the
EXCEPTION event (R215). -/
def State.excRecorded (s : State) (key : Nat) (info : InstrInfo) (e : Exc) : State :=
  let pg := corePage key
  let cause := e.cause.num + (if info.vector then 256 else 0) + e.counter * 512
  let s1 := (s.setReg pg 0x05C (BitVec.ofNat 32 cause)).setReg pg 0x06C info.word
  let s2 := match e.addr with
    | some a => s1.setPageAddr pg 0x064 0x068 a
    | none => s1
  let s3 := if info.vector then s2.setFld pg 0x060 7 0 (e.elem.getD 0) else s2
  (s3.addReg pg 0x07C 1).evt pg 3

/-- Outside handler mode an exception is recorded, and its core enters handler mode (R215, R219). -/
theorem State.takeException_eq {s : State} {key : Nat} (h : (s.coreAt key).mode ≠ .handler) (info : InstrInfo) (e : Exc) :
    s.takeException key info e = (s.excRecorded key info e).enterHandler key (s.ebase (key / 16) + 64 * e.cause.num) := if_neg h

section
variable (s : State) (key : Nat) (info : InstrInfo) (e : Exc)

theorem State.excRecorded_cores : (s.excRecorded key info e).cores = s.cores := by
  cases ha : e.addr <;> cases hv : info.vector <;> simp [State.excRecorded, ha, hv]

theorem State.excRecorded_mem : (s.excRecorded key info e).mem = s.mem := by
  cases ha : e.addr <;> cases hv : info.vector <;> simp [State.excRecorded, ha, hv]

theorem State.excRecorded_host : (s.excRecorded key info e).host = s.host := by
  cases ha : e.addr <;> cases hv : info.vector <;> simp [State.excRecorded, ha, hv]

end

/-- ECAUSE as the exception records it, in register words that keep their canonical form. -/
theorem State.excRecorded_cause {s : State} (h : Sparse.wf resetWord s.regs = true) (key : Nat) (info : InstrInfo) (e : Exc) :
    Sparse.wf resetWord (s.excRecorded key info e).regs = true ∧
    (s.excRecorded key info e).reg (corePage key) 0x05C =
      BitVec.ofNat 32 (e.cause.num + (if info.vector then 256 else 0) + e.counter * 512) := by
  unfold State.excRecorded
  extract_lets pg cause s1 s2 s3
  have h0 := State.setReg_wf h pg 0x05C (BitVec.ofNat 32 cause)
  have h1 : Sparse.wf resetWord s1.regs = true ∧ s1.reg pg 0x05C = BitVec.ofNat 32 cause :=
    ⟨State.setReg_wf h0 pg 0x06C info.word,
      (State.reg_setReg_ne h0 (by decide) _).trans (State.reg_setReg_same h pg 0x05C _)⟩
  have h2 : Sparse.wf resetWord s2.regs = true ∧ s2.reg pg 0x05C = BitVec.ofNat 32 cause := by
    unfold s2
    cases e.addr with
    | none => exact h1
    | some a => exact ⟨State.setPageAddr_wf h1.1 .., (State.reg_setPageAddr_ne h1.1 (by decide) (by decide) a).trans h1.2⟩
  have h3 : Sparse.wf resetWord s3.regs = true ∧ s3.reg pg 0x05C = BitVec.ofNat 32 cause := by
    unfold s3
    split
    · exact ⟨State.setFld_wf h2.1 .., (State.reg_setFld_ne h2.1 7 0 (by decide) _).trans h2.2⟩
    · exact h2
  have h4 : Sparse.wf resetWord (s3.addReg pg 0x07C 1).regs = true := State.setReg_wf h3.1 ..
  have h5 : (s3.addReg pg 0x07C 1).reg pg 0x05C = s3.reg pg 0x05C := State.reg_setReg_ne h3.1 (by decide) _
  exact ⟨State.evt_wf h4 pg 3, (State.reg_evt_ne h4 (by decide) 3).trans (h5.trans h3.2)⟩

/-- ECAUSE[7:0] is the number of the cause (R215). -/
theorem ecause_low_byte (c : Cause) (v : Bool) (n : Nat) : (BitVec.ofNat 32 (c.num + (if v then 256 else 0) + n * 512)).toNat % 256 = c.num := by
  have hc : c.num < 256 := by cases c <;> decide
  rw [BitVec.toNat_ofNat]
  split <;> omega

/-- An instruction that ends in taking an exception outside handler mode raises that exception's cause. -/
theorem raises_of_takeException {i : Instr} {w : CoreRef} {s : State} {info : InstrInfo} {e : Exc} (hc : s.Canon)
    (hmode : (s.core w).mode ≠ .handler) (hexec : exec i s = .next (s.takeException (coreKey w) info e)) : Raises i w s e.cause.num := by
  obtain ⟨hwf, hcause⟩ := State.excRecorded_cause hc.regs_wf (coreKey w) info e
  have hcores := s.excRecorded_cores (coreKey w) info e
  have hcore : (s.excRecorded (coreKey w) info e).coreAt (coreKey w) = s.core w := State.coreAt_congr hcores _
  rw [State.takeException_eq hmode, coreKey_div] at hexec
  refine ⟨_, hexec, ?_⟩
  generalize s.ebase w.c.val + 64 * e.cause.num = target
  have hnew : ((s.excRecorded (coreKey w) info e).enterHandler (coreKey w) target).core w =
      { s.core w with mode := .handler, pc := BitVec.ofNat 64 target, resv := none, take := none, remote := [] } := by
    rw [← hcore, State.core]
    exact State.coreAt_enterHandler (by rw [hcores]; exact hc.cores_wf) target
  rw [hnew, State.epc_enterHandler hwf, State.emode_enterHandler hwf,
    State.reg_enterHandler_ne hwf _ _ (by decide) (by decide) (by decide), hcause, hcore]
  exact ⟨rfl, rfl, ecause_low_byte e.cause info.vector e.counter, rfl, rfl, rfl, rfl, rfl, rfl,
    (State.enterHandler_mem ..).trans (s.excRecorded_mem (coreKey w) info e),
    (State.enterHandler_host ..).trans (s.excRecorded_host (coreKey w) info e)⟩

/-! ## A core that is ready -/

/-- The fetch of a core that is ready changes nothing: the line is in its L1 instruction cache, or in no cache (R194). -/
theorem State.fetched_of_coreReady {s : State} {w : CoreRef} (h : s.CoreReady w) : s.fetched w = s := by
  obtain ⟨-, hpar, hline, -⟩ := h
  have hfetch : s.l1Fetch (coreKey w) (s.core w).pc.toNat = s := by
    unfold State.l1Fetch
    cases hca : s.cacheable (s.core w).pc.toNat with
    | false => rfl
    | true => rw [hline hca]; rfl
  unfold State.fetched
  simp only [hpar, Bool.false_and]
  exact hfetch

section
variable {w : CoreRef} {s : State} (h : s.CoreReady w) {info : InstrInfo} {body : State → Nat → Core → CoreRes}
include h

/-- A core that is ready runs the body of a legal instruction that is open to every mode, and counts it where it retires (R202, R213, R214). -/
theorem runCore_of_retire (hlegal : info.legal = true) (hpriv : info.priv = false) {s1 : State}
    (hbody : body s (coreKey w) (s.core w) = .retire s1) : runCore w info body s = s1.countOps s (coreKey w) info := by
  obtain ⟨hruns, hstop, hcheck, hwait⟩ := h.1
  unfold runCore
  simp only [State.core] at hstop hcheck hwait hbody ⊢
  simp [hruns, hstop, hcheck, hwait, State.fetched_of_coreReady h, hlegal, hpriv, hbody]

/-- A core that is ready raises ILLEGAL for an instruction that is not legal (R202). -/
theorem runCore_of_illegal (hlegal : info.legal = false) :
    runCore w info body s = s.takeException (coreKey w) info { cause := .illegal } := by
  obtain ⟨hruns, hstop, hcheck, hwait⟩ := h.1
  unfold runCore
  simp only [State.core] at hstop hcheck hwait ⊢
  simp [hruns, hstop, hcheck, hwait, State.fetched_of_coreReady h, hlegal]

end

/-- OPS counts an instruction that changed its core to `y` without a core reset, and no budget stops it on a core that is ready (R214). -/
theorem countOps_of_coreReady {w : CoreRef} {s : State} (hc : s.Canon) (h : s.CoreReady w) {info : InstrInfo} (hcount : info.counted = true)
    {y : Core} (hun : y.undef = (s.core w).undef) :
    (s.setCoreAt (coreKey w) y).countOps s (coreKey w) info = s.setCoreAt (coreKey w) ((s.core w).counted y) := by
  obtain ⟨-, -, -, hbud⟩ := h
  unfold State.countOps
  have hx : s.coreAt (coreKey w) = s.core w := rfl
  rw [State.coreAt_setCoreAt hc.cores_wf, State.setCoreAt_setCoreAt hc.cores_wf, hx]
  obtain hheld | ⟨x, hheld⟩ := Option.eq_none_or_eq_some (s.core w).held
  · simp [Core.counted, hheld]
  · by_cases hmode : (s.core w).mode = .handler
    · simp [Core.counted, hheld, hmode]
    · have hfits : x.checked = true → ¬ ((s.core w).bud 0).toNat ≤ ((s.core w).cnt 0).toNat := fun hch => by
        have := hbud x hheld hch hmode
        omega
      simp +contextual [Core.counted, hheld, hmode, hcount, hun, hfits]

/-- A legal instruction that only changes its core retires and leaves everything else alone. -/
theorem retires_of_retireCore {i : Instr} {w : CoreRef} {s : State} {info : InstrInfo} {body : State → Nat → Core → CoreRes} {y : Core}
    (hc : s.Canon) (h : s.CoreReady w) (hexec : exec i s = .next (runCore w info body s)) (hlegal : info.legal = true)
    (hpriv : info.priv = false) (hcount : info.counted = true) (hbody : body s (coreKey w) (s.core w) = retireCore s (coreKey w) y)
    (hpc : y.pc = (s.core w).pc) (hun : y.undef = (s.core w).undef) : Retires i w s y := by
  have hnext : y.next = { y with pc := (s.core w).pc + 4 } := by rw [Core.next, hpc]
  rw [runCore_of_retire h hlegal hpriv hbody, countOps_of_coreReady hc h hcount (y := y.next) hun, hnext] at hexec
  exact hexec

/-- An illegal instruction raises ILLEGAL, cause 1 (R202, R215). -/
theorem raises_illegal {i : Instr} {w : CoreRef} {s : State} {info : InstrInfo} {body : State → Nat → Core → CoreRes} (hc : s.Canon)
    (h : s.CoreReady w) (hmode : (s.core w).mode ≠ .handler) (hexec : exec i s = .next (runCore w info body s))
    (hlegal : info.legal = false) : Raises i w s 1 := by
  rw [runCore_of_illegal h hlegal] at hexec
  exact raises_of_takeException hc hmode hexec

end Sys2Proof.Machine
end

section
/-!
SUPPORT. The arithmetic of the model on numbers is that of bit vectors: one lemma per operation, for every width it has (R203, R204, R206,
R207, R211).
-/
namespace Sys2Proof.Machine
open Sys2Proof

/-! ## Signed values -/

theorem signed_toNat {n : Nat} (a : BitVec n) : Word.signed n a.toNat = a.toInt := by
  unfold Word.signed
  rw [Nat.mod_eq_of_lt a.isLt, BitVec.toInt_eq_toNat_cond]

theorem wrap_eq_toNat_ofInt (n : Nat) (v : Int) : Word.wrap n v = (BitVec.ofInt n v).toNat := (BitVec.toNat_ofInt v).symm

/-! ## Sums, products and logic -/

section
variable {n : Nat} (a b : BitVec n)

theorem opAdd_toNat : opAdd n a.toNat b.toNat = (a + b).toNat := (BitVec.toNat_add a b).symm

theorem opSub_toNat : opSub n a.toNat b.toNat = (a - b).toNat := by
  rw [opSub, BitVec.toNat_sub, Nat.mod_eq_of_lt b.isLt]
  have := b.isLt
  congr 1
  omega

theorem opMul_toNat : opMul n a.toNat b.toNat = (a * b).toNat := (BitVec.toNat_mul a b).symm

theorem opAnd_toNat : opAnd n a.toNat b.toNat = (a &&& b).toNat := (BitVec.toNat_and a b).symm

theorem opOr_toNat : opOr n a.toNat b.toNat = (a ||| b).toNat := (BitVec.toNat_or a b).symm

theorem opXor_toNat : opXor n a.toNat b.toNat = (a ^^^ b).toNat := (BitVec.toNat_xor a b).symm

theorem opAndn_toNat : opAndn n a.toNat b.toNat = (a &&& ~~~b).toNat := by
  rw [opAndn, Nat.mod_eq_of_lt b.isLt, BitVec.toNat_and, BitVec.toNat_not]
  rfl

theorem opMulhu_toNat : opMulhu n a.toNat b.toNat = ((a.setWidth (2 * n) * b.setWidth (2 * n)).extractLsb' n n).toNat := by
  have hsq : 2 ^ (2 * n) = 2 ^ n * 2 ^ n := by rw [Nat.two_mul, Nat.pow_add]
  have hmul : a.toNat * b.toNat < 2 ^ (2 * n) := hsq ▸ Nat.mul_lt_mul'' a.isLt b.isLt
  have hprod : (a.setWidth (2 * n) * b.setWidth (2 * n)).toNat = a.toNat * b.toNat := by
    rw [BitVec.toNat_mul, BitVec.toNat_setWidth, BitVec.toNat_setWidth, ← Nat.mul_mod, Nat.mod_eq_of_lt hmul]
  rw [BitVec.extractLsb'_toNat, hprod, opMulhu, Nat.shiftRight_eq_div_pow]

/-- The upper half of a product of two halves, floor division first or last. -/
theorem emod_sq_ediv_emod (p : Int) {m : Int} (hm : 0 < m) : p % (m * m) / m % m = p / m % m := by
  have hp : p % (m * m) = p + m * (m * -(p / (m * m))) := by linarith [Int.emod_add_mul_ediv p (m * m)]
  rw [hp, Int.add_mul_ediv_left _ _ hm.ne', Int.add_mul_emod_self_left]

theorem opMulh_toNat : opMulh n a.toNat b.toNat = ((a.signExtend (2 * n) * b.signExtend (2 * n)).extractLsb' n n).toNat := by
  have hsq : ((2 ^ (2 * n) : Nat) : Int) = (2 ^ n : Nat) * (2 ^ n : Nat) := by rw [Nat.two_mul, Nat.pow_add, Nat.cast_mul]
  have hprod : a.signExtend (2 * n) * b.signExtend (2 * n) = BitVec.ofInt (2 * n) (a.toInt * b.toInt) := (BitVec.ofInt_mul _ _).symm
  have hpos : 0 < ((2 ^ n : Nat) : Int) := by positivity
  rw [opMulh, signed_toNat, signed_toNat, Word.wrap, Int.fdiv_eq_ediv_of_nonneg _ hpos.le, hprod, BitVec.extractLsb'_toNat,
    BitVec.toNat_ofInt, Nat.shiftRight_eq_div_pow, hsq, ← Int.ofNat_inj, Int.toNat_of_nonneg (Int.emod_nonneg _ hpos.ne'),
    Int.natCast_emod, Int.natCast_ediv, Int.toNat_of_nonneg (Int.emod_nonneg _ (by positivity)), emod_sq_ediv_emod _ hpos]

/-! ## Orders -/

theorem opMin_toNat : opMin n a.toNat b.toNat = (if a.sle b = true then a else b).toNat := by
  rw [opMin, signed_toNat, signed_toNat, apply_ite BitVec.toNat]
  simp only [BitVec.sle_iff_toInt_le]

theorem opMinu_toNat : opMinu n a.toNat b.toNat = (if a.ule b = true then a else b).toNat := by
  rw [opMinu, apply_ite BitVec.toNat]
  simp only [BitVec.ule_iff_toNat_le]

theorem opMax_toNat : opMax n a.toNat b.toNat = (if b.sle a = true then a else b).toNat := by
  rw [opMax, signed_toNat, signed_toNat, apply_ite BitVec.toNat]
  simp only [BitVec.sle_iff_toInt_le]

theorem opMaxu_toNat : opMaxu n a.toNat b.toNat = (if b.ule a = true then a else b).toNat := by
  rw [opMaxu, apply_ite BitVec.toNat]
  simp only [BitVec.ule_iff_toNat_le]

end

theorem opSlt_toNat (a b : Word64) : opSlt 64 a.toNat b.toNat = (if a.slt b = true then 1 else 0 : Word64).toNat := by
  rw [opSlt, signed_toNat, signed_toNat, apply_ite BitVec.toNat]
  simp only [BitVec.slt_iff_toInt_lt]
  rfl

theorem opSltu_toNat (a b : Word64) : opSltu 64 a.toNat b.toNat = (if a.ult b = true then 1 else 0 : Word64).toNat := by
  rw [opSltu, apply_ite BitVec.toNat]
  simp only [BitVec.ult_iff_toNat_lt]
  rfl

/-! ## Shifts -/

section
variable {n : Nat} (a b : BitVec n)

theorem opSll_toNat : opSll n a.toNat b.toNat = (a <<< (b.toNat % n)).toNat := by
  rw [opSll, BitVec.toNat_shiftLeft, Nat.shiftLeft_eq]

theorem opSrl_toNat : opSrl n a.toNat b.toNat = (a >>> (b.toNat % n)).toNat := by
  rw [opSrl, BitVec.toNat_ushiftRight, Nat.shiftRight_eq_div_pow]

theorem opSra_toNat : opSra n a.toNat b.toNat = (a.sshiftRight (b.toNat % n)).toNat := by
  rw [opSra, signed_toNat, wrap_eq_toNat_ofInt, BitVec.sshiftRight, Int.shiftRight_eq_div_pow,
    Int.fdiv_eq_ediv_of_nonneg _ (by positivity)]

theorem opRotl_toNat : opRotl n a.toNat b.toNat = (a.rotateLeft (b.toNat % n)).toNat := by
  obtain rfl | hn := Nat.eq_zero_or_pos n
  · rw [BitVec.eq_nil a]
    simp [opRotl, Nat.mod_one]
  have hk : b.toNat % n < n := Nat.mod_lt _ hn
  rw [opRotl]
  generalize b.toNat % n = k at hk ⊢
  have hsplit : 2 ^ n = 2 ^ (n - k) * 2 ^ k := by rw [← Nat.pow_add]; congr 1; omega
  have hhigh : a.toNat / 2 ^ (n - k) < 2 ^ k := Nat.div_lt_of_lt_mul (hsplit ▸ a.isLt)
  have hrot : a.toNat * 2 ^ k % 2 ^ n + a.toNat / 2 ^ (n - k) = (a.rotateLeft k).toNat := by
    rw [BitVec.toNat_rotateLeft, Nat.mod_eq_of_lt hk, Nat.shiftLeft_eq, Nat.shiftRight_eq_div_pow, hsplit, Nat.mul_mod_mul_right,
      ← Nat.shiftLeft_eq, Nat.shiftLeft_add_eq_or_of_lt hhigh]
  rw [hrot, Nat.mod_eq_of_lt (a.rotateLeft k).isLt]

end

/-! ## Saturating sums -/

theorem opAddsu_toNat {n : Nat} (a b : BitVec n) : opAddsu n a.toNat b.toNat = (clampU n (a.toNat + b.toNat)).toNat := by
  have hpos : 0 < 2 ^ n := Nat.two_pow_pos n
  have hpow : ((2 ^ n : Nat) : Int) = 2 ^ n := by norm_num
  rw [opAddsu, clampU, BitVec.toNat_ofInt, ← hpow]
  generalize 2 ^ n = N at hpos ⊢
  split
  · rw [max_eq_right (by omega), min_eq_right (by omega), Int.emod_eq_of_lt (by omega) (by omega)]
    omega
  · rw [min_eq_left (by omega), max_eq_right (by omega), Int.emod_eq_of_lt (by omega) (by omega)]
    omega

theorem satSigned_eq_clampS {n : Nat} (hn : 0 < n) (v : Int) : satSigned n v = (clampS n v).toNat := by
  have hpow : 2 ^ n = 2 * 2 ^ (n - 1) := by rw [← Nat.pow_succ']; congr 1; omega
  have hcast : ((2 ^ (n - 1) : Nat) : Int) = 2 ^ (n - 1) := by norm_num
  have hpos : 0 < 2 ^ (n - 1) := Nat.two_pow_pos (n - 1)
  rw [satSigned, clampS, wrap_eq_toNat_ofInt, BitVec.toNat_ofInt, BitVec.toNat_ofInt, ← hcast, hpow]
  generalize 2 ^ (n - 1) = m at hpos ⊢
  split_ifs with hlow hhigh
  · rw [min_eq_right (by omega), max_eq_left (by omega), ← Int.add_emod_right, Int.emod_eq_of_lt (by omega) (by omega)]
    omega
  · rw [min_eq_left (by omega), max_eq_right (by omega), Int.emod_eq_of_lt (by omega) (by omega)]
    omega
  · rw [min_eq_right (by omega), max_eq_right (by omega)]

theorem opAdds_toNat {n : Nat} (hn : 0 < n) (a b : BitVec n) : opAdds n a.toNat b.toNat = (clampS n (a.toInt + b.toInt)).toNat := by
  rw [opAdds, signed_toNat, signed_toNat, satSigned_eq_clampS hn]

/-! ## Division -/

theorem toNat_eq_zero_iff {n : Nat} (b : BitVec n) : b.toNat = 0 ↔ b = 0 := by
  rw [← BitVec.toNat_inj]
  simp

section
variable {n : Nat} (a b : BitVec n)

theorem opDiv_toNat : opDiv n a.toNat b.toNat = (if b = 0 then BitVec.allOnes n else a.sdiv b).toNat := by
  rw [opDiv, signed_toNat, signed_toNat, wrap_eq_toNat_ofInt, apply_ite BitVec.toNat, BitVec.toNat_allOnes]
  have hdiv : BitVec.ofInt n (a.toInt.tdiv b.toInt) = a.sdiv b := BitVec.eq_of_toInt_eq (by rw [BitVec.toInt_ofInt, BitVec.toInt_sdiv])
  simp only [toNat_eq_zero_iff, hdiv]

theorem opDivu_toNat : opDivu n a.toNat b.toNat = (if b = 0 then BitVec.allOnes n else a / b).toNat := by
  rw [opDivu, apply_ite BitVec.toNat, BitVec.toNat_allOnes, BitVec.toNat_udiv]
  simp only [toNat_eq_zero_iff]

theorem opRem_toNat : opRem n a.toNat b.toNat = (if b = 0 then a else a.srem b).toNat := by
  rw [opRem, signed_toNat, signed_toNat, wrap_eq_toNat_ofInt, apply_ite BitVec.toNat]
  have hrem : BitVec.ofInt n (a.toInt.tmod b.toInt) = a.srem b := by rw [← BitVec.toInt_srem, BitVec.ofInt_toInt]
  simp only [toNat_eq_zero_iff, hrem]

theorem opRemu_toNat : opRemu n a.toNat b.toNat = (if b = 0 then a else a % b).toNat := by
  rw [opRemu, apply_ite BitVec.toNat, BitVec.toNat_umod]
  simp only [toNat_eq_zero_iff]

end

end Sys2Proof.Machine
end

section
/-!
SUPPORT. Bit counts, the byte swap and CRC-32C of the model are those of bit vectors (R203, R204).
-/
namespace Sys2Proof.Machine
open Sys2Proof

/-! ## Bit counts -/

/-- The leading zeros below bit `n + 1`, one position after another. -/
theorem clzAuxRec_toNat {w : Nat} (a : BitVec w) {n : Nat} (hn : n < w) :
    (a.clzAuxRec n).toNat = w - 1 - n + ((List.range (n + 1)).reverse.takeWhile (fun i => !Nat.testBit a.toNat i)).length := by
  have hw : w < 2 ^ w := Nat.lt_two_pow_self
  induction n with
  | zero =>
    rw [BitVec.clzAuxRec_zero]
    have hmod : (w - 1) % 2 ^ w = w - 1 := Nat.mod_eq_of_lt (by omega)
    cases hbit : a.getLsbD 0 with
    | true => simp [BitVec.testBit_toNat, hbit, hmod]
    | false =>
      simp [BitVec.testBit_toNat, hbit]
      omega
  | succ n ih =>
    rw [BitVec.clzAuxRec_succ, List.range_succ (n := n + 1), List.reverse_concat, List.takeWhile_cons, BitVec.testBit_toNat]
    cases hbit : a.getLsbD (n + 1) with
    | true =>
      have hmod : (w - 1 - (n + 1)) % 2 ^ w = w - 1 - (n + 1) := Nat.mod_eq_of_lt (by omega)
      simp [hmod]
    | false =>
      have hpos : w - 1 - n = w - 1 - (n + 1) + 1 := by omega
      simp [ih (by omega), hpos]
      omega

theorem opClz_toNat {w : Nat} (hw : 0 < w) (a : BitVec w) : opClz w a.toNat = a.clz.toNat := by
  rw [BitVec.clz, clzAuxRec_toNat a (by omega), Nat.sub_add_cancel hw, Nat.sub_self, Nat.zero_add]
  rfl

/-- How many leading members of a list meet a predicate depends on its values on the list alone. -/
theorem length_takeWhile_congr {α : Type} {p q : α → Bool} {l : List α} (h : ∀ x ∈ l, p x = q x) :
    (l.takeWhile p).length = (l.takeWhile q).length := by
  induction l with
  | nil => rfl
  | cons x xs ih =>
    have hx := h x List.mem_cons_self
    have hxs := ih (fun y hy => h y (List.mem_cons_of_mem x hy))
    rw [List.takeWhile_cons, List.takeWhile_cons, hx]
    split <;> simp [hxs]

/-- Trailing zeros are the leading zeros of the bits in the opposite order. -/
theorem opCtz_toNat {w : Nat} (hw : 0 < w) (a : BitVec w) : opCtz w a.toNat = a.ctz.toNat := by
  rw [BitVec.ctz_eq_reverse_clz, ← opClz_toNat hw, opClz, List.range_eq_range', List.reverse_range', List.takeWhile_map, List.length_map,
    opCtz]
  refine length_takeWhile_congr (fun i hi => ?_)
  have hlt : i < w := List.mem_range.mp hi
  have hback : w - 1 - (w - 1 - i) = i := by omega
  have hin : w - 1 - i < w := by omega
  simp only [Function.comp_apply, Nat.zero_add, BitVec.testBit_toNat, BitVec.getLsbD_reverse, BitVec.getMsbD_eq_getLsbD, hback, hin,
    decide_true, Bool.true_and]

theorem opPopc_toNat {w : Nat} (a : BitVec w) : opPopc w a.toNat = a.cpop.toNat := by
  have hcount : ∀ n, a.cpopNatRec n 0 = ((List.range n).filter (fun i => Nat.testBit a.toNat i)).length := by
    intro n
    induction n with
    | zero => rfl
    | succ n ih =>
      rw [BitVec.cpopNatRec_succ, BitVec.cpopNatRec_eq, ih, List.range_succ, List.filter_append, List.length_append]
      cases hbit : a.getLsbD n <;> simp [BitVec.testBit_toNat, hbit]
  rw [BitVec.toNat_cpop, hcount]
  rfl

/-! ## The byte swap -/

/-- A byte below a value multiplies the value by 256 and adds the byte. -/
theorem toNat_append_byte {n : Nat} (x : BitVec n) (b : Byte) : (x ++ b).toNat = x.toNat * 256 + b.toNat := by
  rw [BitVec.toNat_append, ← Nat.shiftLeft_add_eq_or_of_lt b.isLt, Nat.shiftLeft_eq]

theorem leBytes_eight (a : Word64) : Word.leBytes 8 a.toNat =
    [a.extractLsb' 0 8, a.extractLsb' 8 8, a.extractLsb' 16 8, a.extractLsb' 24 8, a.extractLsb' 32 8, a.extractLsb' 40 8, a.extractLsb' 48 8,
      a.extractLsb' 56 8] := by
  have hbyte : ∀ i, a.extractLsb' i 8 = BitVec.ofNat 8 (a.toNat / 2 ^ i) := fun i =>
    BitVec.eq_of_toNat_eq (by rw [BitVec.extractLsb'_toNat, Nat.shiftRight_eq_div_pow, BitVec.toNat_ofNat])
  simp only [Word.leBytes, hbyte, Nat.div_div_eq_div_mul]
  norm_num

theorem opBswap_toNat (a : Word64) : opBswap a.toNat = (bswapRef a).toNat := by
  rw [opBswap, leBytes_eight, bswapRef]
  simp only [List.reverse_cons, List.reverse_nil, List.nil_append, List.cons_append, Word.leValue, toNat_append_byte]
  ring

/-! ## CRC-32C -/

/-- One bit of a value into the CRC-32C remainder, as `crcRef` takes it. -/
def crcRefBit (v : Word64) (r : BitVec 32) (i : Nat) : BitVec 32 :=
  if r.getLsbD 0 != v.getLsbD i then (r >>> 1) ^^^ 0x82F63B78#32 else r >>> 1

theorem crcRef_eq (n : Nat) (rem : BitVec 32) (v : Word64) : crcRef n rem v = (List.range n).foldl (crcRefBit v) rem := rfl

theorem crcBit_eq (x : Nat) : crcBit x = if x % 2 = 1 then x / 2 ^^^ 0x82F63B78 else x / 2 := rfl

/-- One step of the register, with the bits still to come folded in, takes the lowest of them. -/
theorem crcBit_xor (v : Word64) (r : BitVec 32) {i m : Nat} (hm : m.testBit 0 = v.getLsbD i) :
    crcBit (r.toNat ^^^ m) = (crcRefBit v r i).toNat ^^^ (m / 2) := by
  have hshift : (r >>> 1).toNat = r.toNat / 2 := by rw [BitVec.toNat_ushiftRight, Nat.shiftRight_one]
  have hlow : (r.getLsbD 0 != v.getLsbD i) = decide ((r.toNat ^^^ m) % 2 = 1) := by
    rw [← hm, ← BitVec.testBit_toNat, Nat.testBit_zero, Nat.testBit_zero, Nat.xor_mod_two_eq]
    obtain hr | hr := Nat.mod_two_eq_zero_or_one r.toNat <;> obtain hb | hb := Nat.mod_two_eq_zero_or_one m <;>
      simp [Nat.add_mod, hr, hb]
  rw [crcBit_eq, crcRefBit, hlow, Nat.xor_div_two]
  simp only [decide_eq_true_eq]
  split
  · rw [BitVec.toNat_xor, hshift, BitVec.toNat_ofNat, Nat.xor_assoc, Nat.xor_assoc, Nat.xor_comm (m / 2)]
  · rw [hshift]

/-- `n` steps take `n` bits, the lowest first. -/
theorem crcBit_iterate_xor (v : Word64) (r : BitVec 32) (n : Nat) {i m : Nat} (hm : ∀ j, j < n → m.testBit j = v.getLsbD (i + j)) :
    crcBit^[n] (r.toNat ^^^ m) = ((List.range' i n).foldl (crcRefBit v) r).toNat ^^^ (m / 2 ^ n) := by
  induction n generalizing r i m with
  | zero => simp
  | succ n ih =>
    have hrest : ∀ j, j < n → (m / 2).testBit j = v.getLsbD (i + 1 + j) := fun j hj => by
      rw [← Nat.testBit_succ, hm (j + 1) (by omega)]
      congr 1
      omega
    rw [Function.iterate_succ_apply, crcBit_xor v r (i := i) (hm 0 (by omega)), ih (crcRefBit v r i) hrest, List.range'_succ, List.foldl_cons,
      Nat.div_div_eq_div_mul, ← Nat.pow_succ']

/-- A byte of the value absorbed. -/
theorem crcByte_toNat (v : Word64) (r : BitVec 32) (b : Byte) {i : Nat} (hb : ∀ j, j < 8 → b.getLsbD j = v.getLsbD (i + j)) :
    crcByte r.toNat b = ((List.range' i 8).foldl (crcRefBit v) r).toNat := by
  have hsteps : crcByte r.toNat b = crcBit^[8] (r.toNat ^^^ b.toNat) := rfl
  have hnone : b.toNat / 2 ^ 8 = 0 := Nat.div_eq_of_lt b.isLt
  rw [hsteps, crcBit_iterate_xor v r 8 (fun j hj => (BitVec.testBit_toNat b).trans (hb j hj)), hnone, Nat.xor_zero]

/-- The low bytes of the value from bit `i` up absorbed, the least significant first. -/
theorem foldl_crcByte_toNat (v : Word64) (n i : Nat) (r : BitVec 32) :
    (Word.leBytes n (v.toNat / 2 ^ i)).foldl crcByte r.toNat = ((List.range' i (8 * n)).foldl (crcRefBit v) r).toNat := by
  induction n generalizing i r with
  | zero => rfl
  | succ n ih =>
    have hb : ∀ j, j < 8 → (BitVec.ofNat 8 (v.toNat / 2 ^ i)).getLsbD j = v.getLsbD (i + j) := fun j hj => by
      rw [BitVec.getLsbD_ofNat, Nat.testBit_div_two_pow, BitVec.testBit_toNat, Nat.add_comm j i]
      simp [hj]
    have hsplit : List.range' i (8 * (n + 1)) = List.range' i 8 ++ List.range' (i + 8) (8 * n) := by
      rw [List.range'_append_1, Nat.mul_succ, Nat.add_comm]
    rw [Word.leBytes, List.foldl_cons, crcByte_toNat v r _ hb, Nat.div_div_eq_div_mul, ← Nat.pow_add (n := 8), ih, hsplit, List.foldl_append]

theorem crcStep_toNat (n : Nat) (a b : Word64) : crcStep n (a.toNat % 2 ^ 32) b.toNat = ((crcRef (8 * n) (a.setWidth 32) b).setWidth 64).toNat := by
  have hstep := foldl_crcByte_toNat b n 0 (a.setWidth 32)
  rw [Nat.pow_zero, Nat.div_one, ← List.range_eq_range', ← crcRef_eq, BitVec.toNat_setWidth] at hstep
  rw [crcStep, hstep, BitVec.toNat_setWidth]
  have := (crcRef (8 * n) (a.setWidth 32) b).isLt
  omega

end Sys2Proof.Machine
end

section
/-!
Results of the integer instructions of the cores on two registers (R203, R204).
-/
namespace Sys2Proof.Machine
open Sys2Proof

@[simp] theorem Core.setGr_pc (x : Core) (r : Nat) (v : Word64) : (x.setGr r v).pc = x.pc := by
  unfold Core.setGr
  split <;> rfl

@[simp] theorem Core.setGr_undef (x : Core) (r : Nat) (v : Word64) : (x.setGr r v).undef = x.undef := by
  unfold Core.setGr
  split <;> rfl

/-- Writing the number of a 64-bit value writes that value. -/
theorem Core.putG_toNat (x : Core) (r : BitVec 5) (v : Word64) : x.putG r v.toNat = x.setGr r.toNat v := by
  rw [Core.putG, BitVec.ofNat_toNat, BitVec.setWidth_eq]

/-- A legal instruction whose body writes one general register and goes on retires with that register written (R194). -/
theorem retires_of_putG {i : Instr} {w : CoreRef} {s : State} {info : InstrInfo} {body : State → Nat → Core → CoreRes} {r : BitVec 5}
    {n : Nat} {v : Word64} (hc : s.Canon) (h : s.CoreReady w) (hexec : exec i s = .next (runCore w info body s)) (hlegal : info.legal = true)
    (hpriv : info.priv = false) (hcount : info.counted = true)
    (hbody : body s (coreKey w) (s.core w) = retireCore s (coreKey w) ((s.core w).putG r n)) (hv : n = v.toNat) :
    Retires i w s ((s.core w).setGr r.toNat v) := by
  rw [hv, Core.putG_toNat] at hbody
  exact retires_of_retireCore hc h hexec hlegal hpriv hcount hbody (Core.setGr_pc ..) (Core.setGr_undef ..)

section
variable {mk : CoreRef → FmtA → Instr} {word : FmtA → Word32}

/-- rd ← ra op rb, where the operation on numbers is `f` on 64-bit values. -/
theorem scalarResult_of_op {op : Nat → Nat → Nat → Nat} {f : Word64 → Word64 → Word64}
    (hexec : ∀ w a s, exec (mk w a) s = .next (runCore w { word := word a } (scalar2 a op) s))
    (hop : ∀ a b : Word64, op 64 a.toNat b.toNat = (f a b).toNat) : ScalarResult mk f :=
  fun w a s hc h => retires_of_putG hc h (hexec w a s) rfl rfl rfl rfl (hop _ _)

/-- rd ← op ra, for a form that is legal where its rb field is 0. -/
theorem unaryResult_of_op {op : Nat → Nat} {f : Word64 → Word64}
    (hexec : ∀ w a s, exec (mk w a) s = .next (runCore w { word := word a, legal := a.rb == 0 } (scalar1 a op) s))
    (hop : ∀ a : Word64, op a.toNat = (f a).toNat) : UnaryResult mk f :=
  fun w a s hc h hrb => retires_of_putG hc h (hexec w a s) (beq_iff_eq.mpr hrb) rfl rfl rfl (hop _)

/-- rd ← the CRC-32C remainder in ra[31:0] after the low `n` bytes of rb. -/
theorem scalarResult_of_crc {n : Nat} (hexec : ∀ w a s, exec (mk w a) s = .next (runCore w { word := word a } (scalarCrc a n) s)) :
    ScalarResult mk (fun a b => (crcRef (8 * n) (a.setWidth 32) b).setWidth 64) :=
  fun w a s hc h => retires_of_putG hc h (hexec w a s) rfl rfl rfl rfl (crcStep_toNat n _ _)

end

theorem scalarIntegerResults : Claims.ScalarIntegerResults :=
  ⟨scalarResult_of_op (fun _ _ _ => rfl) opAdd_toNat, scalarResult_of_op (fun _ _ _ => rfl) opSub_toNat,
    scalarResult_of_op (fun _ _ _ => rfl) opAnd_toNat, scalarResult_of_op (fun _ _ _ => rfl) opOr_toNat,
    scalarResult_of_op (fun _ _ _ => rfl) opXor_toNat, scalarResult_of_op (fun _ _ _ => rfl) opAndn_toNat,
    scalarResult_of_op (fun _ _ _ => rfl) opSll_toNat, scalarResult_of_op (fun _ _ _ => rfl) opSrl_toNat,
    scalarResult_of_op (fun _ _ _ => rfl) opSra_toNat, scalarResult_of_op (fun _ _ _ => rfl) opRotl_toNat,
    scalarResult_of_op (fun _ _ _ => rfl) opSlt_toNat, scalarResult_of_op (fun _ _ _ => rfl) opSltu_toNat,
    scalarResult_of_op (fun _ _ _ => rfl) opMin_toNat, scalarResult_of_op (fun _ _ _ => rfl) opMinu_toNat,
    scalarResult_of_op (fun _ _ _ => rfl) opMax_toNat, scalarResult_of_op (fun _ _ _ => rfl) opMaxu_toNat⟩

theorem scalarMultiplyDivideResults : Claims.ScalarMultiplyDivideResults :=
  ⟨scalarResult_of_op (fun _ _ _ => rfl) opMul_toNat, scalarResult_of_op (fun _ _ _ => rfl) opMulh_toNat,
    scalarResult_of_op (fun _ _ _ => rfl) opMulhu_toNat, scalarResult_of_op (fun _ _ _ => rfl) opDiv_toNat,
    scalarResult_of_op (fun _ _ _ => rfl) opDivu_toNat, scalarResult_of_op (fun _ _ _ => rfl) opRem_toNat,
    scalarResult_of_op (fun _ _ _ => rfl) opRemu_toNat⟩

theorem scalarBitAndCrcResults : Claims.ScalarBitAndCrcResults :=
  ⟨unaryResult_of_op (fun _ _ _ => rfl) (opClz_toNat (by decide)), unaryResult_of_op (fun _ _ _ => rfl) (opCtz_toNat (by decide)),
    unaryResult_of_op (fun _ _ _ => rfl) opPopc_toNat, unaryResult_of_op (fun _ _ _ => rfl) opBswap_toNat,
    scalarResult_of_crc (n := 1) (fun _ _ _ => rfl), scalarResult_of_crc (n := 2) (fun _ _ _ => rfl),
    scalarResult_of_crc (n := 4) (fun _ _ _ => rfl), scalarResult_of_crc (n := 8) (fun _ _ _ => rfl)⟩

/-- Settles O1: every operation on numbers is the operation on 64-bit values that the statement names, and its instruction retires with rd
written. -/
theorem integerArithmeticResults : Obligations.IntegerArithmeticResults :=
  ⟨scalarIntegerResults, scalarMultiplyDivideResults, scalarBitAndCrcResults⟩

end Sys2Proof.Machine
end

section
/-!
SUPPORT. Elements of vector registers: reading one after writing one, and after writing the active ones in turn (R199, R200).
-/
namespace Sys2Proof.Machine
open Sys2Proof

/-! ## Widths -/

theorem ewBits_mul_ewCount (ew : BitVec 2) : ewBits ew * ewCount ew = 2048 := by
  revert ew
  decide

theorem ewBits_le (ew : BitVec 2) : ewBits ew ≤ 64 := by
  revert ew
  decide

theorem ewCount_le (ew : BitVec 2) : ewCount ew ≤ 256 := by
  revert ew
  decide

/-- An element lies within its register. -/
theorem elem_within {ew : BitVec 2} {e : Nat} (he : e < ewCount ew) : ewBits ew * e + ewBits ew ≤ 2048 := by
  rw [← ewBits_mul_ewCount ew, ← Nat.mul_succ]
  exact Nat.mul_le_mul_left _ he

/-! ## One element -/

theorem ofNat_toNat_elemOf (v : VWord) (ew : BitVec 2) (e : Nat) : BitVec.ofNat (ewBits ew) (elemOf v ew e).toNat = elemOf v ew e := by
  rw [BitVec.ofNat_toNat, BitVec.setWidth_eq]

/-- The bits of a register with one element replaced: those of the element, and the old ones elsewhere. -/
theorem getLsbD_setElem (v : VWord) (w e x : Nat) {i : Nat} (hi : i < 2048) :
    (setElem v w e x).getLsbD i = if w * e ≤ i ∧ i < w * e + w then x.testBit (i - w * e) else v.getLsbD i := by
  have hfield : (w * e ≤ i ∧ i < w * e + w) ↔ (w * e ≤ i ∧ i - w * e < w) := by omega
  simp only [setElem, hfield, BitVec.getLsbD_or, BitVec.getLsbD_and, BitVec.getLsbD_not, BitVec.getLsbD_ofNat, Nat.testBit_mul_two_pow,
    Nat.testBit_two_pow_sub_one, Nat.testBit_mod_two_pow, hi, decide_true, Bool.true_and]
  by_cases hin : w * e ≤ i ∧ i - w * e < w
  · simp [hin]
  · have hout : (decide (w * e ≤ i) && decide (i - w * e < w)) = false := by simpa using hin
    simp [hin, hout, ← Bool.and_assoc]

theorem elemOf_setElem_same (v : VWord) {ew : BitVec 2} {e : Nat} (he : e < ewCount ew) (x : Nat) :
    elemOf (setElem v (ewBits ew) e x) ew e = BitVec.ofNat (ewBits ew) x := by
  have hin := elem_within he
  refine BitVec.eq_of_getLsbD_eq (fun j hj => ?_)
  rw [elemOf, BitVec.getLsbD_extractLsb', getLsbD_setElem v _ e x (by omega), if_pos (by omega), BitVec.getLsbD_ofNat, Nat.add_sub_cancel_left]

theorem elemOf_setElem_ne (v : VWord) {ew : BitVec 2} {e e' : Nat} (he : e' < ewCount ew) (hne : e' ≠ e) (x : Nat) :
    elemOf (setElem v (ewBits ew) e x) ew e' = elemOf v ew e' := by
  have hin := elem_within he
  have hapart : ewBits ew * e' + ewBits ew ≤ ewBits ew * e ∨ ewBits ew * e + ewBits ew ≤ ewBits ew * e' := by
    rw [← Nat.mul_succ, ← Nat.mul_succ]
    exact hne.lt_or_gt.imp (Nat.mul_le_mul_left _) (Nat.mul_le_mul_left _)
  refine BitVec.eq_of_getLsbD_eq (fun j hj => ?_)
  rw [elemOf, elemOf, BitVec.getLsbD_extractLsb', BitVec.getLsbD_extractLsb', getLsbD_setElem v _ e x (by omega), if_neg (by omega)]

/-! ## The active elements -/

/-- Elements written in turn, each from its own number: those of the list are new, the others are as before. -/
theorem elemOf_foldl_setElem (val : Nat → Nat) {ew : BitVec 2} {e : Nat} (he : e < ewCount ew) (es : List Nat) (v : VWord) :
    elemOf (es.foldl (fun u k => setElem u (ewBits ew) k (val k)) v) ew e =
      if e ∈ es then BitVec.ofNat (ewBits ew) (val e) else elemOf v ew e := by
  induction es generalizing v with
  | nil => rfl
  | cons k ks ih =>
    rw [List.foldl_cons, ih]
    by_cases hks : e ∈ ks
    · rw [if_pos hks, if_pos (List.mem_cons_of_mem k hks)]
    · obtain rfl | hne := eq_or_ne e k
      · rw [if_neg hks, if_pos List.mem_cons_self, elemOf_setElem_same v he]
      · rw [if_neg hks, if_neg (List.not_mem_cons_of_ne_of_not_mem hne hks), elemOf_setElem_ne v he hne]

theorem Core.mem_actives (x : Core) (f : FmtV) (e : Nat) : e ∈ x.actives f ↔ x.active f.ew f.msk e = true := by
  rw [Core.actives, List.mem_filter, List.mem_range]
  refine and_iff_right_of_imp (fun h => ?_)
  rw [Core.active, Bool.and_eq_true, decide_eq_true_eq] at h
  exact h.1

/-- No element beyond the register is active, so the active ones are the same counted to L or to the end of the register (R200). -/
theorem Core.actives_eq_filter (x : Core) (f : FmtV) :
    x.actives f = (List.range (ewCount f.ew)).filter (fun e => x.active f.ew f.msk e) := by
  obtain ⟨k, hk⟩ := Nat.exists_eq_add_of_le (Nat.min_le_right x.vl (ewCount f.ew))
  have hrest : ((List.range k).map (fun e => x.activeLen f.ew + e)).filter (fun e => x.active f.ew f.msk e) = [] := by
    rw [List.filter_eq_nil_iff]
    intro e he hact
    obtain ⟨j, -, rfl⟩ := List.mem_map.mp he
    simp [Core.active] at hact
  rw [hk, List.range_add, List.filter_append]
  exact (List.append_nil _).symm.trans (congrArg _ hrest.symm)

/-! ## Results in vd -/

/-- A legal instruction that computes a number for every active element of vd writes vd so, and nothing else (R200, R207). -/
theorem vecWrites_of_vecMap {i : Instr} {w : CoreRef} {f : FmtV} {s : State} {info : InstrInfo} {body : State → Nat → Core → CoreRes}
    {op : Core → Nat → Nat} {val : Nat → Option (BitVec (ewBits f.ew))} (hc : s.Canon) (h : s.CoreReady w)
    (hexec : exec i s = .next (runCore w info body s)) (hlegal : info.legal = true) (hpriv : info.priv = false) (hcount : info.counted = true)
    (hbody : body s (coreKey w) (s.core w) = vecMap f op s (coreKey w) (s.core w))
    (hval : ∀ e, e < ewCount f.ew →
      val e = if (s.core w).active f.ew f.msk e = true then some (BitVec.ofNat (ewBits f.ew) (op (s.core w) e)) else none) :
    VecWrites i w f s val := by
  refine ⟨_, retires_of_retireCore hc h hexec hlegal hpriv hcount hbody rfl rfl, fun e he => ?_⟩
  rw [elemOf_foldl_setElem _ he, hval e he]
  simp only [Core.mem_actives]
  split <;> rfl

end Sys2Proof.Machine
end

section
/-!
Results of the table lookups and the reductions of the cores (R208, R209, R211).
-/
namespace Sys2Proof.Machine
open Sys2Proof

/-! ## Tables -/

/-- The value of an element that takes entry `i` of a table, or 0 beyond its last entry. -/
theorem ofNat_tableEntry (x : Core) (base : Nat) (ew : BitVec 2) (i limit : Nat) :
    BitVec.ofNat (ewBits ew) (if i < limit then x.tableEntry base ew i else 0) =
      if i < limit then elemOf (x.vr (base + i / ewCount ew)) ew (i % ewCount ew) else 0 := by
  split
  · exact ofNat_toNat_elemOf _ ew _
  · rfl

/-- Byte `e` of an index operand of one byte for each element lies in its first register. -/
theorem Core.indexElem_byte (x : Core) {ew : BitVec 2} (vb : Nat) {e : Nat} (he : e < ewCount ew) :
    x.indexElem vb 8 e = ((x.vr vb).extractLsb' (8 * e) 8).toNat := by
  have hlt := he.trans_le (ewCount_le ew)
  have hreg : e * 8 / 2048 = 0 := by omega
  have hpos : e % (2048 / 8) = e := by omega
  rw [Core.indexElem, hreg, hpos]
  rfl

/-- Settles O15: a legal VTBL takes its entry for every active element, and one that names a register beyond v31 is illegal. -/
theorem tableLookupResults : Obligations.TableLookupResults := by
  intro w f k iw16 s hc h x n iw per index entry fits
  constructor
  · rintro ⟨htable, hindex⟩
    refine vecWrites_of_vecMap hc h rfl ?_ rfl rfl rfl (fun e _ => ?_)
    · exact Bool.and_eq_true_iff.mpr ⟨decide_eq_true htable, decide_eq_true hindex⟩
    · exact congrArg (fun v => if x.active f.ew f.msk e = true then some v else none) (ofNat_tableEntry x f.va.toNat f.ew (index e) (n * per)).symm
  · intro hfits hmode
    refine raises_illegal hc h hmode rfl ?_
    exact Bool.eq_false_iff.mpr (fun hlegal =>
      hfits ((Bool.and_eq_true_iff.mp hlegal).imp of_decide_eq_true of_decide_eq_true))

/-- Settles O16: a legal VTBL2 takes its entry through both tables for every active element, and one whose tables reach beyond v31 is illegal. -/
theorem twoLevelLookupResults : Obligations.TwoLevelLookupResults := by
  intro w f k s hc h x t per first entry
  constructor
  · intro hfits
    refine vecWrites_of_vecMap hc h rfl (decide_eq_true hfits) rfl rfl rfl (fun e he => ?_)
    have hfirst : elemAt (x.vr f.va.toNat) 8 (x.indexElem f.vb.toNat 8 e) = first e := by
      rw [x.indexElem_byte f.vb.toNat he]
      rfl
    have hentry := ofNat_tableEntry x (f.va.toNat + 1) f.ew (first e) (t * per)
    dsimp only
    rw [hfirst]
    exact congrArg (fun v => if x.active f.ew f.msk e = true then some v else none) hentry.symm
  · intro hbeyond hmode
    exact raises_illegal hc h hmode rfl (decide_eq_false (by omega))

/-! ## Reductions -/

/-- What a reduction takes of an element is its extension to 64 bits. -/
theorem Core.redElem_toNat (x : Core) (f : FmtV) (signed : Bool) (e : Nat) :
    (if signed then Word.wrap 64 (Word.signed (ewBits f.ew) (x.vaElem f e)) else x.vaElem f e) = (x.redElem f signed e).toNat := by
  have helem : x.vaElem f e = (x.va f e).toNat := rfl
  cases signed with
  | true =>
    simp only [Core.redElem, helem, signed_toNat, wrap_eq_toNat_ofInt, if_true]
    rfl
  | false =>
    have hlt : (x.va f e).toNat < 2 ^ 64 := (x.va f e).isLt.trans_le (Nat.pow_le_pow_right (by decide) (ewBits_le f.ew))
    simp only [Core.redElem, helem, Bool.false_eq_true, if_false, BitVec.toNat_setWidth, Nat.mod_eq_of_lt hlt]

/-- A reduction whose operation on numbers is `op` on 64-bit values folds that operation over the active elements. -/
theorem reduceResult_of_op {mk : CoreRef → FmtV → Instr} {word : FmtV → Word32} {signed : Bool} {opn : Nat → Nat → Nat → Nat}
    {op : Word64 → Word64 → Word64}
    (hexec : ∀ w f s, exec (mk w f) s = .next (runCore w { word := word f, vector := true } (redBody f signed opn) s))
    (hop : ∀ a b : Word64, opn 64 a.toNat b.toNat = (op a b).toNat) : ReduceResult mk signed op := by
  intro w f s hc h
  refine retires_of_putG hc h (hexec w f s) rfl rfl rfl rfl ?_
  rw [Core.actives_eq_filter]
  exact List.foldl_hom BitVec.toNat (fun a e => by beta_reduce; rw [Core.redElem_toNat, hop])

/-- Settles O17: every operation on numbers is the operation on 64-bit values that the statement names. -/
theorem reductionResults : Obligations.ReductionResults :=
  ⟨reduceResult_of_op (fun _ _ _ => rfl) opAdd_toNat, reduceResult_of_op (fun _ _ _ => rfl) (opAdds_toNat (by decide)),
    reduceResult_of_op (fun _ _ _ => rfl) opAddsu_toNat, reduceResult_of_op (fun _ _ _ => rfl) opMin_toNat,
    reduceResult_of_op (fun _ _ _ => rfl) opMinu_toNat, reduceResult_of_op (fun _ _ _ => rfl) opMax_toNat,
    reduceResult_of_op (fun _ _ _ => rfl) opMaxu_toNat, reduceResult_of_op (fun _ _ _ => rfl) opAnd_toNat,
    reduceResult_of_op (fun _ _ _ => rfl) opOr_toNat, reduceResult_of_op (fun _ _ _ => rfl) opXor_toNat⟩

end Sys2Proof.Machine
end
